-- ==== Sys2Proof/Word.lean ====
section
/-! DEFINITION. The words of the HX-5516's formats and the plain types that stand under every other file:
bytes, the 16-, 32- and 64-bit words of headers and registers, and the sparse table type. -/

namespace Sys2Proof

/-- One byte of a frame, of the flash or of a DRAM line. -/
abbrev Byte := BitVec 8

/-- A 16-bit field. -/
abbrev W16 := BitVec 16

/-- A 32-bit word of an object block or of a plan image. -/
abbrev W32 := BitVec 32

/-- A 64-bit word: the unit of atomic operations (spec/00, Glossary). -/
abbrev W64 := BitVec 64

/-- A sparse table: key and value pairs, keys strictly rising, no entry equal to what an unlisted key reads as
(Machine/Map.lean gives the operations that keep this form). With byte values this is a list of `Host.Cell`. -/
abbrev Table (β : Type) := List (Nat × β)

/-- A set of small numbers as a rising list without repeats. -/
abbrev NatSet := List Nat

end Sys2Proof
end

