-- ==== Sys2Proof/Syntax.lean ====
section
/-! DEFINITION. The commands: ONE inductive, one constructor per row of spec/opcode_table.json, and the plain
records that their operands are made of. The table gives its rows no bits and no operands; each constructor
carries what its rule needs from outside the block: the received frame or packet, the object concerned, and,
where the outside world decides something (a sensor reading, a symbol error, a read-back), that value
(notes/assumptions/6.md). -/

namespace Sys2Proof

/-- The two chain ports (spec/13). -/
inductive ChainPort where
  | chu
  | chd
  deriving DecidableEq, Repr

/-- The supply rails of R28, in the order of their rail codes 0x1 to 0x8. -/
inductive Rail where
  | vddc
  | vddm
  | vdda
  | vpp
  | vdds
  | vddt
  | vddio
  | vddk
  deriving DecidableEq, Repr

/-- The supply sequence events that raise kind 0x51 (R36, R37). -/
inductive SeqEvent where
  | order
  | skew
  | foundUp
  deriving DecidableEq, Repr

/-- The two plan banks (R249). -/
inductive Bank where
  | a
  | b
  deriving DecidableEq, Repr

/-- An IP address of either family. -/
inductive Ip where
  | v4 (a : BitVec 32)
  | v6 (a : BitVec 128)
  deriving DecidableEq, Repr

/-- A chain frame as its header and payload give it (R292, R293); the MAC addresses, the CRC-32C and the FCS are
checked before (`RxChain`). -/
structure ChainFrame where
  version : BitVec 4
  ftype : BitVec 4
  flags : Byte
  dest : Byte
  source : Byte
  hops : Byte
  code : Byte
  seq : W16
  addr : W32
  length : W16
  status : Byte
  tag : W32
  payload : List Byte
  deriving DecidableEq, Repr

/-- A received chain frame with the outcomes of the receive checks of R295 that its bits alone decide. -/
structure RxChain where
  fcsOk : Bool
  macOk : Bool
  lengthOk : Bool
  crcOk : Bool
  frame : ChainFrame
  deriving DecidableEq, Repr

/-- What a frame bound for the slow path is (R73): the frames of the table, a CM MRA, which is ignored (R100), and all others. -/
inductive SlowKind where
  | arpRequest
  | solicitation
  | echo
  | connection
  | mra
  | other
  deriving DecidableEq, Repr

/-- A received data-port frame as the MAC and the parser see it (R62): what the acceptance checks test; and the FEC
codewords that brought it, by outcome, with the symbols corrected in them (R75); for a transport packet its BTH version and P_Key (R84). -/
structure DataFrame where
  fcsOk : Bool
  length : Nat
  dmac : BitVec 48
  tags : List W16
  ethertype : W16
  macOpcode : W16
  ipHeaderOk : Bool
  ipNext : Byte
  srcIp : Ip
  dstIp : Ip
  dscp : BitVec 6
  udpPort : W16
  destQp : BitVec 24
  slowKind : SlowKind
  codewords : Nat
  corrected : Nat
  uncorrectable : Nat
  symbols : Nat
  tver : BitVec 4
  pkey : W16
  deriving DecidableEq, Repr

/-- A RoCEv2 packet as it reaches the transport checks of R90. `opcode` is used by UNSUPPORTED_OPCODE and by the
duplicate rules; the supported opcodes have a command each. `payload` is the data of a WRITE packet, `prio` the
priority of the frame that brought it (R69). -/
structure Pkt where
  port : Fin 16
  dqp : BitVec 24
  srcIp : Ip
  icrcOk : Bool
  tver : BitVec 4
  pkey : W16
  padOk : Bool
  ecn : BitVec 2
  opcode : Byte
  psn : BitVec 24
  va : BitVec 64
  rkey : BitVec 32
  dmaLen : BitVec 32
  compare : W64
  swapAdd : W64
  payload : List Byte
  sramBad : Bool
  prio : Fin 8
  deriving DecidableEq, Repr

/-- A connection-management MAD received on QP1 with the addresses it came from (R100 to R104). -/
structure Mad where
  port : Fin 16
  srcIp : Ip
  srcMac : BitVec 48
  srcUdp : W16
  srcQp : BitVec 24
  tver : BitVec 4
  pkey : W16
  qkey : W32
  mgmtClass : Byte
  baseVersion : Byte
  classVersion : Byte
  localComm : W32
  remoteComm : W32
  serviceId : W64
  transport : BitVec 2
  mtu : BitVec 4
  startPsn : BitVec 24
  reqQpn : BitVec 24
  gid : BitVec 128
  flow : BitVec 20
  priv : List Byte
  deriving DecidableEq, Repr

/-- An ARP request or a neighbour solicitation: who asks for which address (R73). -/
structure AddrQuery where
  srcMac : BitVec 48
  srcIp : Ip
  target : Ip
  deriving DecidableEq, Repr

/-- An ICMP or ICMPv6 echo request (R73). -/
structure Echo where
  srcMac : BitVec 48
  srcIp : Ip
  dstIp : Ip
  ipBytes : Nat
  body : List Byte
  deriving DecidableEq, Repr

/-- One lane's measurement of the last 1 ms: level means from the midpoint, variances, and the 10^-6 tails of the
histograms that bound the three eyes (R74). -/
structure LaneSample where
  mean0 : Int
  mean1 : Int
  mean2 : Int
  mean3 : Int
  varSum : Nat
  eye0 : Int
  eye1 : Int
  eye2 : Int
  signal : Bool
  locked : Bool
  deriving DecidableEq, Repr

/-- Symbol errors of one line: lane index 0 to 71 and the bits in error on it (R156, R208). -/
abbrev Errors := List (Fin 72 × Byte)

/-- A bit set of an OTP word that a margin reference misreads (R353): word, bits lost at the low-margin reference,
bits gained at the high-margin reference. -/
structure WeakWord where
  word : Fin 2048
  lost : BitVec 39
  gained : BitVec 39
  deriving DecidableEq, Repr

/-- What an SRAM read or background scrub finds wrong (R212, R213): the area by its row number, the item in it
(QPN, region, slot, class, channel, counter word or CE log entry), whether two bits are wrong, and, for the tables
held twice, whether both copies are. For a class-queue entry `psn` is the request's. -/
structure SramFinding where
  area : Fin 10
  item : Nat
  psn : BitVec 24
  double : Bool
  bothCopies : Bool
  deriving DecidableEq, Repr

/-- A table entry that is reloaded from the bank in force (R286). -/
inductive ReloadItem where
  | region (i : Fin 131072)
  | classTable (c : Fin 16)
  | escalation (c : Fin 16)
  deriving DecidableEq, Repr

/-- A thermal domain (R240, R241). -/
inductive ThermDomain where
  | layer (i : Fin 16)
  | base
  deriving DecidableEq, Repr

/-- An on-die temperature sensor (R234, R235). -/
inductive Sensor where
  | base (s : Fin 24)
  | layer (i : Fin 16) (q : Fin 4)
  deriving DecidableEq, Repr

/-- What the Churn's own checks find (R343). -/
inductive ChurnCause where
  | parity (register : BitVec 12)
  | latch (register : BitVec 12)
  | stalled
  deriving DecidableEq, Repr

/-- A cell that a BIST march read wrongly (R364): bank, physical row, position, lane. -/
structure BistFail where
  bank : Fin 32
  row : Fin 32768
  pos : Fin 16
  lane : Fin 72
  deriving DecidableEq, Repr

/-- The commands of the block: one constructor per row of spec/opcode_table.json. -/
inductive Instr where
  | porNRise (head : Bool)
  | otpMarginRead (weak : List WeakWord)
  | layerInitialisation (badPaths : List (Fin 64 × Fin 92))
  | factoryAreaCheck
  | memoryFill
  | planBankCheck
  | planSelection
  | linkTrainingComplete (port : Fin 16) (up : Bool) (sets : List (List Byte))
  | serviceOpen
  | wrstNFall (lowNs : Nat)
  | channelSelfRefreshAck (ch : Fin 64)
  | drainTimeout
  | warmStart (weak : List WeakWord)
  | pwrOkFall (railsIn : Byte) (stable : Bool)
  | supplyOutOfWindow (rail : Rail) (layer : Option (Fin 16)) (high : Bool) (ns : Nat)
  | supplySequenceViolation (event : SeqEvent) (rail : Rail)
  | refclkStopped
  | refclkOffFrequency
  | refclkRestored
  | anchor (p : ChainPort) (f : ChainFrame)
  | trim (p : ChainPort) (f : ChainFrame)
  | stageOpen (p : ChainPort) (f : ChainFrame)
  | sectorEraseComplete
  | stagingWrite (p : ChainPort) (f : ChainFrame)
  | pageProgramComplete
  | stageCommit (p : ChainPort) (f : ChainFrame)
  | stageAbort (p : ChainPort) (f : ChainFrame)
  | adopt (p : ChainPort) (f : ChainFrame)
  | adoptCancel (p : ChainPort) (f : ChainFrame)
  | revokeLease (p : ChainPort) (f : ChainFrame)
  | retirePage (p : ChainPort) (f : ChainFrame)
  | unitCopy (ch : Fin 64) (u : Nat)
  | quiescePort (p : ChainPort) (f : ChainFrame)
  | quiesceDrainEnd (port : Fin 16)
  | quiescePortResume (p : ChainPort) (f : ChainFrame)
  | warmReset (p : ChainPort) (f : ChainFrame)
  | snapshotTake (p : ChainPort) (f : ChainFrame)
  | snapshotTakeClear (p : ChainPort) (f : ChainFrame)
  | snapshotRelease (p : ChainPort) (f : ChainFrame)
  | snapshotExpiry (group : Fin 6)
  | bistStart (p : ChainPort) (f : ChainFrame)
  | bistAbort (p : ChainPort) (f : ChainFrame)
  | bistBatch (ch : Fin 64) (fails : List BistFail) (stillFailing : List BistFail) (badItems : List Nat)
  | bistEnd
  | otpProgram (p : ChainPort) (f : ChainFrame) (vddio vprog : Nat)
  | otpPulse (normal low high : BitVec 39) (vddio vprog : Nat)
  | lifecycleAdvance (p : ChainPort) (f : ChainFrame) (vddio vprog : Nat)
  | chainLinkUp (p : ChainPort)
  | chainLinkDown (p : ChainPort)
  | chainLinkRetry (p : ChainPort)
  | chainFrameReject (p : ChainPort) (rx : RxChain)
  | chainFrameForward (p : ChainPort) (f : ChainFrame)
  | hopAckReceive (p : ChainPort) (f : ChainFrame)
  | hopResend (p : ChainPort)
  | enumerate (p : ChainPort) (f : ChainFrame)
  | headSelfEnumerate
  | confirm (p : ChainPort) (f : ChainFrame)
  | repeatedResponse (p : ChainPort) (f : ChainFrame)
  | quietTurnOff (p : ChainPort)
  | keepalive (p : ChainPort)
  | wakeDetect (p : ChainPort)
  | falseWake (p : ChainPort)
  | beacon
  | registerWrite (p : ChainPort) (f : ChainFrame)
  | ucPendingClear (p : ChainPort) (f : ChainFrame)
  | peakRead (p : ChainPort) (f : ChainFrame)
  | dataFrameReceive (port : Fin 16) (f : DataFrame)
  | pfcReceive (port : Fin 16) (enable : Byte) (quanta : List W16)
  | pfcPauseExpiry (port : Fin 16) (prio : Fin 8)
  | pfcWatchdog (port : Fin 16) (prio : Fin 8)
  | pfcXoffRepeat (port : Fin 16) (prio : Fin 8)
  | pfcXon (port : Fin 16) (prio : Fin 8) (freed : Nat)
  | arpRequest (port : Fin 16) (q : AddrQuery)
  | neighbourSolicitation (port : Fin 16) (q : AddrQuery)
  | echoRequest (port : Fin 16) (e : Echo)
  | slowPathToken
  | rdmaReadRequest (k : Pkt)
  | rdmaWriteFirst (k : Pkt)
  | rdmaWriteMiddle (k : Pkt)
  | rdmaWriteLast (k : Pkt)
  | rdmaWriteOnly (k : Pkt)
  | cmpSwap (k : Pkt)
  | fetchAdd (k : Pkt)
  | unsupportedOpcode (k : Pkt)
  | cnpReceive (k : Pkt)
  | rpAlphaDecay (qpn : BitVec 24)
  | rpIncrease (qpn : BitVec 24)
  | orderingPointPass (ch : Fin 64) (wordUpsets : Errors) (wordPath : Errors)
  | burstOpportunity (ch : Fin 64)
  | lineDecode (ch : Fin 64) (upsets : Errors) (path : Errors) (metaUpsets : Errors)
  | tagCheck (ch : Fin 64)
  | writeHalf (ch : Fin 64)
  | responseSend (qpn : BitVec 24)
  | ackDeadline (qpn : BitVec 24)
  | cmReq (m : Mad)
  | cmRtu (m : Mad)
  | cmRejReceive (m : Mad)
  | cmDreq (m : Mad)
  | disconnectComplete (qpn : BitVec 24)
  | repTimeout (qpn : BitVec 24)
  | qpErrorTimeout (qpn : BitVec 24)
  | laneQualitySample (lane : Fin 16) (m : LaneSample)
  | laneSnrLow (lane : Fin 16)
  | fecThreshold (port : Fin 16)
  | portDown (port : Fin 16)
  | portJoinSet (port : Fin 16)
  | portRetrain (port : Fin 16)
  | recalStart
  | recalDecision (candidate current : W16) (set : List Byte)
  | recalRetry (lane : Fin 16)
  | minuteBoundary
  | eraseDrainComplete (region : Fin 131072)
  | cryptoEraseComplete (region : Fin 131072)
  | heldLeaseStart (region : Fin 131072)
  | adoptionPrepared
  | regionTableRewrite
  | sectionReload (item : ReloadItem)
  | pageInitComplete (page : Nat)
  | pageRewriteComplete (page : Nat)
  | keyDraw (region : Fin 131072)
  | pageMove (region : Fin 131072) (page : Nat)
  | rekeySweepStep (region : Fin 131072)
  | keyRetirement (region : Fin 131072)
  | drbgReseed
  | entropyFailure
  | refreshInterval (ch : Fin 64) (bank : Fin 32)
  | neighbourRefreshDeadline (ch : Fin 64) (bank : Fin 32)
  | expressRowTimeout (ch : Fin 64) (bank : Fin 32)
  | rowDisturbReseed (ch : Fin 64)
  | laneErrorWindow (ch : Fin 64)
  | reliefCopyComplete (ch : Fin 64)
  | calendarTurn (ch : Fin 64)
  | latencyUpdate (ch : Fin 64) (cls : Fin 16)
  | skimmerStep
  | skimmerVisit (ch : Fin 64) (upsets : Errors) (path : Errors)
  | sramScrub (found : Option SramFinding)
  | thermalSample (base : List (Option Int)) (layers : List (Option Int))
  | thresholdRelease (dom : ThermDomain)
  | retentionFloorUpdate
  | sensorInvalid (sensor : Sensor)
  | sensorsDeclaredFailed (layer : Fin 16)
  | faultMessage
  | churnFault (cause : ChurnCause) (pointersOk : Bool)
  | handshakeTimeout (sender receiver : BitVec 12)
  | heartbeat
  | watchdogExpiry
  | journalWrite
  | railUp (rail : Rail) (full : Bool)
  | pwrOkRise
  | porNFall (lowUs : Nat)
  | supplyRemoval
  | islandPllLock
  | drainBegin
  | stageCommitEnd
  | blockLock (p : ChainPort)
  | partnerDriverOff (p : ChainPort)
  | unknownCommand (p : ChainPort) (f : ChainFrame)
  | entropySample (sample : Byte) (later : List Byte)
  deriving DecidableEq, Repr

end Sys2Proof
end

