-- ==== Sys2Proof/WellFormed.lean ====
section
/-! DEFINITION. Which commands name things that exist: list lengths that the formats fix, pages and units within the
device, symbol errors on distinct lanes. Values that the spec gives a status, a NAK or a discard for stay well formed:
their meaning answers them. -/

namespace Sys2Proof

/-- Tenant pages of the device: 64 channels of 882 MiB (R160). -/
def pageCount : Nat := 0xDC8000

/-- 4 KiB units of one channel (R226). -/
def unitCount : Nat := 225792

/-- The lanes of an error pattern are distinct, and each has a bit in error. -/
def Errors.wf (es : Errors) : Bool := decide ((es.map (fun e => e.1)).Nodup) && es.all (fun e => e.2 != 0)

/-- The payload of a chain frame is as long as its Length field says, and fits (R292). -/
def ChainFrame.wf (f : ChainFrame) : Bool := decide (f.payload.length = f.length.toNat) && decide (f.payload.length ≤ 1024)

/-- A receiver coefficient set is 28 bytes (R81). -/
def coeffsWf (set : List Byte) : Bool := decide (set.length = 28)

/-- The payload of a packet fits the largest path MTU (R84). -/
def Pkt.wf (k : Pkt) : Bool := decide (k.payload.length ≤ 4096)

/-- Private data of a connection-management message fits (R100). -/
def Mad.wf (m : Mad) : Bool := decide (m.priv.length ≤ 232)

/-- The words of a margin read are named once each (R353). -/
def weakWf (l : List WeakWord) : Bool := decide ((l.map (fun w => w.word)).Nodup)

/-- A source ID that R333 assigns. -/
def sourceAssigned (n : BitVec 12) : Bool :=
  let k := n.toNat
  decide (k < 0x54) || (decide (0x60 ≤ k) && decide (k < 0x72)) || (decide (0x80 ≤ k) && decide (k < 0x88)) ||
    (decide (0x90 ≤ k) && decide (k < 0x96)) || (decide (0xA0 ≤ k) && decide (k < 0xB0)) || k = 0xF0 || k = 0xFF

/-- Well-formed commands. -/
def Instr.wf : Instr → Bool
  | .otpMarginRead weak | .warmStart weak => weakWf weak
  | .linkTrainingComplete _ _ sets => decide (sets.length ≤ 4) && sets.all coeffsWf
  | .anchor _ f | .trim _ f | .stageOpen _ f | .stagingWrite _ f | .stageCommit _ f | .stageAbort _ f | .adopt _ f
  | .adoptCancel _ f | .revokeLease _ f | .retirePage _ f | .quiescePort _ f | .quiescePortResume _ f | .warmReset _ f
  | .snapshotTake _ f | .snapshotTakeClear _ f | .snapshotRelease _ f | .bistStart _ f | .bistAbort _ f
  | .otpProgram _ f _ _ | .lifecycleAdvance _ f _ _ | .chainFrameForward _ f | .hopAckReceive _ f | .enumerate _ f
  | .confirm _ f | .repeatedResponse _ f | .registerWrite _ f | .ucPendingClear _ f | .peakRead _ f
  | .unknownCommand _ f => f.wf
  | .unitCopy _ u => decide (u < unitCount)
  | .pfcReceive _ _ quanta => decide (quanta.length = 8)
  | .rdmaReadRequest k | .rdmaWriteFirst k | .rdmaWriteMiddle k | .rdmaWriteLast k | .rdmaWriteOnly k | .cmpSwap k
  | .fetchAdd k | .unsupportedOpcode k | .cnpReceive k => k.wf
  | .lineDecode _ upsets path metaUpsets => Errors.wf upsets && Errors.wf path && Errors.wf metaUpsets
  | .orderingPointPass _ wordUpsets wordPath => Errors.wf wordUpsets && Errors.wf wordPath
  | .skimmerVisit _ upsets path => Errors.wf upsets && Errors.wf path
  | .cmReq m | .cmRtu m | .cmRejReceive m | .cmDreq m => m.wf
  | .recalDecision _ _ set => coeffsWf set
  | .handshakeTimeout a b => sourceAssigned a && sourceAssigned b
  | .pageInitComplete page | .pageRewriteComplete page | .pageMove _ page => decide (page < pageCount)
  | .thermalSample base layers => decide (base.length = 24) && decide (layers.length = 64)
  | .porNRise _ | .layerInitialisation _ | .factoryAreaCheck | .memoryFill | .planBankCheck | .planSelection
  | .serviceOpen | .wrstNFall _ | .channelSelfRefreshAck _ | .drainTimeout | .pwrOkFall _ _
  | .supplyOutOfWindow _ _ _ _ | .supplySequenceViolation _ _ | .refclkStopped | .refclkOffFrequency | .refclkRestored
  | .sectorEraseComplete | .pageProgramComplete | .quiesceDrainEnd _ | .snapshotExpiry _ | .bistBatch _ _ _ _
  | .bistEnd | .otpPulse _ _ _ _ _ | .chainLinkUp _ | .chainLinkDown _ | .chainLinkRetry _ | .chainFrameReject _ _
  | .hopResend _ | .headSelfEnumerate | .quietTurnOff _ | .keepalive _ | .wakeDetect _ | .falseWake _ | .beacon
  | .dataFrameReceive _ _ | .pfcPauseExpiry _ _ | .pfcWatchdog _ _ | .pfcXoffRepeat _ _ | .pfcXon _ _ _
  | .arpRequest _ _ | .neighbourSolicitation _ _ | .echoRequest _ _ | .slowPathToken | .rpAlphaDecay _ | .rpIncrease _
  | .burstOpportunity _ | .tagCheck _ | .writeHalf _ | .responseSend _ | .ackDeadline _
  | .disconnectComplete _ | .repTimeout _ | .qpErrorTimeout _ | .laneQualitySample _ _ | .laneSnrLow _
  | .fecThreshold _ | .portDown _ | .portJoinSet _ | .portRetrain _ | .recalStart | .recalRetry _ | .minuteBoundary
  | .eraseDrainComplete _ | .cryptoEraseComplete _ | .heldLeaseStart _ | .adoptionPrepared | .regionTableRewrite
  | .sectionReload _ | .keyDraw _ | .rekeySweepStep _ | .keyRetirement _ | .drbgReseed | .entropyFailure
  | .refreshInterval _ _ | .neighbourRefreshDeadline _ _ | .expressRowTimeout _ _ | .rowDisturbReseed _
  | .laneErrorWindow _ | .reliefCopyComplete _ | .calendarTurn _ | .latencyUpdate _ _ | .skimmerStep | .sramScrub _
  | .thresholdRelease _ | .retentionFloorUpdate | .sensorInvalid _ | .sensorsDeclaredFailed _ | .faultMessage
  | .churnFault _ _ | .heartbeat | .watchdogExpiry | .journalWrite | .railUp _ _ | .pwrOkRise
  | .porNFall _ | .supplyRemoval | .islandPllLock | .drainBegin | .stageCommitEnd | .blockLock _ | .partnerDriverOff _
  | .entropySample _ _ => true

end Sys2Proof
end

