-- ==== Sys2Proof/Decode.lean ====
section
/-! DEFINITION. The command that a word spells by the bits of spec/opcode_table.json. No row of that table has bits:
commands reach the block as frames, packets, pin edges and timer expiries, and none of them is a table word. -/

namespace Sys2Proof

/-- The command of a table word: none, since no row has bits. -/
def decodeTableWord (_nbits _w : Nat) : Option Instr := none

end Sys2Proof
end

