-- ==== Sys2Proof/Config.lean ====
section
/-! DEFINITION. What the implementation fixes and what the spec leaves open: free values, each an opaque constant
that nothing can evaluate. Values drawn afresh are applied to the counter `State.free` (notes/assumptions/1.md). -/

namespace Sys2Proof

/-- Local communication IDs, which the device chooses (R102). -/
opaque Config.draw : Nat → BitVec 64

/-- 512 bits that the entropy source gives to seed the DRBG (R132). -/
opaque Config.entropy : Nat → BitVec 512

/-- The cutoff of the repetition-count test: the spec gives its false-alarm probability and not the source's min-entropy (R132). -/
opaque Config.repetitionCutoff : Nat

/-- The cutoff of the adaptive-proportion test (R132). -/
opaque Config.proportionCutoff : Nat

/-- The 16 bits that a row-disturb generator gives for its seed and the number of the draw: the spec names no algorithm (R177). -/
opaque Config.sample : BitVec 64 → Nat → BitVec 16

/-- Whether a WRST_N pulse of 20 ns to 50 ns starts a warm reset (R51). -/
opaque Config.shortWrst : Nat → Bool

/-- Whether the end of the 2.0 µs of a drain finds the write of a journal or minute-record line under way (R53, R54). -/
opaque Config.writeCut : Nat → Bool

/-- Whether a POR_N pulse of the range that the spec leaves open is seen (spec/18, R391). -/
opaque Config.shortPor : Nat → Bool

/-- What the RS(72,64) decoder makes of a pattern beyond R208: nothing, or the changes by lane that turn the received word into a wrong
codeword (R208, R210). -/
opaque Config.rsBeyond : Nat → Option (List (Nat × Byte))

/-- Whether a word with 4 or more symbol errors whose data symbols are nearly all zero lies within 2 symbols of the
poison word, for a codeword other than the all-zero one: the spec gives no generator for its check symbols (R208, R210). -/
opaque Config.nearPoison : Nat → Bool

/-- The 7 check bits of an OTP word (R352): the spec names the code and not its matrix. -/
opaque Config.otpCheck : BitVec 32 → BitVec 7

/-- The mask revision of the base die and the ROM revision (R376). -/
opaque Config.siliconRevision : BitVec 8

/-- The ROM revision that ROM patch entries are matched against (R362, R376). -/
opaque Config.romRevision : BitVec 16

/-- The detail word of a RESPONSE where no rule gives its value: status 0x13 for a Length that does not match, status
0x14 of BIST_CONTROL and OTP_PROGRAM (R308, R311, R313). -/
opaque Config.statusDetail : Nat → BitVec 32

/-- The level of VDDIO in mV at the OTP's sample (R370). -/
opaque Config.vddio : Nat → BitVec 16

/-- Eye height and width that a chain receiver measures (R318). -/
opaque Config.eye : Nat → BitVec 8 × BitVec 8

/-- The rows next to a spare row (channel, bank, spare): the spec does not place the spare rows in a subarray (R178). -/
opaque Config.spareNeighbours : Nat → Nat → Nat → List (BitVec 15)

/-- The set of the metadata cache that a metadata line belongs to, modulo 16,384: the spec gives the ways and not the
index (R141). -/
opaque Config.metaSet : Nat → Nat

/-- The set of the page-word cache that a page-word line belongs to, modulo 6,144 (R141). -/
opaque Config.pageSet : Nat → Nat

end Sys2Proof
end

