-- ==== Sys2Proof/Machine/State.lean ====
section
/-! DEFINITION. The state of the HX-5516: plain data, grouped by the block that owns it (INVENTORY.md, "State",
lists every piece with its rule), the reasons a step can stop, and the state after reset. -/

namespace Sys2Proof.Machine

/-! ### Pins, supplies and the Tank -/

/-- The supply monitor's record of the rails (by rail-code bit) and the levels of the pins (R24, R28, R31, R36). WRST_N is low
until the microsecond `wrstUntil` of the interval clock (R33, R51); NV_RST_N is released at `nvReleaseUs` (R391). -/
structure Pins where
  started : Byte
  up : Byte
  coreUpAt : Option Nat
  pwrOk : Bool
  porN : Bool
  wrstUntil : Nat
  head : Bool
  nvReleaseUs : Nat
  refclkOk : Bool
  refclkHold : Bool
  powerFail : Bool
  pllLocked : Bool
  deriving DecidableEq, Repr

/-- Why a drain runs (R51, R53, R340). -/
inductive DrainCause where
  | wrst
  | command
  | stop
  deriving DecidableEq, Repr

/-- A drain in progress: its cause, the channels that have acknowledged self-refresh, whether the 2.0 µs have
passed, whether a stop fault arrived during it, and whether WRST_N fell during the entry of a stop (R53, R340). -/
structure Drain where
  cause : DrainCause
  acked : BitVec 64
  timedOut : Bool
  stopAfter : Bool
  wrstAfter : Bool
  deriving DecidableEq, Repr

/-- What the Tank holds: the start word's fields (R42), the latches (R343), device time (R114 to R116), the unit
address (R302), the watch over the core (R341) and the drain (R53); `tornMeta` are the lines whose metadata write a drain cut, `tornSystem` the physical lines of the
journal ring and the minute-record ring whose write it cut (R54). `stopLatch` and `lockLatch` are three copies. -/
structure Tank where
  phase : Byte
  haltReason : Byte
  anchored : Bool
  timeSource : Bool
  lastReset : BitVec 2
  unsync : Bool
  bistRestored : Bool
  bgResumed : Bool
  tornLines : Bool
  warmCount : Byte
  stopLatch : BitVec 3
  lockLatch : BitVec 3
  filled : Bool
  addr : BitVec 6
  addrFromBmc : Bool
  mismatch : Bool
  minute : BitVec 32
  usec : Nat
  holdUs : Nat
  held : Option (BitVec 32 × Nat)
  porUs : Nat
  clockUs : Nat
  boxTime : BitVec 32 × Nat
  roundMinute : BitVec 32
  coreRunning : Bool
  coreHeld : Bool
  heartbeatUs : Nat
  drain : Option Drain
  warmPending : Bool
  pendingWrites : List (Nat × Nat)
  torn : List (Nat × Nat)
  tornMeta : List Nat
  tornSystem : List Nat
  forcedMask : BitVec 64
  drainAt : BitVec 32 × Nat
  deriving DecidableEq, Repr

/-! ### Faults and journal -/

/-- A fault message (R331): source, kind, class (0 CE, 1 UC, 2 FT), severity (1 stop, 2 lock), address. `ownEntry` says that
its event has a journal entry of another type, and gets no type 0x60 entry (R322); `detail` is the detail of that entry (R323). -/
structure FaultMsg where
  source : BitVec 12
  kind : Byte
  cls : BitVec 2
  severity : BitVec 2
  addr : BitVec 36
  ownEntry : Bool
  detail : W64
  deriving DecidableEq, Repr

/-- A fault-log record (R345). -/
structure FaultRecord where
  msg : FaultMsg
  minute : BitVec 32
  usec : Nat
  number : BitVec 32
  phase : Byte
  valid : Bool
  journaled : Bool
  eventSent : Bool
  notAnchored : Bool
  unsync : Bool
  journalSeq : BitVec 64
  deriving DecidableEq, Repr

/-- The Churn: the sources' buffers in order of arrival (R335), the fault log (R344) and the black box (R379). -/
structure Churn where
  inbox : List FaultMsg
  stalled : List FaultMsg
  next : BitVec 32
  records : Table FaultRecord
  ucPending : Bool
  safe : BitVec 2
  ceCount : BitVec 32
  ucCount : BitVec 32
  ftCount : BitVec 32
  ceDropped : BitVec 32
  cause : BitVec 32
  causeMsg : Option FaultMsg
  causeMinute : BitVec 32
  causeUsec : Nat
  firstFt : Option FaultRecord
  recentCount : BitVec 32
  recent : Table FaultRecord
  lastRaised : Table Nat
  deriving DecidableEq, Repr

/-- A journal entry before and after it takes its sequence (R320). -/
structure JEntry where
  seq : Option (BitVec 64)
  minute : BitVec 32
  usec : Nat
  source : BitVec 12
  etype : Byte
  flags : Byte
  result : BitVec 32
  args : List Byte
  faultRecord : Option (BitVec 32)
  deriving DecidableEq, Repr

/-- The journal queue and the header of the journal window (R321, R326). -/
structure Journal where
  queue : List JEntry
  nextSeq : BitVec 64
  written : BitVec 64
  bootId : BitVec 64
  invalid : Nat
  lostBeforeFill : Nat
  deriving DecidableEq, Repr

/-! ### OTP, factory area, plans -/

/-- An OTP word as the margin read found it: data at the normal reference, and whether it is marginal (R353). -/
structure OtpRead where
  data : BitVec 32
  marginal : Bool
  deriving DecidableEq, Repr

/-- A ROM patch: the word index it matches; the word fetched in its place, or the index in the patch RAM that the core jumps to (R362). -/
structure RomPatch where
  addr : BitVec 16
  target : W32
  deriving DecidableEq, Repr

/-- The OTP controller (R351 to R357, R370): `read` as at the last start, `live` with what has been programmed since; the life-cycle
state in force (R348) and the hard repairs in use (R360); the number of patch entries in use, and the patches that act (R362). `advance` is the target of an advance in progress and the fuse words still to program. -/
structure Otp where
  cells : Table (BitVec 39)
  read : Table OtpRead
  live : Table OtpRead
  life : Byte
  op : BitVec 2
  result : Byte
  pulses : Nat
  word : Nat
  data : BitVec 32
  advance : Option (Byte × List Nat)
  advanceVerified : Bool
  vddio : Nat
  vprog : Nat
  repairs : List (BitVec 32)
  ignored : Nat
  patches : Nat
  replaces : List RomPatch
  jumps : List RomPatch
  fwVersion : BitVec 16
  deriving DecidableEq, Repr

/-- A thermal-model record (R237). -/
structure ThermRecord where
  kb : Nat
  ka : Nat
  kp : Nat
  k0 : Int
  tau : Nat
  tr : Int
  rr : Nat
  slope : Nat
  deriving DecidableEq, Repr

/-- The tables read from the factory area (R252). `laneDelays` are the codes written into the channel engines
and layers (R182). -/
structure Factory where
  checked : Bool
  laneDelays : List Byte
  therm : List ThermRecord
  serdes : List (List Byte)
  deriving DecidableEq, Repr

/-- An interface record of the plan (R263). -/
structure Iface where
  hasV4 : Bool
  hasV6 : Bool
  lossless : Byte
  vlan : BitVec 16
  mac : BitVec 48
  controlPrio : Nat
  controlDscp : Nat
  v4 : BitVec 32
  v6 : BitVec 128
  dscpMap : List Byte
  deriving DecidableEq, Repr

/-- A tenant record of the plan (R265). -/
structure TenantRec where
  index : Nat
  cls : Nat
  accessCount : Nat
  quota : Nat
  serviceId : W64
  accessFirst : Nat
  deriving DecidableEq, Repr

/-- A prefix entry of the plan (R265). -/
structure Prefix where
  family : Byte
  length : Nat
  addr : BitVec 128
  deriving DecidableEq, Repr

/-- A lease record of the plan (R266). -/
structure Lease where
  id : BitVec 32
  start : BitVec 32
  stop : BitVec 32
  flags : Byte
  cls : Nat
  deriving DecidableEq, Repr

/-- A region record of the plan with its leases (R266). -/
structure RegionRec where
  index : Nat
  tenant : Nat
  vbase : W64
  slab : Nat
  slabs : Nat
  leases : List Lease
  deriving DecidableEq, Repr

/-- A class record of the plan (R267). -/
structure ClassRec where
  inUse : Bool
  pfc : Nat
  dscp : Nat
  esc : Nat
  target : Nat
  cap : Nat
  minRate : Nat
  gain : Nat
  step : Nat
  period : Nat
  deriving DecidableEq, Repr

/-- A plan image resolved for this unit (R260 to R274). The raw bodies are kept where compatibility compares them
byte for byte (R284). -/
structure Plan where
  bank : Bank
  seq : BitVec 32
  adoptAt : BitVec 32
  idValue : W64
  idMask : W64
  epoch : W64
  autoStart : BitVec 32
  ifaces : List Iface
  modes : List (Nat × Nat)
  tenants : List TenantRec
  prefixes : List Prefix
  regions : List RegionRec
  classes : List ClassRec
  calMap : List Nat
  calendars : List (List Byte)
  escTables : List (BitVec 32)
  order : Nat
  k : Nat
  steering : List Nat
  band : Nat
  cuts : List (Nat × Nat)
  scrubHours : Nat
  log2N : Nat
  deltaT : Nat
  snrFloor : Nat
  chainFlags : Byte
  eventClasses : Byte
  eventLimit : Nat
  rawMap : List Byte
  rawIfaces : List Byte
  rawModes : List Byte
  deriving DecidableEq, Repr

/-- The state of one bank in the staging window header (R276). -/
structure BankState where
  state : BitVec 4
  reason : Byte
  seq : BitVec 32
  adoptAt : BitVec 32
  detail : BitVec 32
  deriving DecidableEq, Repr

/-- Plan banks, staging and adoption (R276 to R286): `forced` is a bank adopted in a halt (R281), `buffer` the plan that has
passed its preparation (R282), `tableWritten` an adoption has written the region table (R283), `reloadFailed` the entries whose reload failed (R286). -/
structure Plans where
  bankA : BankState
  bankB : BankState
  target : Option Bank
  operation : BitVec 2
  prepared : Bool
  preparing : Option Bank
  lastResult : Byte
  declared : Nat
  erased : Nat
  written : Nat
  progBuf : List Byte
  progAt : Nat
  inForce : Option Bank
  plan : Option Plan
  buffer : Option Plan
  rewritePending : Bool
  tableWritten : Bool
  reloadFailed : NatSet
  forced : Option Bank
  deriving DecidableEq, Repr

/-! ### Chain -/

/-- A frame a chain port keeps until its hop acknowledgement arrives, and how often it has been sent (R299). -/
structure Awaiting where
  frame : ChainFrame
  sends : Nat
  deriving DecidableEq, Repr

/-- The receiver of a chain port (R291). -/
inductive RxState where
  | continuous
  | listening
  | acquiring
  | locked
  deriving DecidableEq, Repr

/-- One chain port (R288 to R300, R318). `recent` holds type, source, sequence and time of acknowledged frames. -/
structure CPort where
  up : Bool
  partnerUnit : Bool
  quiet : Bool
  driverOn : Bool
  broken : Bool
  rx : RxState
  eyeHeight : Byte
  eyeWidth : Byte
  queue : List ChainFrame
  awaiting : List Awaiting
  recent : List ((Nat × Nat × Nat) × Nat)
  retryUs : Nat
  deriving DecidableEq, Repr

/-- The chain object's header state, the repeat cache and the unit's own sequence counter (R309, R313, R314, R318). -/
structure Chain where
  chu : CPort
  chd : CPort
  challenge : BitVec 128
  cache : List (BitVec 16 × ChainFrame × Nat)
  ownSeq : BitVec 16
  eventSecond : Nat
  eventCount : Nat
  selfEnumDone : Bool
  heardEnum : Bool
  deriving DecidableEq, Repr

/-- The five selectors (R375). -/
structure Selectors where
  minuteBlock : BitVec 5
  journalBlock : BitVec 4
  qpBlock : BitVec 2
  channel : BitVec 6
  remapChannel : BitVec 6
  deriving DecidableEq, Repr

/-! ### Data ports -/

/-- The tag result held beside a staged line or a packet (R144). -/
inductive TagState where
  | pending
  | pass
  | fail
  deriving DecidableEq, Repr

/-- The tag result of one line that a response packet carries, held beside the packet (R144): the request that read it, by QP, PSN and
serial number, its DMA, and the result. -/
structure TagResult where
  qpn : BitVec 24
  psn : BitVec 24
  serial : Nat
  dma : Nat
  tag : TagState
  deriving DecidableEq, Repr

/-- A RoCEv2 packet sent on an established QP (R83, R95, R96), with the tag results of its lines while it waits (R144) and the tenant it is
counted for (R125). -/
structure RdmaTx where
  tenant : Nat
  opcode : Byte
  dqp : BitVec 24
  psn : BitVec 24
  syndrome : Option Byte
  msn : BitVec 24
  payload : List Byte
  orig : Option W64
  fcsOk : Bool
  tags : List TagResult
  ip : Ip
  mac : BitVec 48
  srcPort : W16
  flow : BitVec 20
  prio : Nat
  dscp : Nat
  deriving DecidableEq, Repr

/-- The fields that a REP carries beside its IDs, QPN and private data (R102). -/
structure RepFields where
  startPsn : BitVec 24
  responderResources : Byte
  initiatorDepth : Byte
  ackDelay : Byte
  failover : BitVec 2
  flowControl : Bool
  rnrRetry : BitVec 3
  srq : Bool
  deriving DecidableEq, Repr

/-- A connection-management MAD sent (R100 to R104): attribute, REJ reason, IDs, QPN, what only a REP has, and private data. -/
structure MadTx where
  attr : W16
  reason : W16
  localComm : W32
  remoteComm : W32
  qpn : BitVec 24
  ip : Ip
  mac : BitVec 48
  udp : W16
  dqp : BitVec 24
  rep : Option RepFields
  priv : List Byte
  deriving DecidableEq, Repr

/-- What a frame sent on a data port carries. -/
inductive TxFrame where
  | rdma (t : RdmaTx)
  | cnp (dqp : BitVec 24) (ip : Ip) (mac : BitVec 48)
  | mad (m : MadTx)
  | arpReply (mac : BitVec 48) (ip : Ip)
  | gratuitousArp (ip : BitVec 32)
  | advertisement (mac : BitVec 48) (ip : Ip) (target : Ip)
  | unsolicitedAdvertisement (ip : BitVec 128)
  | echoReply (mac : BitVec 48) (ip : Ip) (body : List Byte)
  | pfc (prio : Nat) (quanta : BitVec 16)
  | stomped (f : TxFrame)
  deriving DecidableEq, Repr

/-- The IP header fields that R70, R71 and R73 fix: DSCP, ECN, and TTL or hop limit. -/
structure IpHead where
  dscp : Nat
  ecn : BitVec 2
  ttl : Byte
  deriving DecidableEq, Repr

/-- The BTH fields that R84 fixes: transport version, P_Key and the migration-request bit. -/
structure BthHead where
  version : BitVec 4
  pkey : W16
  migration : Bool
  deriving DecidableEq, Repr

/-- A frame as it leaves a port (R63): the interface's MAC address as source, its 802.1Q tag, the IP and BTH fields of those that have
them, and what it carries. -/
structure Sent where
  smac : BitVec 48
  tag : Option W16
  ip : Option IpHead
  bth : Option BthHead
  frame : TxFrame
  deriving DecidableEq, Repr

/-- A lane's receiver and its record (R81). Coefficient sets are 28 bytes, laid out as 0x0C to 0x27. `snrDue` says that the present set
came from training and that the next measurement is its SNR at calibration. -/
structure Lane where
  signal : Bool
  locked : Bool
  marginal : Bool
  calibrating : Bool
  failures : Byte
  margin : Byte
  snr : W16
  snrCal : W16
  refTemp : Int
  coeffs : List Byte
  rollback : List Byte
  accepted : List Byte
  attempts : BitVec 32
  lastMinute : BitVec 32
  retryDue : Option Nat
  lowRaised : Bool
  snrDue : Bool
  okSince : Option Nat
  deriving DecidableEq, Repr

/-- A data port (R59 to R76, R81): `queue` holds frames waiting behind a paused priority; `use` the shared-pool use
per priority; `trained` that its link training has come to an outcome since it began. -/
structure Port where
  present : Bool
  up : Bool
  heldOut : Bool
  quiesced : Bool
  draining : Bool
  mode : BitVec 4
  paused : Byte
  pausing : Byte
  discarding : Byte
  lossless : Byte
  queue : List (Nat × TxFrame)
  use : Table Nat
  trained : Bool
  training : Bool
  everDown : Bool
  fec13 : Option Nat
  deriving DecidableEq, Repr

/-- Recalibration: lanes queued by kind 0x10, lanes queued otherwise, and the lane under way (R77, R78). -/
structure Recal where
  urgent : List Nat
  queue : List Nat
  active : Option Nat
  deriving DecidableEq, Repr

/-- The slow path: policer tokens, the frames in the reserves as quad and length (R68), echo replies per interface in the running second
(R73). -/
structure Slow where
  tokens : Nat
  reserve : List (Nat × Nat)
  echoSecond : Nat
  echoCount : Table Nat
  deriving DecidableEq, Repr

/-! ### Queue pairs -/

/-- The state of a QP context (R88). -/
inductive QpState where
  | free
  | connecting
  | established
  | error
  | disconnecting
  deriving DecidableEq, Repr

/-- An atomic replay ring entry (R89). -/
structure RingEntry where
  psn : BitVec 24
  fetchAdd : Bool
  orig : W64
  deriving DecidableEq, Repr

/-- A line in read staging: its DMA, the payload bytes it gives, its tag result, and the class and key slot of its label (R190). -/
structure Staged where
  dma : Nat
  data : List Byte
  tag : TagState
  cls : Nat
  slot : Nat
  deriving DecidableEq, Repr

/-- What a request of a QP is, in the QP's response order (R95). -/
inductive OpKind where
  | read
  | atomic
  | write
  | nak
  deriving DecidableEq, Repr

/-- A request accepted and not yet fully answered, or a NAK waiting its turn (R95, R96); `serial` tells a request from a duplicate of the
same PSN. For a READ: first PSN,
response packets, packets sent, DMA and length, lines staged, the packet at which it failed. For an atomic: its
result. For a write packet: lines not yet done and not yet past their ordering points, when it became done, whether it waited for
its page. -/
structure QpOp where
  kind : OpKind
  psn : BitVec 24
  serial : Nat
  npkts : Nat
  sent : Nat
  dma : Nat
  len : Nat
  spec : Bool
  staged : List Staged
  badPkt : Option Nat
  result : Option W64
  fetchAdd : Bool
  linesLeft : Nat
  toPass : Nat
  doneAt : Nat
  waited : Bool
  lastOfMsg : Bool
  syndrome : Byte
  dup : Bool
  deriving DecidableEq, Repr

/-- A QP context (R88, R89), with the requests in progress and what connection management keeps (R102, R103). `donePsn`
is the PSN of the latest write packet before which every packet is done, `ackSince` when the oldest of those not acknowledged became
done, `ackNew` that one of them is no duplicate (R94, R95); `doneSince` counts the write packets done since the last ACK or response,
`ackDue` says that the next ACK falls due at once (R95); `serial` numbers its requests. -/
structure Qp where
  state : QpState
  tenant : Nat
  cls : Nat
  iface : Nat
  mtu : BitVec 3
  seqNak : Bool
  writeOpen : Bool
  remoteQpn : BitVec 24
  epsn : BitVec 24
  msn : BitVec 24
  outstanding : Nat
  unacked : Nat
  ackPsn : BitVec 24
  donePsn : BitVec 24
  oldestPsn : BitVec 24
  ackDeadline : W16
  ackSince : Nat
  ackNew : Bool
  doneSince : Nat
  ackDue : Bool
  serial : Nat
  remote : Ip
  nextHop : BitVec 48
  flow : BitVec 20
  writeRkey : W32
  writeRemaining : Nat
  writeDma : Nat
  localComm : W32
  remoteComm : W32
  rate : Nat
  target : Nat
  alpha : BitVec 10
  stage : Byte
  lastCnpSent : W32
  lastCnpActed : W32
  cnpSentAt : Option Nat
  cnpActedAt : Option Nat
  ring : List RingEntry
  ops : List QpOp
  repSends : Nat
  reqUdp : W16
  reqQp : BitVec 24
  reqPort : Nat
  ordinal : Nat
  wasEstablished : Bool
  outOfUse : Bool
  deriving DecidableEq, Repr

/-- A write packet or atomic that its QP has dropped, in error or freed, while lines of it may still take effect: its counters go to the
tenant (R96, R104, R125). -/
structure Orphan where
  qpn : BitVec 24
  tenant : Nat
  op : QpOp
  deriving DecidableEq, Repr

/-! ### Requests on the memory path -/

/-- A visit to a physical line: its DMA when it is a tenant data line (R220, R222), and the channel cycle at which it came (R12). -/
structure Visit where
  line : Nat
  dma : Option Nat
  since : Nat
  deriving DecidableEq, Repr

/-- The kind of a line request (R97, R99), and of the device's own work on the separate input (R12, R166): a Skimmer visit; a line that a
page rewrite or move carries, or that an initialisation writes; the page words of a line under erase; a line of a unit under copy. -/
inductive ReqKind where
  | read
  | fullWrite
  | partWrite
  | cmpSwap
  | fetchAdd
  | visit
  | carry
  | zero
  | erase
  | copy
  deriving DecidableEq, Repr

/-- One line request with its label (R190): QP, PSN of its packet, line DMA, bytes covered, data, operands, class,
key slot and region it was admitted with, mode, port (for ties), the priority of the frame that brought it (R69), and the channel cycle at which it entered its
class queue (R166). A visit has class 16, the system input, and no other label. -/
structure LineReq where
  kind : ReqKind
  qpn : BitVec 24
  psn : BitVec 24
  serial : Nat
  port : Nat
  prio : Nat
  dma : Nat
  off : Nat
  len : Nat
  data : List Byte
  compare : W64
  swapAdd : W64
  cls : Nat
  slot : Nat
  region : Nat
  spec : Bool
  enq : Nat
  target : Option Visit
  deriving DecidableEq, Repr

/-- A bank-queue entry: the request, the cycle it entered, and whether its metadata column command has been
issued (R166, R171). -/
structure BankEntry where
  req : LineReq
  since : Nat
  metaIssued : Bool
  deriving DecidableEq, Repr

/-- A data burst on its way to the decoder (R171, R209): its request, whether its metadata line was read with it, the word as its
column command found it, and the metadata entry, key slot and major counter that belong to that word. -/
structure Burst where
  req : LineReq
  withMeta : Bool
  data : List Byte
  poisoned : Bool
  errors : List (Nat × Byte)
  minor : Nat
  tag : BitVec 56
  slot : Nat
  major : Nat
  deriving DecidableEq, Repr

/-- A line in the crypto lane: its request, corrected ciphertext, counters, stored tag and key slot (R142); `late` says that its packet's
FCS has begun without its tag result (R144). -/
structure CryptoEntry where
  req : LineReq
  ct : List Byte
  minor : Nat
  major : Nat
  tag : BitVec 56
  slot : Nat
  channel : Nat
  late : Bool
  deriving DecidableEq, Repr

/-- A verified read half waiting for its write half: the request and the plaintext line (R171). -/
structure HalfEntry where
  req : LineReq
  plain : List Byte
  deriving DecidableEq, Repr

/-- A neighbour-queue entry: the row, and whether its deadline has passed (R179). -/
structure Neighbour where
  row : Nat
  forced : Bool
  deriving DecidableEq, Repr

/-- One DRAM bank: open row, the cycles from which an activate, a column command and a precharge are legal (R173),
refresh debt and pointer (R174, R175), neighbour queue (R179), the reservation of a read-modify-write (R171). -/
structure DBank where
  openRow : Option Nat
  actOk : Nat
  colOk : Nat
  preOk : Nat
  lastUse : Nat
  owed : Int
  refPtr : Nat
  forcedRefresh : Nat
  forcedNeighbour : Nat
  neighbours : List Neighbour
  reserved : Bool
  deriving DecidableEq, Repr

/-- Column commands of an entry that must follow in the next opportunities (R171): how many are left. -/
structure SecondCol where
  bank : Nat
  entry : BankEntry
  left : Nat
  deriving DecidableEq, Repr

/-- One channel engine (R166 to R187). `colBusy` are the coming opportunities whose column commands a write half has taken
(R171); `turned` says that the changes due at the present slot 0 have been made (R205). -/
structure Chan where
  opp : Nat
  bankPtr : Nat
  clsPtr : Nat
  acts : List (Nat × Nat)
  lastRead : Option Nat
  writeEnd : Option Nat
  second : Option SecondCol
  colBusy : Nat
  turned : Bool
  sampleSeed : BitVec 64
  sampleDraws : Nat
  windowBursts : Nat
  laneErrors : Table Nat
  uncRun : List Nat
  selfRefresh : Bool
  initialised : Bool
  failedLanes : NatSet
  spares : List (Nat × Nat)
  badSpares : NatSet
  visits : List Visit
  early : List Visit
  activates : Nat
  refreshes : Nat
  deriving DecidableEq, Repr

/-- The Parlour on one channel: the calendar in force (empty: every slot system, R194), cuts applied by position in
the order, throttle step and band in force (R202 to R206); a cut as position, class, keep. An empty `planCal` marks a newly adopted plan whose calendar
is due at the next slot 0; `prior` are the cuts in force at the last warm reset. `frozen` holds, for a retired channel, measured latency, level,
outstanding and queued of each class, and `declared` the plan's declared band, as they stood at retirement (R206). -/
structure Parlour where
  cal : List Byte
  planCal : List Byte
  cuts : List (Nat × Nat × Nat)
  prior : List Nat
  exhausted : Bool
  step : Nat
  band : Nat
  frozen : List (Nat × Nat × Nat × Nat)
  declared : Nat
  deriving DecidableEq, Repr

/-- A class on a channel: outstanding count (R193), measured latency, the samples taken since its last update in thirds of a ns
(R197, R198), level. -/
structure ClsCh where
  outstanding : Nat
  e : Nat
  window : List Nat
  level : Nat
  deriving DecidableEq, Repr

/-! ### Tenants, regions, keys, the Separator -/

/-- Where an erase stands (R122). -/
inductive EraseStage where
  | none
  | draining
  | erasing
  deriving DecidableEq, Repr

/-- A region entry (R111) with the erase under way (R122): cause 0 plan, 1 revoke, 2 reload failure. `revokeId` is the
lease that an accepted revoke names (R124). -/
structure Region where
  inUse : Bool
  active : Bool
  revoked : Bool
  rekeying : Bool
  erasePending : Bool
  spec : Bool
  atomicOk : Bool
  writeOk : Bool
  readOk : Bool
  cls : Nat
  tenant : Nat
  gen : BitVec 15
  vbase : W64
  slab : Nat
  slabs : Nat
  leaseStart : BitVec 32
  leaseEnd : BitVec 32
  curSlot : Nat
  nextSlot : Nat
  nextValid : Bool
  curBit : Bool
  leaseId : BitVec 32
  revokeMinute : BitVec 32
  foEnd : BitVec 32
  foId : BitVec 32
  pagesRemaining : Nat
  erase : EraseStage
  eraseCause : Byte
  eraseFrom : Nat
  endMinute : BitVec 32
  revokeId : BitVec 32
  deriving DecidableEq, Repr

/-- What a lease-state record of the system rows holds (R112); `byFollowOn` says that its revoke names the follow-on lease. -/
structure LeaseRec where
  active : Bool
  revoked : Bool
  gen : BitVec 15
  curSlot : Nat
  nextSlot : Nat
  nextValid : Bool
  curBit : Bool
  byFollowOn : Bool
  leaseId : BitVec 32
  revokeMinute : BitVec 32
  deriving DecidableEq, Repr

/-- The state of a key slot (R131). -/
inductive SlotState where
  | free
  | current
  | next
  | retiring
  deriving DecidableEq, Repr

/-- A key slot (R131). -/
structure KeySlot where
  key : BitVec 256
  hash : BitVec 128
  state : SlotState
  region : Nat
  deriving DecidableEq, Repr

/-- The CTR_DRBG (R132): its working state, requests and time since the last seed. The entropy source: whether a good sample is
available and since when, the sample that the repetition-count test follows with its run, and the sample that the
adaptive-proportion test counts with its count and the samples left of its window. -/
structure Drbg where
  instantiated : Bool
  key : BitVec 256
  v : BitVec 128
  requests : Nat
  reseedUs : Nat
  entropyOk : Bool
  lastGoodUs : Nat
  repeated : Option (Byte × Nat)
  proportion : Option (Byte × Nat × Nat)
  deriving DecidableEq, Repr

/-- A page initialisation in progress with the lines written so far and the writes it holds, the first being its trigger (R139). -/
structure PageInit where
  page : Nat
  done : BitVec 64
  heldReqs : List LineReq
  deriving DecidableEq, Repr

/-- A page rewrite in progress, or with `move` the move of a page to the next key: page, old major counter, moved mask, and the writes that
wait for its end (R146, R150). A reset loses the mask: with `recover` set, a line's key and major counter are told by its tag (R147, R152). -/
structure Rewrite where
  page : Nat
  region : Nat
  major : Nat
  moved : BitVec 64
  move : Bool
  recover : Bool
  heldReqs : List LineReq
  deriving DecidableEq, Repr

/-- The states of a re-key (R149). -/
inductive RekeyState where
  | draw
  | move
  | flush
  | swap
  deriving DecidableEq, Repr

/-- A region re-key (R148 to R152): `lost` are pages whose page word was lost, moved first and as poison; `again` are moved pages
that have exhausted under the next key, for which the next re-key starts (R152). -/
structure Rekey where
  region : Nat
  state : RekeyState
  exhausted : List Nat
  lost : List Nat
  again : List Nat
  sweep : Nat
  moved : Nat
  startUs : Nat
  oldSlot : Nat
  newSlot : Nat
  deriving DecidableEq, Repr

/-- The Separator's work (R139, R146 to R152). `waiting` are writes held for the move of an exhausted page, `due` the pages, with
their regions, whose rewrite a lost metadata line calls for and that wait for room or for the rewrite in progress. -/
structure Separator where
  inits : List PageInit
  rewrites : List Rewrite
  rekeys : List Rekey
  waiting : List LineReq
  due : List (Nat × Nat)
  deriving DecidableEq, Repr

/-- A retirement in progress: page, all its units (channel, unit), those still to copy with their spare entries, counts, mask
(R227). -/
structure Retirement where
  page : Nat
  all : List (Nat × Nat)
  units : List (Nat × Nat × Nat)
  placed : Nat
  skipped : Nat
  mask : BitVec 64
  deriving DecidableEq, Repr

/-- An entry of a channel's remap directory and of the page remap table (R231). -/
structure Remap where
  valid : Bool
  committed : Bool
  bad : Bool
  page : Nat
  unit : Nat
  copied : Nat
  deriving DecidableEq, Repr

/-! ### Stored data integrity, heat, BIST, counters -/

/-- A CE log entry (R217). -/
structure CeEntry where
  addr : BitVec 36
  syndrome : Nat
  source : Nat
  repeated : Bool
  retired : Bool
  count : Nat
  lanes : List Nat
  firstMinute : BitVec 32
  firstUs : Nat
  lastMinute : BitVec 32
  lastUs : Nat
  lastPass : Nat
  patrolPasses : List Nat
  deriving DecidableEq, Repr

/-- The Skimmer's walk and the never-cleared counters of the CE log header (R219 to R221): `position` is the step, `dmaLine`
the next tenant line, `metaDue` says that the metadata line after the last one comes first (R220). -/
structure Skim where
  passCount : Nat
  position : Nat
  dmaLine : Nat
  metaDue : Bool
  passStart : BitVec 32
  lastPassEnd : BitVec 32
  behind : Nat
  linesPoisoned : Nat
  running : Bool
  deriving DecidableEq, Repr

/-- A layer's thermal state (R235 to R245). Temperatures in 0.1 °C; the model estimate is exact. -/
structure Layer where
  readings : List Int
  valid : BitVec 4
  model : Option Rat
  floor : Option Int
  effective : Int
  figure : Option Int
  band : Nat
  step : Nat
  activity : Nat
  visits : Nat
  retAt : List Nat
  disagree : Bool
  disagreeMs : Nat
  okMs : Nat
  failed : Bool
  peak : Option Int
  deriving DecidableEq, Repr

/-- The thermal controller (R234 to R247): `shutdown` while the safe state in force was entered through kind 0x22 (R242), `recheck` from a kind
0x22 taken until the check of the next warm start has been passed (R246). -/
structure Thermal where
  layers : Table Layer
  base : List Int
  baseInvalid : BitVec 24
  baseFigure : Int
  baseSensor : Nat
  baseState : Nat
  shutdown : Bool
  recheck : Bool
  shutdownMask : BitVec 17
  refreshFloor : Table Nat
  deriving DecidableEq, Repr

/-- The phase of a BIST batch (R366). -/
inductive BistPhase where
  | saving
  | testing
  | restoring
  deriving DecidableEq, Repr

/-- A BIST marker of a channel (R366): `form` 0 list, 1 system run, 2 tenant run; rows as (bank, physical row). -/
structure Marker where
  form : Nat
  phase : BistPhase
  count : Nat
  rows : List (Nat × Nat)
  deriving DecidableEq, Repr

/-- One channel's BIST record and its soft repairs (R361, R371): `step` counts the rows that the running test has passed. -/
structure BistCh where
  marker : Option Marker
  softRows : List (Nat × Nat × Nat)
  softCols : List (Nat × Nat × Nat × Nat)
  sweep : Nat
  step : Nat
  failures : Nat
  done : Bool
  deriving DecidableEq, Repr

/-- The BIST engine (R363 to R371): `testFailures` and `testRepaired` count for the running test alone. -/
structure Bist where
  state : BitVec 2
  test : Byte
  result : Byte
  started : BitVec 32
  mask : BitVec 64
  rows : Nat
  failures : Nat
  repaired : Nat
  unrepairable : Nat
  testFailures : Nat
  testRepaired : Nat
  chans : Table BistCh
  deriving DecidableEq, Repr

/-- The counters that SNAPSHOT takes and clears, one table per group (R312). Keys: tenant × 32 + n (R125); tenant;
port × 32 + index (R81); class and channel counters (R206); channel counters, SRAM counters, Overflow, early-scrub
drops (R216, R219); chain counters (R318). -/
structure Counters where
  tenant : Table Nat
  lastClear : Table Nat
  port : Table Nat
  cls : Table Nat
  chan : Table Nat
  ce : List (Option CeEntry)
  chain : Table Nat
  deriving DecidableEq, Repr

/-- A snapshot view (R312, R381): its group, tenant range, the interval time it ends, and the copied counters. -/
structure View where
  group : Nat
  first : Nat
  count : Nat
  untilUs : Nat
  c : Counters
  deriving DecidableEq, Repr

/-- The never-cleared counters of the status object (R377), and the count of refused JTAG memory accesses (R154), which no row of
the table raises. -/
structure Stats where
  keyCorrected : Nat
  lateAlarms : Nat
  entropyDiscards : Nat
  pageRewrites : Nat
  pageInits : Nat
  authBlocked : Nat
  deriving DecidableEq, Repr

/-- A run of 65,535 minutes closed within one longer span (R129): its last minute, slab-minutes by tenant, tenants that held
a lease, tenants with a lease ended by revoke. -/
structure RecordRun where
  minute : Nat
  slabs : Table Nat
  leased : NatSet
  ended : NatSet
  deriving DecidableEq, Repr

/-- The minute-record ring's header and the accumulators (R126 to R129). Accumulator keys: tenant × 16 + field. `leased` are the tenants with an
active lease in the open minute, `closedLeased` in the minutes closed since the last records. `openMinute` is
the first minute that no record covers yet, `revokedLeases` the lease IDs that a revoke has ended or kept from beginning,
`laterRevokes` the revokes held when a plan was adopted, as lease ID and minute: they hold against every later plan (R124). -/
structure Records where
  next : BitVec 32
  oldest : BitVec 32
  lastMinute : BitVec 32
  first : BitVec 32
  count : Nat
  live : Table Nat
  old : Table Nat
  leased : NatSet
  revokeEnded : NatSet
  closedLeased : NatSet
  openMinute : Nat
  runs : List RecordRun
  revokedLeases : NatSet
  laterRevokes : List (Nat × Nat)
  deriving DecidableEq, Repr

/-- The DRAM array: data symbols by physical line × 64 + byte, lines that hold the poison word, and the symbol
errors standing in the cells by physical line × 72 + lane (R155, R156, R208, R210). `waits` are writes of the
system input that wait for rows under test: line, byte offset, bytes (R367). -/
structure Dram where
  data : List Host.Cell
  poison : NatSet
  upsets : List Host.Cell
  waits : List (Nat × Nat × List Byte)
  deriving DecidableEq, Repr

/-- The SRAM-held queues and pipes of the memory path: class queues by channel × 16 + class (R192), bank queues by
channel × 32 + bank (R166), requests waiting in packet buffers (R192), bursts arrived, lines in the crypto lane and
read halves waiting, Skimmer visits whose burst has arrived, each by channel; line locks (R13) by DMA or physical line
(`lockKey`); the key IDs in the round-key cache of each crypto lane, newest first (R133). -/
structure Path where
  classQ : Table (List LineReq)
  bankQ : Table (List BankEntry)
  backlog : List LineReq
  inFlight : Table (List Burst)
  inCrypto : Table (List CryptoEntry)
  halves : Table (List HalfEntry)
  served : Table (List LineReq)
  locks : NatSet
  orphans : List Orphan
  roundKeys : Table (List Nat)
  deriving DecidableEq, Repr

/-- A frame that has left a chain port: what it carries, and its bytes on the wire (R292). -/
structure ChainSent where
  port : ChainPort
  frame : ChainFrame
  wire : List Byte
  deriving DecidableEq, Repr

/-- The whole state of the block. `held` are the regions whose lease start waits, with whether it waits for an erase
(R121, R123). `pending` is the command queue, `free` the counter free values are drawn with
(notes/assumptions/1.md), `misread` the lines that the counter-and-tag cache holds otherwise than the array, where the decoder took another
codeword: line, its number in the cache, the bytes (R141, R208, R215), `dataSent` and `chainSent` what has left the ports, newest first. -/
structure State where
  pending : List Instr
  free : Nat
  pins : Pins
  tank : Tank
  churn : Churn
  journal : Journal
  otp : Otp
  factory : Factory
  flash : List Host.Cell
  plans : Plans
  chain : Chain
  sel : Selectors
  ports : Table Port
  lanes : Table Lane
  recal : Recal
  slow : Slow
  qps : Table Qp
  qpnPtr : BitVec 24
  qpnFreed : List (Nat × Nat)
  trackers : Table Nat
  regions : Table Region
  genDrawn : NatSet
  held : List (Nat × Bool)
  records : Records
  keys : Table KeySlot
  drbg : Drbg
  metaCache : NatSet
  pageCache : NatSet
  misread : List (Nat × Nat × List Byte)
  sep : Separator
  dram : Dram
  path : Path
  chans : Table Chan
  banks : Table DBank
  retired : BitVec 64
  retiring : NatSet
  relief : List (Nat × Nat)
  parlour : Table Parlour
  clsCh : Table ClsCh
  skim : Skim
  remap : Table Remap
  retirements : List Retirement
  thermal : Thermal
  bist : Bist
  ctr : Counters
  views : List View
  stats : Stats
  dataSent : List (Nat × Sent)
  chainSent : List ChainSent
  deriving DecidableEq, Repr

/-- The reasons a step can stop with a fault. -/
inductive Fault where
  /-- Raised by commands that name a page, line, unit or item that the device does not have (addresses outside
  0 to 0xD_C7FF_FFFF, units above 225,791). Safe: the device has no such object, so no run of it is lost. -/
  | noSuchObject
  deriving DecidableEq, Repr

/-- The reasons a step can be refused. -/
inductive Refusal where
  /-- Raised by an arm of `exec` whose command has no meaning yet. Safe: nothing is claimed of it. -/
  | notModelled (mnemonic : String)
  deriving DecidableEq, Repr

/-! ### The state after reset -/

/-- A chain port that is down (R318 reset values). -/
def CPort.reset : CPort :=
  { up := false, partnerUnit := false, quiet := false, driverOn := false, broken := false, rx := .continuous,
    eyeHeight := 0, eyeWidth := 0, queue := [], awaiting := [], recent := [], retryUs := 0 }

/-- A bank's header state at reset (R276). -/
def BankState.reset : BankState := { state := 0, reason := 0, seq := 0, adoptAt := 0, detail := 0 }

/-- All counters at zero (R57, cold start). -/
def Counters.zero : Counters :=
  { tenant := [], lastClear := [], port := [], cls := [], chan := [], ce := [], chain := [] }

/-- The Tank with every field at its reset value (R42, R44, R302, R377). -/
def Tank.reset : Tank :=
  { phase := 0x01, haltReason := 0, anchored := false, timeSource := false, lastReset := 0, unsync := false,
    bistRestored := false, bgResumed := false, tornLines := false, warmCount := 0, stopLatch := 0, lockLatch := 0,
    filled := false, addr := 0, addrFromBmc := false, mismatch := false, minute := 0, usec := 0, holdUs := 0,
    held := none, porUs := 0, clockUs := 0, boxTime := (0, 0), roundMinute := 0, coreRunning := false, coreHeld := false,
    heartbeatUs := 0, drain := none, warmPending := false, pendingWrites := [], torn := [], tornMeta := [], tornSystem := [], forcedMask := 0,
    drainAt := (0, 0) }

/-- The Churn emptied, as a cold start leaves it (R344, R379). -/
def Churn.reset : Churn :=
  { inbox := [], stalled := [], next := 0, records := [], ucPending := false, safe := 0, ceCount := 0, ucCount := 0,
    ftCount := 0, ceDropped := 0, cause := 0xFFFFFFFF, causeMsg := none, causeMinute := 0, causeUsec := 0,
    firstFt := none, recentCount := 0, recent := [], lastRaised := [] }

/-- The journal emptied (R326). -/
def Journal.reset : Journal :=
  { queue := [], nextSeq := 0, written := 0, bootId := 0, invalid := 0, lostBeforeFill := 0 }

/-- The OTP controller before the first margin read, over an array of unprogrammed words (R352, R370). -/
def Otp.reset : Otp :=
  { cells := [], read := [], live := [], life := 0, op := 0, result := 0, pulses := 0, word := 0, data := 0, advance := none,
    advanceVerified := false, vddio := 0, vprog := 0, repairs := [], ignored := 0, patches := 0, replaces := [], jumps := [], fwVersion := 0 }

/-- Staging and adoption state at reset (R276). -/
def Plans.reset : Plans :=
  { bankA := .reset, bankB := .reset, target := none, operation := 0, prepared := false, preparing := none,
    lastResult := 0, declared := 0, erased := 0, written := 0, progBuf := [], progAt := 0, inForce := none,
    plan := none, buffer := none, rewritePending := false, tableWritten := false, reloadFailed := [], forced := none }

/-- The chain object at reset (R318). -/
def Chain.reset : Chain :=
  { chu := .reset, chd := .reset, challenge := 0, cache := [], ownSeq := 0, eventSecond := 0, eventCount := 0,
    selfEnumDone := false, heardEnum := false }

/-- The thermal controller before its first sample (R247 reset values). -/
def Thermal.reset : Thermal :=
  { layers := [], base := List.replicate 24 0, baseInvalid := 0, baseFigure := 0, baseSensor := 0, baseState := 0,
    shutdown := false, recheck := false, shutdownMask := 0, refreshFloor := [] }

/-- BIST idle (R371). -/
def Bist.reset : Bist :=
  { state := 0, test := 0, result := 0, started := 0, mask := 0, rows := 0, failures := 0, repaired := 0,
    unrepairable := 0, testFailures := 0, testRepaired := 0, chans := [] }

/-- The minute-record header at reset (R128). -/
def Records.reset : Records :=
  { next := 0, oldest := 0, lastMinute := 0xFFFFFFFF, first := 0, count := 0, live := [], old := [], leased := [],
    revokeEnded := [], closedLeased := [], openMinute := 0, runs := [], revokedLeases := [], laterRevokes := [] }

/-- The Skimmer at reset (R219). -/
def Skim.reset : Skim :=
  { passCount := 0, position := 0, dmaLine := 0, metaDue := false, passStart := 0, lastPassEnd := 0xFFFFFFFF, behind := 0, linesPoisoned := 0,
    running := false }

/-- Nothing queued on the memory path. -/
def Path.empty : Path :=
  { classQ := [], bankQ := [], backlog := [], inFlight := [], inCrypto := [], halves := [], served := [], locks := [], orphans := [], roundKeys := [] }

/-- The values that unlisted entries of the tables read as: every field at its reset value. -/
def Port.zero : Port :=
  { present := false, up := false, heldOut := false, quiesced := false, draining := false, mode := 0, paused := 0,
    pausing := 0, discarding := 0, lossless := 0, queue := [], use := [], trained := false, training := false,
    everDown := false, fec13 := none }

/-- A lane record at reset (R81). -/
def Lane.zero : Lane :=
  { signal := false, locked := false, marginal := false, calibrating := false, failures := 0, margin := 0, snr := 0,
    snrCal := 0, refTemp := 0, coeffs := [], rollback := [], accepted := [], attempts := 0, lastMinute := 0,
    retryDue := none, lowRaised := false, snrDue := false, okSince := none }

/-- A freed QP context (R88). -/
def Qp.zero : Qp :=
  { state := .free, tenant := 0, cls := 0, iface := 0, mtu := 0, seqNak := false, writeOpen := false, remoteQpn := 0,
    epsn := 0, msn := 0, outstanding := 0, unacked := 0, ackPsn := 0, donePsn := 0, oldestPsn := 0, ackDeadline := 0, ackSince := 0, ackNew := false, doneSince := 0, ackDue := false, serial := 0,
    remote := .v4 0, nextHop := 0, flow := 0, writeRkey := 0, writeRemaining := 0, writeDma := 0, localComm := 0,
    remoteComm := 0, rate := 0, target := 0, alpha := 0, stage := 0, lastCnpSent := 0, lastCnpActed := 0,
    cnpSentAt := none, cnpActedAt := none, ring := [], ops := [], repSends := 0, reqUdp := 0, reqQp := 0,
    reqPort := 0, ordinal := 0, wasEstablished := false, outOfUse := false }

/-- A bank precharged, with nothing owed (R173 to R179). -/
def DBank.zero : DBank :=
  { openRow := none, actOk := 0, colOk := 0, preOk := 0, lastUse := 0, owed := 0, refPtr := 0, forcedRefresh := 0,
    forcedNeighbour := 0, neighbours := [], reserved := false }

/-- A channel engine before its layer is initialised. -/
def Chan.zero : Chan :=
  { opp := 0, bankPtr := 0, clsPtr := 0, acts := [], lastRead := none, writeEnd := none, second := none,
    colBusy := 0, turned := false, sampleSeed := 0, sampleDraws := 0, windowBursts := 0, laneErrors := [], uncRun := [], selfRefresh := false,
    initialised := false, failedLanes := [], spares := [], badSpares := [], visits := [], early := [],
    activates := 0, refreshes := 0 }

/-- The Parlour before a plan: every slot a system slot (R194), no cut, step 0, band 1×. -/
def Parlour.zero : Parlour :=
  { cal := [], planCal := [], cuts := [], prior := [], exhausted := false, step := 0, band := 0, frozen := [], declared := 0 }

/-- A class on a channel with nothing outstanding (R193, R198). -/
def ClsCh.zero : ClsCh := { outstanding := 0, e := 0, window := [], level := 0 }

/-- A region entry not in use (R111). -/
def Region.zero : Region :=
  { inUse := false, active := false, revoked := false, rekeying := false, erasePending := false, spec := false,
    atomicOk := false, writeOk := false, readOk := false, cls := 0, tenant := 0, gen := 0, vbase := 0, slab := 0,
    slabs := 0, leaseStart := 0, leaseEnd := 0, curSlot := 0, nextSlot := 0, nextValid := false, curBit := false,
    leaseId := 0, revokeMinute := 0xFFFFFFFF, foEnd := 0, foId := 0, pagesRemaining := 0, erase := .none,
    eraseCause := 0, eraseFrom := 0, endMinute := 0, revokeId := 0 }

/-- A free key slot: all zeros (R131). -/
def KeySlot.zero : KeySlot := { key := 0, hash := 0, state := .free, region := 0 }

/-- A free remap entry (R231). -/
def Remap.zero : Remap := { valid := false, committed := false, bad := false, page := 0, unit := 0, copied := 0 }

/-- A layer's record at reset: all four sensors valid (R247). -/
def Layer.zero : Layer :=
  { readings := [0, 0, 0, 0], valid := 0xF, model := none, floor := none, effective := 0, figure := none, band := 0,
    step := 0, activity := 0, visits := 0, retAt := [], disagree := false, disagreeMs := 0, okMs := 0,
    failed := false, peak := none }

/-- A channel with no BIST marker and no soft repair (R371). -/
def BistCh.zero : BistCh :=
  { marker := none, softRows := [], softCols := [], sweep := 0, step := 0, failures := 0, done := false }

/-- The machine right after reset: supplies up in the order of R31, PWR_OK high, POR_N still low, every register at
its reset value, OTP unprogrammed, flash erased, nothing queued (notes/assumptions/2.md, 4.md). -/
def State.reset : State :=
  { pending := [], free := 0,
    pins := { started := 0xFF, up := 0xFF, coreUpAt := none, pwrOk := true, porN := false, wrstUntil := 0,
              head := false, nvReleaseUs := 0, refclkOk := true, refclkHold := false, powerFail := false,
              pllLocked := false },
    tank := .reset, churn := .reset, journal := .reset, otp := .reset,
    factory := { checked := false, laneDelays := [], therm := [], serdes := [] },
    flash := [], plans := .reset, chain := .reset,
    sel := { minuteBlock := 0, journalBlock := 0, qpBlock := 0, channel := 0, remapChannel := 0 },
    ports := [], lanes := [], recal := { urgent := [], queue := [], active := none },
    slow := { tokens := 64, reserve := [], echoSecond := 0, echoCount := [] },
    qps := [], qpnPtr := 0x000100, qpnFreed := [], trackers := [],
    regions := [], genDrawn := [], held := [], records := .reset, keys := [],
    drbg := { instantiated := false, key := 0, v := 0, requests := 0, reseedUs := 0, entropyOk := false, lastGoodUs := 0,
              repeated := none, proportion := none },
    metaCache := [], pageCache := [], misread := [],
    sep := { inits := [], rewrites := [], rekeys := [], waiting := [], due := [] },
    dram := { data := [], poison := [], upsets := [], waits := [] }, path := .empty, chans := [], banks := [],
    retired := 0, retiring := [], relief := [], parlour := [], clsCh := [], skim := .reset, remap := [],
    retirements := [], thermal := .reset, bist := .reset, ctr := .zero, views := [],
    stats := { keyCorrected := 0, lateAlarms := 0, entropyDiscards := 0, pageRewrites := 0, pageInits := 0,
               authBlocked := 0 },
    dataSent := [], chainSent := [] }

end Sys2Proof.Machine
end

