-- ==== Sys2Proof/Machine/Map.lean ====
section
/-! DEFINITION. The operations over sparse tables and number sets: every memory, register file and counter file of
State is read and written through these. A table keeps one canonical form (`Map.wf`), so equal contents are equal
data; each operation takes the value that the key reads as while it is not listed. -/

namespace Sys2Proof.Machine

/-- The value at `k`, or the value `d` an unlisted key reads as. -/
def Map.get {β : Type} (d : β) (k : Nat) : Table β → β
  | [] => d
  | e :: t => if e.1 = k then e.2 else Map.get d k t

/-- Puts `v` at `k`, in rising order of keys, without looking at the unlisted value. -/
def Map.put {β : Type} (k : Nat) (v : β) : Table β → Table β
  | [] => [(k, v)]
  | e :: t => if k < e.1 then (k, v) :: e :: t else if e.1 = k then (k, v) :: t else e :: Map.put k v t

/-- Removes every entry of `k`. -/
def Map.erase {β : Type} (k : Nat) (t : Table β) : Table β := t.filter (fun e => e.1 != k)

/-- Writes `v` at `k`; writing what an unlisted `k` reads as removes the entry. -/
def Map.set {β : Type} [DecidableEq β] (d : β) (k : Nat) (v : β) (t : Table β) : Table β :=
  if v = d then Map.erase k t else Map.put k v t

/-- Changes the value at `k`. -/
def Map.modify {β : Type} [DecidableEq β] (d : β) (k : Nat) (f : β → β) (t : Table β) : Table β :=
  Map.set d k (f (Map.get d k t)) t

/-- The keys are strictly rising. -/
def Map.rising {β : Type} : Table β → Bool
  | [] => true
  | [_] => true
  | a :: b :: t => decide (a.1 < b.1) && Map.rising (b :: t)

/-- The canonical form: keys strictly rising, no entry equal to what its key reads as while unlisted. -/
def Map.wf {β : Type} [DecidableEq β] (d : Nat → β) (t : Table β) : Bool :=
  Map.rising t && t.all (fun e => e.2 != d e.1)

/-- Membership in a number set. -/
def NSet.has (k : Nat) (t : NatSet) : Bool := t.contains k

/-- Adds a number, keeping the set rising and without repeats. -/
def NSet.add (k : Nat) : NatSet → NatSet
  | [] => [k]
  | a :: t => if k < a then k :: a :: t else if a = k then a :: t else a :: NSet.add k t

/-- Removes a number. -/
def NSet.del (k : Nat) (t : NatSet) : NatSet := t.filter (fun a => a != k)

/-- Adds or removes a number. -/
def NSet.put (k : Nat) (b : Bool) (t : NatSet) : NatSet := if b then NSet.add k t else NSet.del k t

/-- The byte lists of memories: reads `n` bytes from address `a`; `d` gives what an unlisted address reads as. -/
def Memory.read (d : Nat → Byte) (a n : Nat) (m : List Host.Cell) : List Byte :=
  (List.range n).map (fun i => Map.get (d (a + i)) (a + i) m)

/-- Writes the bytes `bs` from address `a` on. -/
def Memory.write (d : Nat → Byte) (a : Nat) (bs : List Byte) (m : List Host.Cell) : List Host.Cell :=
  match bs with
  | [] => m
  | b :: t => Memory.write d (a + 1) t (Map.set (d a) a b m)

/-- The canonical form of a memory (`Map.wf` with bytes). -/
def Memory.wf (d : Nat → Byte) (m : List Host.Cell) : Bool := Map.wf d m

end Sys2Proof.Machine
end

