-- ==== Sys2Proof/Machine/Flags.lean ====
section
/-! DEFINITION. The flag computations: saturating counts and their flags, majority latches, serial-number
comparison, the start word (R42), and which phases allow what (R43, R50). -/

namespace Sys2Proof.Machine

/-- Adds to a count that stays at `max` once it gets there. -/
def satAdd (max v n : Nat) : Nat := if max ≤ v + n then max else v + n

/-- A count that stands at its maximum shows its saturation flag (R82, R125, R207, R216, R318). -/
def saturated (max v : Nat) : Bool := decide (v = max)

/-- Limit of the 48-bit counters of R82. -/
def max48 : Nat := 0xFFFFFFFFFFFF
/-- Limit of the 64-bit counters of R125. -/
def max64 : Nat := 0xFFFFFFFFFFFFFFFF
/-- Limit of 32-bit counters. -/
def max32 : Nat := 0xFFFFFFFF
/-- Limit of 16-bit counters. -/
def max16 : Nat := 0xFFFF

/-- The limit of an accumulator field (R127). -/
def fieldLimit (f : Nat) : Nat := if f = 0 then max32 else if f ≤ 6 then max48 else max16

/-- Adds to a 32-bit counter that saturates at all ones (R344, R377). -/
def sat32 (v : BitVec 32) (n : Nat) : BitVec 32 := BitVec.ofNat 32 (satAdd max32 v.toNat n)

/-- The majority of a latch's three copies (R343). -/
def majority (l : BitVec 3) : Bool :=
  (l.getLsbD 0 && l.getLsbD 1) || (l.getLsbD 0 && l.getLsbD 2) || (l.getLsbD 1 && l.getLsbD 2)

/-- `a` is newer than `b` by 32-bit serial-number comparison (R48). -/
def newerSeq (a b : BitVec 32) : Bool := decide (a ≠ b) && decide ((a - b).toNat < 0x80000000)

/-- One bit as a number. -/
def bit (b : Bool) (n : Nat) : Nat := if b then 2 ^ n else 0

/-- A byte with bit n set. -/
def setBit8 (b : Byte) (n : Nat) : Byte := b ||| (1#8 <<< n)

/-- A byte with bit n clear. -/
def clearBit8 (b : Byte) (n : Nat) : Byte := b &&& ~~~(1#8 <<< n)

/-- The bits [hi:lo] of a number. -/
def bits (v hi lo : Nat) : Nat := v / 2 ^ lo % 2 ^ (hi + 1 - lo)

/-- The start word (R42). -/
def startWord (s : State) : BitVec 32 :=
  let t := s.tank
  BitVec.ofNat 32
    (t.phase.toNat * 2 ^ 24 + t.haltReason.toNat * 2 ^ 16 + bit t.anchored 15 + bit t.timeSource 14 +
      t.lastReset.toNat * 2 ^ 12 + bit t.unsync 11 + bit t.bistRestored 10 + bit t.bgResumed 9 + bit t.tornLines 8 +
      t.warmCount.toNat)

/-- Phases of the starts, 0x01 to 0x07 (R43). -/
def startPhase (p : Byte) : Bool := decide (1 ≤ p.toNat) && decide (p.toNat ≤ 7)

/-- The safe-state phases (R43). -/
def safePhase (p : Byte) : Bool := p = 0xF0 || p = 0xF1

/-- The phases with other object reads: "ordinary" of R372. -/
def ordinaryPhase (p : Byte) : Bool :=
  (decide (2 ≤ p.toNat) && decide (p.toNat ≤ 8)) || p = 0x11 || p = 0xE0 || p = 0xE1

/-- Whether phase `p` accepts the command of code `code` (R50), the life-cycle gating aside. -/
def commandPhase (p code : Byte) : Bool :=
  if p = 0x08 then true
  else if (decide (2 ≤ p.toNat) && decide (p.toNat ≤ 7)) || p = 0x11 then code = 0x01 || code = 0x02 || code = 0x09
  else if p = 0xE0 || p = 0xE1 then
    code = 0x03 || code = 0x04 || code = 0x09 || code = 0x0A || code = 0x0B || code = 0x0C || code = 0x08
  else if p = 0xF0 then code = 0x08
  else false

/-- The Bluyda core runs: it has left reset and the Tank does not hold it (R44, R341, R342). -/
def coreRuns (s : State) : Bool := s.tank.coreRunning && !s.tank.coreHeld

/-- A source whose buffer is full stands still with the operation that raised its last message (R335). -/
def stalls (s : State) (src : Nat) : Bool := s.churn.stalled.any (fun m => m.source.toNat = src)

/-- POR_N as the device takes it: in lock-severity safe state its level has no effect (R347). -/
def porHigh (s : State) : Bool := s.pins.porN || s.tank.phase = 0xF1

/-- The Skimmer, the Separator and BIST run: not before the OTP has been read, in a drain, a warm start or safe state, nor once PWR_OK has
fallen (R35, R52, R341, R342). -/
def upkeepRuns (s : State) : Bool :=
  s.pins.porN && !s.pins.powerFail && s.tank.drain.isNone && ordinaryPhase s.tank.phase && s.tank.phase ≠ 0x11

/-- ALERT_N is driven low in safe state and while UC pending is set, once POR_N has risen (R339). -/
def alertLow (s : State) : Bool :=
  porHigh s && (safePhase s.tank.phase || majority s.tank.stopLatch || majority s.tank.lockLatch || s.churn.ucPending)

/-- NV_RST_N is driven low while POR_N is low, and released 100 µs after POR_N rises (R391). -/
def nvRstLow (s : State) : Bool := !s.pins.porN || decide (s.tank.clockUs < s.pins.nvReleaseUs)

/-- THERM_N is driven low while a layer is at step 2, while the base die is in Throttle, and in safe state entered
through kind 0x22 (R242). -/
def thermLow (s : State) : Bool :=
  s.thermal.baseState = 2 || s.thermal.shutdown || s.thermal.layers.any (fun e => e.2.step = 2)

end Sys2Proof.Machine
end

