-- ==== Sys2Proof/Machine/Ops.lean ====
section
/-! DEFINITION. The named operations that every family of commands shares: big-endian bytes (R3), device time as it
is stamped (R114, R320), the journal queue (R320, R321), raising a fault message (R331 to R337), and the counters
with their saturation (R82, R125, R207, R216, R318, R326). -/

namespace Sys2Proof.Machine

/-! ### Bytes -/

/-- A number as `n` bytes, most significant first (R3). -/
def beBytes (n v : Nat) : List Byte := (List.range n).map (fun i => BitVec.ofNat 8 (v / 2 ^ (8 * (n - 1 - i))))

/-- The number that big-endian bytes hold (R3). -/
def beNat (bs : List Byte) : Nat := bs.foldl (fun a b => a * 256 + b.toNat) 0

/-- The field of `n` bytes at byte `o` of a payload; bytes past its end read as zero. -/
def field (bs : List Byte) (o n : Nat) : Nat := beNat ((List.range n).map (fun i => (bs[o + i]?).getD 0))

/-- A list of bytes brought to exactly `n` bytes with zeros. -/
def padTo (n : Nat) (bs : List Byte) : List Byte := (bs ++ List.replicate n 0).take n

/-- The bit vector of a number in two's complement of `n` bits, for a signed value. -/
def signedBits (n : Nat) (v : Int) : Nat := (v % (2 ^ n : Int)).toNat

/-- The signed value of `n`-bit two's complement. -/
def signedOf (n v : Nat) : Int := if v < 2 ^ (n - 1) then (v : Int) else (v : Int) - 2 ^ n

/-! ### Time -/

/-- Device time as it is stamped: before the first anchor the minute is 0 and the microseconds count from POR_N
rising (R320, R334). -/
def stamp (s : State) : BitVec 32 × Nat :=
  if s.tank.anchored then (s.tank.minute, s.tank.usec) else (0, s.tank.porUs)

/-- Microseconds of device time since the epoch. -/
def deviceUs (s : State) : Nat := s.tank.minute.toNat * 60000000 + s.tank.usec

/-- One microsecond of the clocks, taken when no command waits: the interval clock always; the time since POR_N, the
heartbeat's age and the held clock while POR_N is high; device time unless it stands still (R114 to R116), up to the
last microsecond of the minute, which MINUTE_BOUNDARY ends. -/
def tick (s : State) : State :=
  let t := s.tank
  let t1 := { t with clockUs := t.clockUs + 1 }
  if !porHigh s then { s with tank := t1 }
  else
    let t2 := { t1 with porUs := t.porUs + 1,
                        heartbeatUs := if coreRuns s then t.heartbeatUs + 1 else t.heartbeatUs,
                        held := t.held.map (fun h =>
                          if h.2 + 1 < 60000000 then (h.1, h.2 + 1) else (h.1 + 1, 0)) }
    if !t.anchored then { s with tank := t2 }
    else if 0 < t.holdUs then { s with tank := { t2 with holdUs := t.holdUs - 1 } }
    else { s with tank := { t2 with usec := if t.usec + 1 < 60000000 then t.usec + 1 else t.usec } }

/-! ### Free values -/

/-- Advances the counter that fresh free values are drawn with. -/
def drawn (s : State) : State := { s with free := s.free + 1 }

/-! ### Fault messages -/

/-- The 64-bit word of a fault message (R331). -/
def faultWord (m : FaultMsg) : W64 :=
  BitVec.ofNat 64
    (m.source.toNat * 2 ^ 48 + m.kind.toNat * 2 ^ 40 + m.cls.toNat * 2 ^ 38 + m.severity.toNat * 2 ^ 36 + m.addr.toNat)

/-- The class of a kind: 0 CE, 1 UC, 2 FT (R337). Kind 0x30 is UC here; its rule may choose CE (R257). -/
def kindClass (kind : Byte) : BitVec 2 :=
  match kind.toNat with
  | 0x22 | 0x35 | 0x51 | 0x52 | 0x60 | 0x61 | 0x64 | 0x73 => 2
  | 0x03 | 0x04 | 0x05 | 0x06 | 0x0A | 0x11 | 0x12 | 0x15 | 0x20 | 0x23 | 0x30 | 0x31 | 0x41 | 0x43 | 0x50 | 0x62 | 0x63
  | 0x70 | 0x72 => 1
  | _ => 0

/-- The severity of a kind: 1 stop, 2 lock, 0 for CE and UC (R337). -/
def kindSeverity (kind : Byte) : BitVec 2 :=
  match kind.toNat with
  | 0x35 | 0x51 | 0x60 | 0x73 => 2
  | 0x22 | 0x52 | 0x61 | 0x64 => 1
  | _ => 0

/-- The newest corrected message of a source in the buffers is given up for a new one (R335). -/
def dropNewestCe (src : BitVec 12) (l : List FaultMsg) : List FaultMsg :=
  (l.reverse.eraseP (fun m => m.source = src && m.cls = 0)).reverse

/-- A message joins its source's buffer of 8. When the buffer is full, a CE message is dropped and counted; a UC or
FT message takes the place of the newest CE message, and where there is none, its source stalls with it (R335). -/
def pushMsg (m : FaultMsg) (s : State) : State :=
  let c := s.churn
  let mine := c.inbox.filter (fun x => x.source = m.source)
  if mine.length < 8 then { s with churn := { c with inbox := c.inbox ++ [m] } }
  else if m.cls = 0 then { s with churn := { c with ceDropped := sat32 c.ceDropped 1 } }
  else if mine.any (fun x => x.cls = 0) then
    { s with churn := { c with inbox := dropNewestCe m.source c.inbox ++ [m], ceDropped := sat32 c.ceDropped 1 } }
  else { s with churn := { c with stalled := c.stalled ++ [m] } }

/-- Raises a kind with the class its rule chooses (R332). -/
def raiseAs (cls : BitVec 2) (src : Nat) (kind : Byte) (addr : Nat) (s : State) : State :=
  pushMsg { source := BitVec.ofNat 12 src, kind := kind, cls := cls, severity := kindSeverity kind,
            addr := BitVec.ofNat 36 addr, ownEntry := kind = 0x31 || kind = 0x32 || kind = 0x34, detail := 0 } s

/-- Raises a kind with the class and severity of R337. -/
def raise (src : Nat) (kind : Byte) (addr : Nat) (s : State) : State := raiseAs (kindClass kind) src kind addr s

/-- Raises a kind whose journal entry carries a detail (R323, R324). -/
def raiseDetail (det src : Nat) (kind : Byte) (addr : Nat) (s : State) : State :=
  pushMsg { source := BitVec.ofNat 12 src, kind := kind, cls := kindClass kind, severity := kindSeverity kind,
            addr := BitVec.ofNat 36 addr, ownEntry := false, detail := BitVec.ofNat 64 det } s

/-- Raises a kind at most once per second for its source, by the interval clock (R75, R175, R179, R291, R295). -/
def raiseLimited (src : Nat) (kind : Byte) (addr : Nat) (s : State) : State :=
  let key := src * 256 + kind.toNat
  let last := Map.get 0 key s.churn.lastRaised
  if last = 0 ∨ last + 1000000 ≤ s.tank.clockUs + 1 then
    let s1 := raise src kind addr s
    { s1 with churn := { s1.churn with lastRaised := Map.set 0 key (s.tank.clockUs + 1) s1.churn.lastRaised } }
  else s

/-! ### Counters -/

/-- The minute-record field that a tenant counter feeds (R127), and that field's limit: 0 slab-minutes, 1 to 6 the 48-bit
fields, 7 to 11 the 16-bit ones. -/
def recordField (n : Nat) : Option (Nat × Nat) :=
  match n with
  | 9 => some (0, max32)
  | 0 => some (1, max48)
  | 1 => some (2, max48)
  | 2 => some (3, max48)
  | 3 => some (4, max48)
  | 5 => some (5, max48)
  | 6 => some (6, max48)
  | 13 => some (7, max16)
  | 17 => some (8, max16)
  | 18 => some (9, max16)
  | 19 => some (10, max16)
  | 20 => some (11, max16)
  | _ => none

/-- Adds to the live accumulator of a minute-record field (R126). -/
def accumulate (tenant n add : Nat) (r : Records) : Records :=
  match recordField n with
  | some (f, lim) => { r with live := Map.modify 0 (tenant * 16 + f) (fun v => satAdd lim v add) r.live }
  | none => r

/-- Tenant counter n (R125): 64 bits; kind 0x33 when it saturates; the minute record's field with it (R126). -/
def tenantCount (tenant n add : Nat) (s : State) : State :=
  let key := tenant * 32 + n
  let v := Map.get 0 key s.ctr.tenant
  let w := satAdd max64 v add
  let s1 := { s with ctr := { s.ctr with tenant := Map.set 0 key w s.ctr.tenant },
                     records := accumulate tenant n add s.records }
  if w = max64 ∧ v ≠ max64 then raise 0x081 0x33 (tenant * 4096 + (0x28 + 8 * n)) s1 else s1

/-- Port counter `i`, 0 to 29 in the order R81 lists them: 48 bits (R82, R338). A port's lowest lane bears its number. -/
def portCount (port i add : Nat) (s : State) : State :=
  let key := port * 32 + i
  let v := Map.get 0 key s.ctr.port
  let w := satAdd max48 v add
  let s1 := { s with ctr := { s.ctr with port := Map.set 0 key w s.ctr.port } }
  if w = max48 ∧ v ≠ max48 then raise (0x060 + port) 0x33 (port * 4096 + i) s1 else s1

/-- Class counter `i` of a class on a channel, or, with `cls` absent, the channel-record counter of word offset 8i
(R206, R207); those of a retired channel stand. The address holds channel, class and the flag's bit or the word offset divided by 8. -/
def classCount (ch : Nat) (cls : Option Nat) (i flag add : Nat) (s : State) : State :=
  let key := match cls with
    | some c => (ch * 16 + c) * 32 + i
    | none => 64 * 16 * 32 + ch * 4 + i
  let v := Map.get 0 key s.ctr.cls
  let w := satAdd max48 v add
  let s1 := { s with ctr := { s.ctr with cls := Map.set 0 key w s.ctr.cls } }
  if s.retired.getLsbD ch then s
  else if w = max48 ∧ v ≠ max48 then raise 0x087 0x33 (ch * 1024 + cls.getD 0 * 64 + flag) s1 else s1

/-- Column commands for the system input (R196, R206). -/
def systemBursts (ch n : Nat) (s : State) : State := classCount ch none 2 2 n s

/-- Channel counter `n` of R216, 16 bits: 0 data corrected to 6 poison reads. -/
def chanCount (ch n add : Nat) (s : State) : State :=
  let key := ch * 8 + n
  let v := Map.get 0 key s.ctr.chan
  let w := satAdd max16 v add
  let s1 := { s with ctr := { s.ctr with chan := Map.set 0 key w s.ctr.chan } }
  if w = max16 ∧ v ≠ max16 then raise ch 0x33 (ch * 1024 + n) s1 else s1

/-- A 16-bit counter of the CE log header kept beside the channel counters: SRAM corrected (512 + area), SRAM
uncorrectable (544 + area), Overflow (600), early-scrub drops (601) (R219). -/
def headCount (key add : Nat) (s : State) : State :=
  { s with ctr := { s.ctr with chan := Map.set 0 key (satAdd max16 (Map.get 0 key s.ctr.chan) add) s.ctr.chan } }

/-- Chain counter at `off` within the chain object: the header's at 0x04 to 0x0C, CHU's from 0x104, CHD's from 0x204
(R318). Keys: off ÷ 4. -/
def chainCount (off add : Nat) (s : State) : State :=
  let key := off / 4
  let v := Map.get 0 key s.ctr.chain
  let w := satAdd max32 v add
  let s1 := { s with ctr := { s.ctr with chain := Map.set 0 key w s.ctr.chain } }
  if w = max32 ∧ v ≠ max32 then raise (if off < 0x200 then 0x070 else 0x071) 0x33 off s1 else s1

/-- The counter of a port record of the chain object at offset `off` (R318). -/
def chainPortCount (p : ChainPort) (off : Nat) (s : State) : State :=
  chainCount ((match p with | .chu => 0x100 | .chd => 0x200) + off) 1 s

/-! ### The journal queue -/

/-- Channel `c` is retired (R185). -/
def isRetired (s : State) (c : Nat) : Bool := s.retired.getLsbD c

/-- The sequence after passing over those whose channel is retired (R319); `n` bounds the walk. -/
def skipRetired (mask : BitVec 64) : Nat → BitVec 64 → BitVec 64
  | 0, q => q
  | n + 1, q => if mask.getLsbD (q.toNat % 64) then skipRetired mask n (q + 1) else q

/-- Gives sequences, in queue order, to the first `n` entries that have none (R321). -/
def numberEntries (mask : BitVec 64) : Nat → BitVec 64 → List JEntry → List JEntry × BitVec 64
  | 0, q, l => (l, q)
  | _ + 1, q, [] => ([], q)
  | n + 1, q, e :: t =>
    match e.seq with
    | some _ =>
      let r := numberEntries mask n q t
      (e :: r.1, r.2)
    | none =>
      let q' := skipRetired mask 64 q
      let r := numberEntries mask n (q' + 1) t
      ({ e with seq := some q' } :: r.1, r.2)

/-- Once the fill has completed, the first 256 entries are in the queue and hold their sequences; the others wait
(R321). -/
def settleJournal (s : State) : State :=
  if s.tank.filled then
    let r := numberEntries s.retired 256 s.journal.nextSeq s.journal.queue
    { s with journal := { s.journal with queue := r.1, nextSeq := r.2 } }
  else s

/-- An entry joins the journal queue. Before the fill at most 256 wait; later ones are counted (R321, R326). -/
def pushEntry (e : JEntry) (s : State) : State :=
  if !s.tank.filled && decide (256 ≤ s.journal.queue.length) then
    let v := s.journal.lostBeforeFill
    let w := satAdd max32 v 1
    let s1 := { s with journal := { s.journal with lostBeforeFill := w } }
    if w = max32 ∧ v ≠ max32 then raise 0x084 0x33 0x28 s1 else s1
  else settleJournal { s with journal := { s.journal with queue := s.journal.queue ++ [e] } }

/-- The flags byte of an entry recorded now (R320): valid, unsynchronised, not anchored; `late` as given. -/
def entryFlags (late : Bool) (s : State) : Byte :=
  BitVec.ofNat 8 (128 + bit late 6 + bit s.tank.unsync 5 + bit (!s.tank.anchored) 4)

/-- Records an event now (R320, R323): source, type, result and the argument bytes. -/
def journalEvent (src : Nat) (ty : Byte) (result : Nat) (args : List Byte) (s : State) : State :=
  pushEntry { seq := none, minute := (stamp s).1, usec := (stamp s).2, source := BitVec.ofNat 12 src, etype := ty,
              flags := entryFlags false s, result := BitVec.ofNat 32 result, args := padTo 40 args,
              faultRecord := none } s

/-- The 64 bytes of an entry with its sequence (R320). -/
def entryBytes (e : JEntry) : List Byte :=
  beBytes 8 (e.seq.getD 0).toNat ++ beBytes 4 e.minute.toNat ++ beBytes 4 e.usec ++ beBytes 2 e.source.toNat ++
    [e.etype, e.flags] ++ beBytes 4 e.result.toNat ++ padTo 40 e.args

/-- An IP address in 16 bytes, an IPv4 address in the last 4 (R88). -/
def ipNat : Ip → Nat
  | .v4 a => a.toNat
  | .v6 a => a.toNat

/-! ### Conditional updates over lists -/

/-- Applies `f` for each item from the left. -/
def forEach {α : Type} (l : List α) (f : α → State → State) (s : State) : State := l.foldl (fun t a => f a t) s

/-- The numbers below n. -/
def upTo (n : Nat) : List Nat := List.range n

end Sys2Proof.Machine
end

