-- ==== Sys2Proof/Machine/Crypto.lean ====
section
/-! DEFINITION. The published functions that the spec names: CRC-32 (R254) and CRC-32C (R255), AES-256 and GHASH
(R137, R138), SHA-384 (R251, R256) and ECDSA over P-384 (R256). The spec refers to the standards and does not retell
them; their constants are taken from them (PRESUMED, notes/assumptions/7.md). -/

namespace Sys2Proof.Machine

/-! ### CRCs -/

/-- One byte into a reflected CRC of 32 bits. -/
def crcByte (poly crc : BitVec 32) (b : Byte) : BitVec 32 :=
  (List.range 8).foldl (fun c _ => if c.getLsbD 0 then (c >>> 1) ^^^ poly else c >>> 1) (crc ^^^ b.setWidth 32)

/-- A reflected CRC of 32 bits: initial value all ones, result complemented. -/
def crc32With (poly : BitVec 32) (bs : List Byte) : BitVec 32 := ~~~(bs.foldl (crcByte poly) 0xFFFFFFFF)

/-- CRC-32 of IEEE 802.3 (R254). -/
def crc32 (bs : List Byte) : BitVec 32 := crc32With 0xEDB88320 bs

/-- CRC-32C, Castagnoli (R255). -/
def crc32c (bs : List Byte) : BitVec 32 := crc32With 0x82F63B78 bs

/-! ### AES-256 -/

/-- Multiplication by x in GF(2^8) of AES. -/
def aesDouble (a : Byte) : Byte := if a.getLsbD 7 then (a <<< 1) ^^^ 0x1B else a <<< 1

/-- Multiplication in GF(2^8) of AES. -/
def aesMul (a b : Byte) : Byte :=
  ((List.range 8).foldl (fun (r : Byte × Byte) i => (if b.getLsbD i then r.1 ^^^ r.2 else r.1, aesDouble r.2)) (0, a)).1

/-- The square in GF(2^8). -/
def aesSquare (a : Byte) : Byte := aesMul a a

/-- The inverse in GF(2^8): the 254th power, 0 for 0. -/
def aesInverse (a : Byte) : Byte :=
  let a2 := aesSquare a
  let a4 := aesSquare a2
  let a8 := aesSquare a4
  let a16 := aesSquare a8
  let a32 := aesSquare a16
  let a64 := aesSquare a32
  let a128 := aesSquare a64
  aesMul (aesMul (aesMul a2 a4) (aesMul a8 a16)) (aesMul (aesMul a32 a64) a128)

/-- The AES S-box: inverse, then the affine map. -/
def aesSub (a : Byte) : Byte :=
  let i := aesInverse a
  i ^^^ i.rotateLeft 1 ^^^ i.rotateLeft 2 ^^^ i.rotateLeft 3 ^^^ i.rotateLeft 4 ^^^ 0x63

/-- The round constants of the AES-256 key schedule. -/
def aesRcon (i : Nat) : Byte := (List.range (i - 1)).foldl (fun a _ => aesDouble a) 1

/-- The 60 words of the AES-256 key schedule, newest first. -/
def aesExpand : Nat → List (List Byte) → List (List Byte)
  | 0, ws => ws
  | n + 1, ws =>
    let i := ws.length
    let temp := (ws[0]?).getD []
    let t1 := if i % 8 = 0 then
        match temp with
        | [a, b, c, d] => [aesSub b ^^^ aesRcon (i / 8), aesSub c, aesSub d, aesSub a]
        | _ => temp
      else if i % 8 = 4 then temp.map aesSub else temp
    aesExpand n (List.zipWith (· ^^^ ·) ((ws[7]?).getD []) t1 :: ws)

/-- The words of a 32-byte key in order, then the 52 further words. -/
def aesSchedule (key : List Byte) : List (List Byte) :=
  (aesExpand 52 (((List.range 8).map (fun i => (key.drop (4 * i)).take 4)).reverse)).reverse

/-- MixColumns on one column. -/
def aesMix : List Byte → List Byte
  | [a, b, c, d] =>
    [aesDouble a ^^^ (aesDouble b ^^^ b) ^^^ c ^^^ d, a ^^^ aesDouble b ^^^ (aesDouble c ^^^ c) ^^^ d,
      a ^^^ b ^^^ aesDouble c ^^^ (aesDouble d ^^^ d), (aesDouble a ^^^ a) ^^^ b ^^^ c ^^^ aesDouble d]
  | l => l

/-- ShiftRows on the 16 bytes in column order. -/
def aesShift (st : List Byte) : List Byte :=
  (List.range 16).map (fun i => (st[(i + 4 * (i % 4)) % 16]?).getD 0)

/-- XOR of two byte lists. -/
def xorBytes (a b : List Byte) : List Byte := List.zipWith (· ^^^ ·) a b

/-- The round key of round `r`. -/
def aesRoundKey (ws : List (List Byte)) (r : Nat) : List Byte := ((ws.drop (4 * r)).take 4).flatten

/-- AES-256 of one block under an expanded key. -/
def aesBlock (ws : List (List Byte)) (blk : List Byte) : List Byte :=
  let s0 := xorBytes blk (aesRoundKey ws 0)
  let s13 := (List.range 13).foldl (fun st r =>
    let t := aesShift (st.map aesSub)
    xorBytes ((List.range 4).map (fun c => aesMix ((t.drop (4 * c)).take 4))).flatten (aesRoundKey ws (r + 1))) s0
  xorBytes (aesShift (s13.map aesSub)) (aesRoundKey ws 14)

/-- AES-256 of a block under a 256-bit key. -/
def aes256 (key : BitVec 256) (blk : List Byte) : List Byte := aesBlock (aesSchedule (beBytes 32 key.toNat)) blk

/-! ### GHASH -/

/-- Multiplication in GF(2^128) as GHASH orders its bits. -/
def ghashMul (x y : BitVec 128) : BitVec 128 :=
  ((List.range 128).foldl (fun (r : BitVec 128 × BitVec 128) i =>
    (if x.getLsbD (127 - i) then r.1 ^^^ r.2 else r.1,
      if r.2.getLsbD 0 then (r.2 >>> 1) ^^^ (0xE1#128 <<< 120) else r.2 >>> 1)) (0, y)).1

/-- GHASH of whole blocks under a hash subkey (R138). -/
def ghash (h : BitVec 128) (blocks : List (BitVec 128)) : BitVec 128 :=
  blocks.foldl (fun y b => ghashMul (y ^^^ b) h) 0

/-! ### SHA-384 -/

/-- Round constants 0 to 15 of SHA-512. -/
def shaK0 : List W64 :=
  [0x428A2F98D728AE22, 0x7137449123EF65CD, 0xB5C0FBCFEC4D3B2F, 0xE9B5DBA58189DBBC,
    0x3956C25BF348B538, 0x59F111F1B605D019, 0x923F82A4AF194F9B, 0xAB1C5ED5DA6D8118,
    0xD807AA98A3030242, 0x12835B0145706FBE, 0x243185BE4EE4B28C, 0x550C7DC3D5FFB4E2,
    0x72BE5D74F27B896F, 0x80DEB1FE3B1696B1, 0x9BDC06A725C71235, 0xC19BF174CF692694]

/-- Round constants 16 to 31 of SHA-512. -/
def shaK1 : List W64 :=
  [0xE49B69C19EF14AD2, 0xEFBE4786384F25E3, 0x0FC19DC68B8CD5B5, 0x240CA1CC77AC9C65,
    0x2DE92C6F592B0275, 0x4A7484AA6EA6E483, 0x5CB0A9DCBD41FBD4, 0x76F988DA831153B5,
    0x983E5152EE66DFAB, 0xA831C66D2DB43210, 0xB00327C898FB213F, 0xBF597FC7BEEF0EE4,
    0xC6E00BF33DA88FC2, 0xD5A79147930AA725, 0x06CA6351E003826F, 0x142929670A0E6E70]

/-- Round constants 32 to 47 of SHA-512. -/
def shaK2 : List W64 :=
  [0x27B70A8546D22FFC, 0x2E1B21385C26C926, 0x4D2C6DFC5AC42AED, 0x53380D139D95B3DF,
    0x650A73548BAF63DE, 0x766A0ABB3C77B2A8, 0x81C2C92E47EDAEE6, 0x92722C851482353B,
    0xA2BFE8A14CF10364, 0xA81A664BBC423001, 0xC24B8B70D0F89791, 0xC76C51A30654BE30,
    0xD192E819D6EF5218, 0xD69906245565A910, 0xF40E35855771202A, 0x106AA07032BBD1B8]

/-- Round constants 48 to 63 of SHA-512. -/
def shaK3 : List W64 :=
  [0x19A4C116B8D2D0C8, 0x1E376C085141AB53, 0x2748774CDF8EEB99, 0x34B0BCB5E19B48A8,
    0x391C0CB3C5C95A63, 0x4ED8AA4AE3418ACB, 0x5B9CCA4F7763E373, 0x682E6FF3D6B2B8A3,
    0x748F82EE5DEFB2FC, 0x78A5636F43172F60, 0x84C87814A1F0AB72, 0x8CC702081A6439EC,
    0x90BEFFFA23631E28, 0xA4506CEBDE82BDE9, 0xBEF9A3F7B2C67915, 0xC67178F2E372532B]

/-- Round constants 64 to 79 of SHA-512. -/
def shaK4 : List W64 :=
  [0xCA273ECEEA26619C, 0xD186B8C721C0C207, 0xEADA7DD6CDE0EB1E, 0xF57D4F7FEE6ED178,
    0x06F067AA72176FBA, 0x0A637DC5A2C898A6, 0x113F9804BEF90DAE, 0x1B710B35131C471B,
    0x28DB77F523047D84, 0x32CAAB7B40C72493, 0x3C9EBE0A15C9BEBC, 0x431D67C49C100D4C,
    0x4CC5D4BECB3E42B6, 0x597F299CFC657E2A, 0x5FCB6FAB3AD6FAEC, 0x6C44198C4A475817]

/-- The 80 round constants of SHA-512. -/
def shaK : List W64 := shaK0 ++ shaK1 ++ shaK2 ++ shaK3 ++ shaK4

/-- The initial hash value of SHA-384. -/
def sha384Init : List W64 :=
  [0xCBBB9D5DC1059ED8, 0x629A292A367CD507, 0x9159015A3070DD17, 0x152FECD8F70E5939,
    0x67332667FFC00B31, 0x8EB44A8768581511, 0xDB0C2E0D64F98FA7, 0x47B5481DBEFA4FA4]

/-- The message schedule of one block, newest word first. -/
def shaSchedule : Nat → List W64 → List W64
  | 0, ws => ws
  | n + 1, ws =>
    let w2 := (ws[1]?).getD 0
    let w7 := (ws[6]?).getD 0
    let w15 := (ws[14]?).getD 0
    let w16 := (ws[15]?).getD 0
    let s0 := w15.rotateRight 1 ^^^ w15.rotateRight 8 ^^^ (w15 >>> 7)
    let s1 := w2.rotateRight 19 ^^^ w2.rotateRight 61 ^^^ (w2 >>> 6)
    shaSchedule n ((s1 + w7 + s0 + w16) :: ws)

/-- One round of SHA-512. -/
def shaRound (v : List W64) (kw : W64 × W64) : List W64 :=
  match v with
  | [a, b, c, d, e, f, g, h] =>
    let s1 := e.rotateRight 14 ^^^ e.rotateRight 18 ^^^ e.rotateRight 41
    let t1 := h + s1 + ((e &&& f) ^^^ (~~~e &&& g)) + kw.1 + kw.2
    let s0 := a.rotateRight 28 ^^^ a.rotateRight 34 ^^^ a.rotateRight 39
    let t2 := s0 + ((a &&& b) ^^^ (a &&& c) ^^^ (b &&& c))
    [t1 + t2, a, b, c, d + t1, e, f, g]
  | l => l

/-- One block of 128 bytes into the hash value. -/
def shaBlock (hv : List W64) (blk : List Byte) : List W64 :=
  let w0 := (List.range 16).map (fun i => BitVec.ofNat 64 (beNat ((blk.drop (8 * i)).take 8)))
  let ws := (shaSchedule 64 w0.reverse).reverse
  List.zipWith (· + ·) hv ((List.zip shaK ws).foldl shaRound hv)

/-- Whole blocks, `n` of them, from the front of a message. -/
def shaBlocks : Nat → List W64 → List Byte → List W64
  | 0, hv, _ => hv
  | n + 1, hv, m => shaBlocks n (shaBlock hv (m.take 128)) (m.drop 128)

/-- SHA-384 of a byte message, 48 bytes. -/
def sha384 (m : List Byte) : List Byte :=
  let z := (111 + 128 - m.length % 128) % 128
  let p := m ++ [0x80] ++ List.replicate z 0 ++ beBytes 16 (8 * m.length)
  ((shaBlocks (p.length / 128) sha384Init p).take 6).flatMap (fun w => beBytes 8 w.toNat)

/-! ### ECDSA over P-384 -/

/-- The field prime of P-384. -/
def p384 : Nat := 2 ^ 384 - 2 ^ 128 - 2 ^ 96 + 2 ^ 32 - 1

/-- The order of the P-384 base point. -/
def p384Order : Nat :=
  0xFFFFFFFFFFFFFFFFFFFFFFFFFFFFFFFFFFFFFFFFFFFFFFFFC7634D81F4372DDF581A0DB248B0A77AECEC196ACCC52973

/-- The coefficient b of P-384. -/
def p384B : Nat :=
  0xB3312FA7E23EE7E4988E056BE3F82D19181D9C6EFE8141120314088F5013875AC656398D8A2ED19D2A85C8EDD3EC2AEF

/-- The base point of P-384. -/
def p384Base : Nat × Nat :=
  (0xAA87CA22BE8B05378EB1C71EF320AD746E1D3B628BA79B9859F741E082542A385502F25DBF55296C3A545E3872760AB7,
    0x3617DE4A96262C6F5D9E98BF9292DC29F8F41DBD289A147CE9DA3113B5F0B8C00A60B1CE1D7E819D7A431D7C90EA0E5F)

/-- Powers modulo m, `n` bits of exponent. -/
def powMod (m : Nat) : Nat → Nat → Nat → Nat
  | 0, _, _ => 1 % m
  | n + 1, b, e =>
    let r := powMod m n (b * b % m) (e / 2)
    if e % 2 = 1 then r * b % m else r

/-- The inverse modulo a prime of at most 384 bits. -/
def invMod (m a : Nat) : Nat := powMod m 384 (a % m) (m - 2)

/-- A point of the curve; none is the point at infinity. -/
abbrev CurvePoint := Option (Nat × Nat)

/-- Subtraction modulo m of reduced numbers. -/
def subMod (m a b : Nat) : Nat := (a + m - b % m) % m

/-- Addition of points of P-384. -/
def p384Add : CurvePoint → CurvePoint → CurvePoint
  | none, q => q
  | p, none => p
  | some (x1, y1), some (x2, y2) =>
    if x1 = x2 ∧ (y1 + y2) % p384 = 0 then none
    else
      let l := if x1 = x2 then (3 * x1 * x1 + (p384 - 3)) * invMod p384 (2 * y1) % p384
        else subMod p384 y2 y1 * invMod p384 (subMod p384 x2 x1) % p384
      let x3 := subMod p384 (subMod p384 (l * l % p384) x1) x2
      some (x3, subMod p384 (l * subMod p384 x1 x3 % p384) y1)

/-- A multiple of a point, `n` bits of factor. -/
def p384Mul : Nat → Nat → CurvePoint → CurvePoint
  | 0, _, _ => none
  | n + 1, k, p =>
    let r := p384Mul n (k / 2) (p384Add p p)
    if k % 2 = 1 then p384Add r p else r

/-- The signature (r, s) over a digest verifies under the public key (x, y) (FIPS 186-5, R256). -/
def ecdsaVerify (x y digest r s : Nat) : Bool :=
  if x < p384 ∧ y < p384 ∧ (x * x * x + (p384 - 3) * x + p384B) % p384 = y * y % p384 ∧ 1 ≤ r ∧ r < p384Order ∧ 1 ≤ s ∧
      s < p384Order then
    let w := invMod p384Order s
    match p384Add (p384Mul 384 (digest * w % p384Order) (some p384Base)) (p384Mul 384 (r * w % p384Order) (some (x, y))) with
    | some (px, _) => px % p384Order == r
    | none => false
  else false

end Sys2Proof.Machine
end

