-- ==== Sys2Proof/Machine/Drbg.lean ====
section
/-! DEFINITION. The on-die generator (R132): CTR_DRBG of NIST SP 800-90A with AES-256 and its derivation function, without
prediction resistance, and the two health tests of NIST SP 800-90B on the samples of the entropy source. The spec names the
standards and does not retell them (PRESUMED, notes/assumptions/7.md); the entropy itself is a free value. -/

namespace Sys2Proof.Machine

/-! ### CTR_DRBG -/

/-- AES-256 of one block given as a number. -/
def aesWord (key : BitVec 256) (x : BitVec 128) : BitVec 128 := BitVec.ofNat 128 (beNat (aes256 key (beBytes 16 x.toNat)))

/-- The chaining function of the derivation function: CBC from zero, its last block. -/
def chainBlocks (key : BitVec 256) (l : List (BitVec 128)) : BitVec 128 := l.foldl (fun c b => aesWord key (c ^^^ b)) 0

/-- The input of the derivation function: lengths, the input, 0x80 and zeros up to whole blocks. -/
def deriveBlocks (input : List Byte) : List (BitVec 128) :=
  let bs := beBytes 4 input.length ++ beBytes 4 48 ++ input ++ [0x80]
  (List.range ((bs.length + 15) / 16)).map (fun i => BitVec.ofNat 128 (beNat (padTo 16 (bs.drop (16 * i)))))

/-- Three blocks as one string of 384 bits. -/
def joinBlocks (a b c : BitVec 128) : BitVec 384 := BitVec.ofNat 384 ((a.toNat * 2 ^ 128 + b.toNat) * 2 ^ 128 + c.toNat)

/-- The key of the derivation function: the bytes 0x00 to 0x1F. -/
def deriveKey : BitVec 256 := BitVec.ofNat 256 (beNat ((List.range 32).map (BitVec.ofNat 8)))

/-- Block_Cipher_df to 384 bits. -/
def derive (input : List Byte) : BitVec 384 :=
  let part (i : Nat) : BitVec 128 := chainBlocks deriveKey (BitVec.ofNat 128 (i * 2 ^ 96) :: deriveBlocks input)
  let k : BitVec 256 := BitVec.ofNat 256 ((part 0).toNat * 2 ^ 128 + (part 1).toNat)
  let x := aesWord k (part 2)
  let y := aesWord k x
  joinBlocks x y (aesWord k y)

/-- CTR_DRBG_Update: three blocks of the counter, under provided data, become the new key and counter. -/
def updateSeed (data : BitVec 384) (d : Drbg) : Drbg :=
  let t := joinBlocks (aesWord d.key (d.v + 1)) (aesWord d.key (d.v + 2)) (aesWord d.key (d.v + 3)) ^^^ data
  { d with key := BitVec.ofNat 256 (t.toNat / 2 ^ 128), v := BitVec.ofNat 128 t.toNat }

/-- A seed from 512 bits of the entropy source. -/
def freshSeed (s : State) : BitVec 384 := derive (beBytes 64 (Config.entropy s.free).toNat)

/-- The DRBG is instantiated, at each start. -/
def instantiate (s : State) : State :=
  drawn { s with drbg := { updateSeed (freshSeed s) { s.drbg with key := 0, v := 0 } with
    instantiated := true, requests := 0, reseedUs := s.tank.clockUs } }

/-- The DRBG is reseeded. -/
def reseed (s : State) : State :=
  drawn { s with drbg := { updateSeed (freshSeed s) s.drbg with requests := 0, reseedUs := s.tank.clockUs } }

/-- The 256 bits that a generate request gives, of which a shorter one takes the first. -/
def outputBits (d : Drbg) : BitVec 256 :=
  BitVec.ofNat 256 ((aesWord d.key (d.v + 1)).toNat * 2 ^ 128 + (aesWord d.key (d.v + 2)).toNat)

/-- One generate request of at most 256 bits; after 1,024 of them the DRBG is reseeded first. -/
def generate (n : Nat) (s0 : State) : BitVec n × State :=
  let s := if 1024 ≤ s0.drbg.requests then reseed s0 else s0
  let d := s.drbg
  let d1 := updateSeed 0 { d with v := if n ≤ 128 then d.v + 1 else d.v + 2 }
  (BitVec.ofNat n ((outputBits d).toNat / 2 ^ (256 - n)), { s with drbg := { d1 with requests := d.requests + 1 } })

/-! ### The health tests -/

/-- The repetition-count test: the run of equal samples with the new one, and whether it reaches the cutoff. -/
def repetitionTest (x : Byte) (d : Drbg) : Bool × Option (Byte × Nat) :=
  match d.repeated with
  | some (a, b) => if a = x then (decide (Config.repetitionCutoff ≤ b + 1), some (a, b + 1)) else (false, some (x, 1))
  | none => (false, some (x, 1))

/-- The adaptive-proportion test over windows of 512 samples: whether the first sample of the window comes as often as the
cutoff, and the window with the new sample. -/
def proportionTest (x : Byte) (d : Drbg) : Bool × Option (Byte × Nat × Nat) :=
  match d.proportion with
  | none => (false, some (x, 1, 511))
  | some (a, b, left) =>
    let b1 := if a = x then b + 1 else b
    (a = x && decide (Config.proportionCutoff ≤ b1), if left ≤ 1 then none else some (a, b1, left - 1))

/-- A sample fails a health test. -/
def sampleFails (x : Byte) (d : Drbg) : Bool := (repetitionTest x d).1 || (proportionTest x d).1

/-- The tests have taken a sample in. -/
def testedSample (x : Byte) (d : Drbg) : Drbg := { d with repeated := (repetitionTest x d).2, proportion := (proportionTest x d).2 }

end Sys2Proof.Machine
end

