-- ==== Sys2Proof/Machine/BlackBox.lean ====
section
/-! DEFINITION. Fault-log records (R345), OTP words as the device uses them (R354), the unit record (R305) and the
black box (R346, R379). -/

namespace Sys2Proof.Machine

/-- A record slot that nothing has been written to (R345 reset values). -/
def FaultRecord.zero : FaultRecord :=
  { msg := { source := 0, kind := 0, cls := 0, severity := 0, addr := 0, ownEntry := false, detail := 0 }, minute := 0, usec := 0, number := 0, phase := 0,
    valid := false, journaled := false, eventSent := false, notAnchored := false, unsync := false,
    journalSeq := 0xFFFFFFFFFFFFFFFF }

/-- The 32 bytes of a fault-log record (R345). -/
def recordBytes (r : FaultRecord) : List Byte :=
  beBytes 8 (faultWord r.msg).toNat ++ beBytes 4 r.minute.toNat ++ beBytes 4 r.usec ++ beBytes 4 r.number.toNat ++
    beBytes 4 (r.phase.toNat * 2 ^ 24 + bit r.valid 23 + bit r.journaled 22 + bit r.eventSent 21 +
      bit r.notAnchored 20 + bit r.unsync 19) ++ beBytes 8 r.journalSeq.toNat

/-- An OTP word as it is used: zero while it is marginal (R354). -/
def otpWord (s : State) (i : Nat) : BitVec 32 :=
  let r := Map.get { data := 0, marginal := false } i s.otp.read
  if r.marginal then 0 else r.data

/-- The 64-bit device ID: OTP words 16 and 17 (R376). -/
def deviceId (s : State) : Nat := (otpWord s 16).toNat * 2 ^ 32 + (otpWord s 17).toNat

/-- The device ID can match something: none of its words is marginal (R354). -/
def idMatches (s : State) : Bool := !(Map.get { data := 0, marginal := false } 16 s.otp.read).marginal && !(Map.get { data := 0, marginal := false } 17 s.otp.read).marginal

/-- Safe state as the fault log shows it: 0 none, 1 stop, 2 lock (R344). -/
def safeState (s : State) : BitVec 2 := s.churn.safe

/-- A slot of the recent records (R379). -/
def recentBytes (s : State) (i : Nat) : List Byte :=
  match s.churn.recent.find? (fun e => e.1 = i) with
  | some e => recordBytes e.2
  | none => List.replicate 32 0

/-- The first 64 bytes of the black box: the beacon's payload (R316, R379). -/
def blackBoxHead (s : State) : List Byte :=
  let c := s.churn
  let id := beBytes 8 (deviceId s)
  let cause := match c.causeMsg with
    | some m => (faultWord m).toNat
    | none => 0
  beBytes 4 (startWord s).toNat ++ beBytes 1 s.otp.life.toNat ++
    beBytes 3 ((safeState s).toNat * 2 ^ 22 + s.tank.addr.toNat) ++ id ++
    beBytes 4 s.tank.boxTime.1.toNat ++ beBytes 4 s.tank.boxTime.2 ++ beBytes 8 cause ++ beBytes 4 c.causeMinute.toNat ++
    beBytes 4 c.causeUsec ++ beBytes 4 c.cause.toNat ++ beBytes 4 c.next.toNat ++ beBytes 4 c.ucCount.toNat ++
    beBytes 4 c.ftCount.toNat ++ beBytes 4 c.ceCount.toNat ++ beBytes 4 c.ceDropped.toNat

/-- The black box up to its last record slot; the rest reads as zeros (R379). -/
def blackBox (s : State) : List Byte :=
  let first := match s.churn.firstFt with
    | some r => recordBytes r
    | none => List.replicate 32 0
  blackBoxHead s ++ first ++ beBytes 4 s.churn.recentCount.toNat ++ List.replicate 28 0 ++
    ((List.range 32).map (recentBytes s)).flatten

/-- The 16-byte unit record with its Position and whether this frame gave the address (R305). -/
def unitRecord (position : Nat) (taken : Bool) (s : State) : List Byte :=
  let t := s.tank
  beBytes 1 t.addr.toNat ++ beBytes 1 position ++ [t.phase] ++
    beBytes 1 (bit s.pins.head 0 + bit taken 1 + bit t.mismatch 2 + bit t.addrFromBmc 3) ++ [s.otp.life, 0, 0, 0] ++
    beBytes 8 (deviceId s)

end Sys2Proof.Machine
end

