-- ==== Sys2Proof/Machine/OtpOps.lean ====
section
/-! DEFINITION. The OTP array as it is read (R351 to R355): the margin read, sections, fuse groups, repair and patch
entries (R349, R359, R360, R362), and the hashes it holds. -/

namespace Sys2Proof.Machine

/-- The 39 bits of a word that holds `d`: check bits above the data; all zeros for zero (R352). -/
def otpCode (d : BitVec 32) : BitVec 39 :=
  if d = 0 then 0 else BitVec.ofNat 39 ((Config.otpCheck d).toNat * 2 ^ 32 + d.toNat)

/-- What three reads at the margin references give (R352, R353): the data at the normal reference, and whether the word
is marginal. -/
def readWord (cells lost gained : BitVec 39) : OtpRead :=
  let low := cells &&& ~~~lost
  let high := cells ||| gained
  let d : BitVec 32 := cells.setWidth 32
  { data := d, marginal := decide (low ≠ cells) || decide (high ≠ cells) || decide (cells ≠ otpCode d) }

/-- A read word that is unprogrammed: valid with data 0 (R352). -/
def OtpRead.zero : OtpRead := { data := 0, marginal := false }

/-- The margin read of all 2,048 words (R353). `weak` names the words with a bit that a margin reference misreads. -/
def marginRead (weak : List WeakWord) (cells : Table (BitVec 39)) : Table OtpRead :=
  let words := cells.map (fun e => e.1) ++ weak.map (fun w => w.word.val)
  words.foldl (fun t w =>
    let k := weak.find? (fun x => x.word.val = w)
    let r := readWord (Map.get 0 w cells) ((k.map (fun x => x.lost)).getD 0) ((k.map (fun x => x.gained)).getD 0)
    Map.set OtpRead.zero w r t) []

/-- A word as it was read at the last start. -/
def otpRead (s : State) (w : Nat) : OtpRead := Map.get OtpRead.zero w s.otp.read

/-- The word is valid and holds `d` (R352). -/
def otpIs (s : State) (w d : Nat) : Bool := !(otpRead s w).marginal && (otpRead s w).data.toNat = d

/-- The word reads as unprogrammed. -/
def otpEmpty (s : State) (w : Nat) : Bool := otpIs s w 0

/-- A group's fuse value (R349). -/
def fuseValue (g : Nat) : Nat := 0x4C430000 + g + 1

/-- Group g counts as blown (R349). -/
def groupBlown (s : State) (g : Nat) : Bool :=
  (List.range 4).any (fun i => (otpRead s (4 * g + i)).marginal || otpIs s (4 * g + i) (fuseValue g))

/-- The state that the fuse groups give (R349). -/
def fuseState (s : State) : Nat :=
  if groupBlown s 3 then 4 else if groupBlown s 2 then 3 else if groupBlown s 1 then 2 else if groupBlown s 0 then 1 else 0

/-- A life-cycle word is valid and holds a foreign value (R349). -/
def foreignFuse (s : State) : Bool :=
  (List.range 16).any (fun w => !(otpRead s w).marginal && (otpRead s w).data ≠ 0 &&
    (otpRead s w).data.toNat ≠ fuseValue (w / 4))

/-- A blown group lies above an unblown one (R349). -/
def fuseGap (s : State) : Bool :=
  (List.range 4).any (fun g => groupBlown s g && (List.range g).any (fun h => !groupBlown s h))

/-- State of section k: 0 open, 1 sealed and complete, 2 sealed and incomplete (R355). -/
def sectionState (s : State) (k : Nat) : Nat :=
  if otpEmpty s (1953 + 2 * k) then 0
  else if otpIs s (1952 + 2 * k) (0xC0DE0000 + k) then 1 else 2

/-- The section of a word, seal words included (R351); none for life-cycle and reserved words. -/
def sectionOf (w : Nat) : Option Nat :=
  if w < 16 then none
  else if w < 80 then some 0
  else if w < 96 then some 1
  else if w < 160 then some (2 + (w - 96) / 16)
  else if w < 1696 then some 6
  else if w < 1952 then some 7
  else if w < 1968 then some ((w - 1952) / 2)
  else none

/-- A 48-byte hash in words `w` to `w + 11`; none while one of them is marginal (R354). -/
def otpHash (s : State) (w : Nat) : Option (List Byte) :=
  if (List.range 12).any (fun i => (otpRead s (w + i)).marginal) then none
  else some (((List.range 12).map (fun i => beBytes 4 (otpRead s (w + i)).data.toNat)).flatten)

/-- The signer key hashes that may verify a signature: sections sealed and complete (R355). -/
def signerHashes (s : State) : List (List Byte) :=
  (List.range 4).filterMap (fun k => if sectionState s (2 + k) = 1 then otpHash s (96 + 16 * k) else none)

/-- A signature section body of R256 verifies over a message: Algorithm 0x01, a key whose SHA-384 a signer hash
equals, and an ECDSA P-384 signature over the message's SHA-384. -/
def signatureValid (s : State) (body msg : List Byte) : Bool :=
  let key := (body.drop 4).take 96
  field body 0 4 = 0x01000000 && decide (body.length = 196) && (signerHashes s).contains (sha384 key) &&
    ecdsaVerify (beNat (key.take 48)) (beNat (key.drop 48)) (beNat (sha384 msg)) (field body 100 48) (field body 148 48)

/-! ### Repair entries (R359, R360) -/

/-- The element that a repair entry replaces: type, channel, bank, and row, column group or lane. -/
def repairElement (e : Nat) : Nat × Nat × Nat × Nat :=
  let ty := bits e 31 30
  (ty, bits e 29 24, bits e 23 19,
    if ty = 1 then bits e 18 4 else if ty = 2 then bits e 18 8 else bits e 18 12)

/-- The spare that a repair entry takes, within its type, channel and bank. -/
def repairSpare (e : Nat) : Nat :=
  let ty := bits e 31 30
  if ty = 1 then bits e 3 0 else if ty = 2 then bits e 7 5 else bits e 11 10

/-- The fields of a repair entry lie in range, and those its type does not name are zero (R359). -/
def repairFieldsOk (e : Nat) : Bool :=
  let ty := bits e 31 30
  if ty = 1 then true
  else if ty = 2 then decide (bits e 14 8 ≤ 71) && bits e 4 0 = 0
  else if ty = 3 then decide (bits e 18 12 ≤ 71) && bits e 23 19 = 0 && bits e 9 0 = 0
  else false

/-- One entry of the load (R360): the entries taken so far, in ascending word order, and the count of ignored ones. A spare that a lower
entry has taken for another element stays taken, even where a later entry has overridden that entry. -/
def loadRepair (s : State) (acc : List Nat × Nat) (w : Nat) : List Nat × Nat :=
  let r := otpRead s w
  let e := r.data.toNat
  let el := repairElement e
  let taken := acc.1.any (fun x =>
    repairElement x ≠ el && (repairElement x).1 = el.1 && (repairElement x).2.1 = el.2.1 && (repairElement x).2.2.1 = el.2.2.1 &&
      repairSpare x = repairSpare e)
  if !r.marginal && bits e 31 30 = 0 then acc
  else if r.marginal || !repairFieldsOk e || isRetired s el.2.1 || taken then (acc.1, acc.2 + 1)
  else (acc.1 ++ [e], acc.2)

/-- The entries in force: for each element the highest one taken. -/
def inForce (l : List Nat) : List Nat :=
  (l.zipIdx.filter (fun x => !(l.drop (x.2 + 1)).any (fun y => repairElement y = repairElement x.1))).map (fun x => x.1)

/-- The repair words that hold anything. -/
def repairWords (s : State) : List Nat :=
  (s.otp.read.map (fun e => e.1)).filter (fun w => decide (160 ≤ w) && decide (w < 1696))

/-- The hard repairs in use and the number of entries ignored (R360). -/
def hardRepairs (s : State) : List Nat × Nat :=
  let r := (repairWords s).foldl (loadRepair s) ([], 0)
  (inForce r.1, r.2)

/-! ### ROM patches (R362) -/

/-- Entry e is used: a replace or a jump. -/
def patchUsed (s : State) (e : Nat) : Bool :=
  let w (i : Nat) : OtpRead := otpRead s (1696 + 4 * e + i)
  (List.range 4).all (fun i => !(w i).marginal) && (w 3).data = ~~~(w 0).data && (bits (w 0).data.toNat 31 30 = 1 || bits (w 0).data.toNat 31 30 = 2) &&
    bits (w 2).data.toNat 31 16 = Config.romRevision.toNat

/-- Entry e holds any non-zero word. -/
def patchPresent (s : State) (e : Nat) : Bool :=
  (List.range 4).any (fun i => (otpRead s (1696 + 4 * e + i)).marginal || (otpRead s (1696 + 4 * e + i)).data ≠ 0)

/-- The patches of one type, 1 replace or 2 jump: of used entries that match one ROM address the highest stands. -/
def patchesOf (s : State) (ty : Nat) : List RomPatch :=
  let w (e i : Nat) : BitVec 32 := (otpRead s (1696 + 4 * e + i)).data
  let used := (List.range 64).filter (patchUsed s)
  (used.filter (fun e => bits (w e 0).toNat 31 30 = ty && !used.any (fun g => decide (e < g) && (w g 0).setWidth 16 = (w e 0).setWidth 16))).map
    (fun e => { addr := (w e 0).setWidth 16, target := if ty = 2 then w e 1 &&& 0x3FFF else w e 1 })

/-- Patch entries in use and entries skipped that hold something. -/
def patchCounts (s : State) : Nat × Nat :=
  (((List.range 64).filter (patchUsed s)).length,
   ((List.range 64).filter (fun e => !patchUsed s e && patchPresent s e)).length)

end Sys2Proof.Machine
end

