-- ==== Sys2Proof/Machine/ChainOps.lean ====
section
/-! DEFINITION. What every chain command shares (R288 to R316): sending and acknowledging frames, the receive checks 5
to 7 of R295, RESPONSEs and the repeat cache (R307, R309), gating by phase, life cycle and signature (R50, R311, R313),
and the journal entry of an accepted command (R322). -/

namespace Sys2Proof.Machine

/-! ### Ports -/

/-- A chain port. -/
def getCPort (s : State) : ChainPort → CPort
  | .chu => s.chain.chu
  | .chd => s.chain.chd

/-- Writes a chain port. -/
def setCPort (p : ChainPort) (v : CPort) (s : State) : State :=
  match p with
  | .chu => { s with chain := { s.chain with chu := v } }
  | .chd => { s with chain := { s.chain with chd := v } }

/-- The other port. -/
def otherPort : ChainPort → ChainPort
  | .chu => .chd
  | .chd => .chu

/-- The number of a port: the Port bit of R301 and the source ID 0x070 or 0x071. -/
def chainIndex : ChainPort → Nat
  | .chu => 0
  | .chd => 1

/-- The source ID of a chain port (R333). -/
def chainSource (p : ChainPort) : Nat := 0x070 + chainIndex p

/-- The conditions of quiet-link mode (R289). -/
def quietWanted (s : State) (c : CPort) : Bool :=
  c.partnerUnit && (match s.plans.plan with | some p => p.chainFlags.getLsbD 0 | none => false)

/-- At an idle period the transmitter takes the mode that R289 gives. -/
def settleQuiet (p : ChainPort) (s : State) : State :=
  let c := getCPort s p
  if c.queue = [] then
    setCPort p { c with quiet := quietWanted s c, driverOn := c.driverOn || (c.up && !quietWanted s c) } s
  else s

/-- The 24-byte chain header (R293). -/
def chainHeaderBytes (f : ChainFrame) : List Byte :=
  beBytes 1 (f.version.toNat * 16 + f.ftype.toNat) ++ [f.flags, f.dest, f.source, f.hops, f.code] ++ beBytes 2 f.seq.toNat ++
    beBytes 4 f.addr.toNat ++ beBytes 2 f.length.toNat ++ [f.status, 0] ++ beBytes 4 f.tag.toNat ++ [0, 0, 0, 0]

/-- A chain frame before its FCS (R292): MAC addresses, ethertype, header, payload, CRC-32C, zeros up to 60 bytes. -/
def chainBody (p : ChainPort) (unit : Byte) (f : ChainFrame) : List Byte :=
  let covered := chainHeaderBytes f ++ f.payload
  let l := [0x03, 0x4F, 0x4C, 0x55, 0x54, 0x00, 0x02, 0x4F, 0x4C, 0x55, unit, BitVec.ofNat 8 (chainIndex p), 0x88, 0xB5] ++ covered ++
    beBytes 4 (crc32c covered).toNat
  l ++ List.replicate (60 - l.length) 0

/-- A chain frame as it leaves a port (R292): the FCS of Ethernet stands least significant byte first (PRESUMED,
notes/assumptions/93.md). -/
def chainWire (p : ChainPort) (unit : Byte) (f : ChainFrame) : List Byte :=
  let l := chainBody p unit f
  l ++ (beBytes 4 (crc32 l).toNat).reverse

/-- A frame leaves a port with the unit's own source MAC and a CRC-32C of its own (R292, R293); a driver that is off is woken first
(R290). -/
def emit (p : ChainPort) (f : ChainFrame) (s : State) : State :=
  let c := getCPort s p
  if !c.up then s
  else
    let s1 := if c.driverOn then s else chainPortCount p 0x28 (setCPort p { c with driverOn := true } s)
    { s1 with chainSent := { port := p, frame := f, wire := chainWire p (s.tank.addr.setWidth 8) f } :: s1.chainSent }

/-- Sends frames from the queue while fewer than 16 await acknowledgement (R297, R299); `n` bounds the frames. -/
def pump (p : ChainPort) : Nat → State → State
  | 0, s => s
  | n + 1, s =>
    let c := getCPort s p
    match c.queue with
    | [] => settleQuiet p s
    | f :: rest =>
      if c.up && decide (c.awaiting.length < 16) then
        pump p n (emit p f (setCPort p { c with queue := rest, awaiting := c.awaiting ++ [{ frame := f, sends := 1 }] } s))
      else s

/-- A frame joins a port's transmit queue of 64 (R297), counted at `off` of the port record; false when it found no
place. -/
def enqueue (p : ChainPort) (f : ChainFrame) (off : Nat) (s : State) : Bool × State :=
  let c := getCPort s p
  if !c.up then (false, s)
  else if 64 ≤ c.queue.length then (false, chainPortCount p 0x38 s)
  else (true, pump p 65 (chainPortCount p off (setCPort p { c with queue := c.queue ++ [f] } s)))

/-- The hop of a port becomes broken; kind 0x15 for the transition (R299, R301). -/
def breakHop (p : ChainPort) (unit : Nat) (s : State) : State :=
  let c := getCPort s p
  if c.broken then s
  else raise (chainSource p) 0x15 (unit * 256 + chainIndex p) (setCPort p { c with broken := true } s)

/-- READ, WRITE and COMMAND: the requests (R294). -/
def isRequest (f : ChainFrame) : Bool := f.ftype = 1 || f.ftype = 2 || f.ftype = 3

/-! ### Receiving (R295, R298, R300) -/

/-- The port can receive frames: its link is up and its receiver has block lock (R291). -/
def canReceive (c : CPort) : Bool := c.up && (c.rx = .continuous || c.rx = .locked)

/-- The hop ACK of a frame (R298). -/
def hopAckOf (f : ChainFrame) : ChainFrame :=
  { version := 1, ftype := 8, flags := 0x80, dest := 0, source := f.source, hops := 0, code := f.ftype.setWidth 8,
    seq := f.seq, addr := 0, length := 0, status := 0, tag := 0, payload := [] }

/-- What R300 remembers of a frame. -/
def hopKey (f : ChainFrame) : Nat × Nat × Nat := (f.ftype.toNat, f.source.toNat, f.seq.toNat)

/-- The frame is acknowledged and remembered (R298, R300). -/
def ackFrame (p : ChainPort) (f : ChainFrame) (s : State) : State :=
  let s1 := chainPortCount p 0x1C (emit p (hopAckOf f) s)
  let c := getCPort s1 p
  setCPort p { c with recent := (hopKey f, s1.tank.clockUs) :: c.recent.take 63 } s1

/-- The frame was acknowledged on this port within the last 100 µs (R300). -/
def hopRepeat (s : State) (p : ChainPort) (f : ChainFrame) : Bool :=
  (getCPort s p).recent.any (fun e => e.1 = hopKey f && decide (s.tank.clockUs < e.2 + 100))

/-- A type of R294. -/
def knownType (f : ChainFrame) : Bool := decide (1 ≤ f.ftype.toNat) && decide (f.ftype.toNat ≤ 8)

/-- Checks 5 to 7 of R295 on a frame that passed 1 to 4: whether it goes on to R296, and the state. A frame that is
dropped here has been acknowledged as the table gives. -/
def receive (p : ChainPort) (f : ChainFrame) (s : State) : Bool × State :=
  if f.version ≠ 1 || !knownType f then
    let s1 := chainPortCount p 0x14 s
    (false, if f.ftype = 8 then s1 else ackFrame p f s1)
  else
    let c := getCPort s p
    let s0 := if f.flags.getLsbD 7 then setCPort p { c with partnerUnit := true } s else s
    if f.ftype = 8 then (true, chainPortCount p 0x08 s0)
    else if hopRepeat s0 p f then (false, ackFrame p f (chainPortCount p 0x3C s0))
    else if decide (63 ≤ f.hops.toNat) || (s0.tank.addr ≠ 0 && decide (f.source.toNat = s0.tank.addr.toNat)) then
      (false, ackFrame p f (chainPortCount p 0x14 s0))
    else
      let s1 := chainPortCount p 0x08 s0
      (true, setCPort p { getCPort s1 p with broken := false } s1)

/-! ### Responses (R307 to R309, R315) -/

/-- A RESPONSE to a request (R307); `hw` sets the from-hardware flag. -/
def responseOf (s : State) (f : ChainFrame) (status : Byte) (payload : List Byte) (hw : Bool) : ChainFrame :=
  { version := 1, ftype := 4, flags := 0x80 ||| (f.flags &&& 0x40) ||| (if hw then 0x08 else 0), dest := f.source,
    source := s.tank.addr.setWidth 8, hops := 0, code := f.code, seq := f.seq, addr := f.addr,
    length := BitVec.ofNat 16 payload.length, status := status, tag := f.tag, payload := payload }

/-- The port a RESPONSE leaves by: the one the request came on, or the other when that hop is broken or down (R307). -/
def responsePort (s : State) (p : ChainPort) : ChainPort :=
  let a := getCPort s p
  let b := getCPort s (otherPort p)
  if (!a.up || a.broken) && b.up && !b.broken then otherPort p else p

/-- Answers a request: the RESPONSE enters the repeat cache unless its status is 0x10 (R309), and leaves. -/
def answer (p : ChainPort) (f : ChainFrame) (status : Byte) (payload : List Byte) (hw : Bool) (s : State) : State :=
  let r := responseOf s f status payload hw
  let s1 := if status = 0x10 then s
    else { s with chain := { s.chain with cache := (f.seq, r, s.tank.clockUs) :: s.chain.cache.take 255 } }
  (enqueue (responsePort s1 p) r 0x1C s1).2

/-- Status 0x20, path broken: sent back out the port the request arrived on (R296). -/
def answerBroken (p : ChainPort) (f : ChainFrame) (s : State) : State :=
  let r := enqueue p (responseOf s f 0x20 [] true) 0x1C s
  if r.1 then chainPortCount p 0x40 r.2 else r.2

/-- The stored RESPONSE of a request seen within 2 s (R309). -/
def cachedResponse (s : State) (seq : BitVec 16) : Option ChainFrame :=
  (s.chain.cache.find? (fun e => e.1 = seq && decide (s.tank.clockUs < e.2.2 + 2000000))).map (fun e => e.2.1)

/-- The stored RESPONSE is sent once more, marked as repeated, out the port the repeat arrived on (R309). -/
def answerRepeat (p : ChainPort) (r : ChainFrame) (s : State) : State :=
  (enqueue p { r with flags := r.flags ||| 0x10 } 0x1C (chainCount 0x04 1 s)).2

/-- A detail word (R308). -/
def detail (n : Nat) : List Byte := beBytes 4 n

/-! ### Forwarding (R296, R297) -/

/-- Sends a frame on out the other port with Hop count raised and Flags rewritten: whether it may be acknowledged. A
request whose way out is down is answered with status 0x20; another frame is discarded. -/
def forwardFrame (p : ChainPort) (f : ChainFrame) (s : State) : Bool × State :=
  let o := otherPort p
  if !(getCPort s o).up then (true, if isRequest f then answerBroken p f s else chainPortCount p 0x14 s)
  else enqueue o { f with hops := f.hops + 1, flags := (f.flags &&& 0xDF) ||| 0x80 } 0x18 s

/-- The frame is addressed to this unit alone (R296). -/
def ownFrame (s : State) (f : ChainFrame) : Bool := s.tank.addr ≠ 0 && decide (f.dest.toNat = s.tank.addr.toNat)

/-- The frame is for every unit. -/
def broadcast (f : ChainFrame) : Bool := f.dest = 63

/-! ### Requests and commands -/

/-- A request that this unit acts on: addressed to it from Source 0, or a broadcast ANCHOR, TRIM or SNAPSHOT while it
holds an address (R296, R310). -/
def actedOn (s : State) (f : ChainFrame) : Bool :=
  f.source = 0 && isRequest f &&
    (ownFrame s f ||
      (broadcast f && s.tank.addr ≠ 0 && f.ftype = 3 && (f.code = 0x01 || f.code = 0x02 || f.code = 0x09)))

/-- Takes a request through R295, R297 and R309 and runs it: `act` gives the state with the RESPONSE sent. A broadcast
is forwarded as well; it is acknowledged once it has its place in the outgoing queue. -/
def runRequest (p : ChainPort) (f : ChainFrame) (act : State → State) (s : State) : State :=
  if !canReceive (getCPort s p) then s
  else
    let r := receive p f s
    if !r.1 then r.2
    else
      let w := if broadcast f then forwardFrame p f r.2 else (true, r.2)
      if !w.1 then w.2
      else
        let s1 := ackFrame p f w.2
        match cachedResponse s1 f.seq with
        | some c => answerRepeat p c s1
        | none => act s1

/-- What a command's own rule answers: status, RESPONSE payload or detail word, and the state it leaves. A refused
command leaves the state it found. -/
structure Reply where
  status : Byte
  payload : List Byte
  st : State

/-- The payload lengths of R311. -/
def commandLength (code : Byte) : Nat :=
  match code.toNat with
  | 0x01 | 0x03 | 0x09 => 8
  | 0x02 | 0x04 | 0x06 | 0x07 | 0x08 => 4
  | 0x05 => 12
  | 0x0A => 212
  | 0x0B => 204
  | 0x0C => 200
  | _ => 0

/-- Life-cycle gating (R313): 0 open, 1 signed, 2 status 0x14. -/
def lifeGate (life code : Byte) : Nat :=
  if code.toNat < 0x0A then 0
  else if life = 4 then 2
  else if life = 0 && code = 0x0A then 2
  else if life = 2 || life = 3 then 1 else 0

/-- A fresh challenge is drawn from the DRBG (R313). -/
def drawChallenge (s : State) : State :=
  let r := generate 128 s
  { r.2 with chain := { r.2.chain with challenge := r.1 } }

/-- The signed message of R313. -/
def signedMessage (s : State) (f : ChainFrame) : List Byte :=
  beBytes 8 (deviceId s) ++ beBytes 16 s.chain.challenge.toNat ++ [f.code] ++ f.payload.take (f.payload.length - 196)

/-- The authorisation block of a command is valid (R313); over a device ID with a marginal word none is (R354). -/
def authorised (s : State) (f : ChainFrame) : Bool :=
  idMatches s && signatureValid s (f.payload.drop (f.payload.length - 196)) (signedMessage s f)

/-- The payload before any authorisation block. -/
def commandFields (f : ChainFrame) : List Byte :=
  if 0x0A ≤ f.code.toNat then f.payload.take (f.payload.length - 196) else f.payload

/-- The type 0x10 entry of an accepted command (R323). -/
def journalCommand (f : ChainFrame) (status : Byte) (resp : List Byte) (s : State) : State :=
  journalEvent 0x080 0x10 status.toNat
    ([f.code, f.source] ++ beBytes 2 f.seq.toNat ++ beBytes 4 f.tag.toNat ++ padTo 24 (commandFields f) ++ padTo 8 resp) s

/-- The detail word of a command that its life-cycle state forbids (R308): for LIFECYCLE_ADVANCE the reason code of R350, and END has no
next state; the spec names none for the others. -/
def forbiddenDetail (s : State) (f : ChainFrame) : Nat :=
  if f.code = 0x0C && s.otp.life = 4 then 1 else (Config.statusDetail s.free).toNat

/-- The body of a command once the core has it: phase (R50), Length (R311), life cycle and signature (R313), its own
rule, and the journal entry when it is accepted. A signed command has its challenge drawn anew whatever becomes of it. The entry joins the
queue before the command takes its effect, so the entries of its effect follow it. -/
def commandBody (p : ChainPort) (f : ChainFrame) (rule : State → Reply) (s0 : State) : State :=
  let g := lifeGate s0.otp.life f.code
  let s := if g = 1 then drawChallenge s0 else s0
  if !coreRuns s0 then answer p f 0x21 [] true s0
  else if !commandPhase s.tank.phase f.code then answer p f 0x10 [] false s
  else if f.payload.length ≠ commandLength f.code ∨ f.length.toNat ≠ f.payload.length then
    answer p f 0x13 (detail (Config.statusDetail s.free).toNat) false (drawn s)
  else if g = 2 then answer p f 0x14 (detail (forbiddenDetail s f)) false (drawn s)
  else if g ≠ 0 && !authorised s0 f then answer p f 0x15 [] false (chainCount 0x08 1 s)
  else
    let r := rule s
    if r.status = 0x00 ∨ r.status = 0x01 then
      let r2 := rule (journalCommand f r.status r.payload s)
      answer p f r.status r.payload false r2.st
    else answer p f r.status r.payload false r.st

/-- A COMMAND frame with code `code` that this unit acts on; any other frame is not this command, and nothing happens. -/
def runCommand (code : Byte) (p : ChainPort) (f : ChainFrame) (rule : State → Reply) (s : State) : State :=
  if f.ftype = 3 && f.code = code && actedOn s f then runRequest p f (commandBody p f rule) s else s

/-- Refuses with a condition's number (R308). -/
def refuse (n : Nat) (s : State) : Reply := { status := 0x11, payload := detail n, st := s }

/-- Malformed: the payload offset of the first bad field (R308). -/
def malformed (o : Nat) (s : State) : Reply := { status := 0x13, payload := detail o, st := s }

/-- Done (0x00) with a payload. -/
def done (payload : List Byte) (s : State) : Reply := { status := 0x00, payload := payload, st := s }

/-- Accepted (0x01): the work completes later. -/
def accepted (payload : List Byte) (s : State) : Reply := { status := 0x01, payload := payload, st := s }

/-! ### EVENT frames (R314) -/

/-- An EVENT of the unit: its own sequence number, sent out both ports that are up. -/
def sendEvent (kind : Byte) (addr : BitVec 32) (payload : List Byte) (hw : Bool) (s : State) : State :=
  let f : ChainFrame :=
    { version := 1, ftype := 5, flags := if hw then 0x88 else 0x80, dest := 0, source := s.tank.addr.setWidth 8, hops := 0,
      code := kind, seq := s.chain.ownSeq, addr := addr, length := BitVec.ofNat 16 payload.length, status := 0, tag := 0,
      payload := payload }
  let s1 := { s with chain := { s.chain with ownSeq := s.chain.ownSeq + 1 } }
  (enqueue .chd f 0x1C (enqueue .chu f 0x1C s1).2).2

end Sys2Proof.Machine
end

