-- ==== Sys2Proof/Machine/Chain.lean ====
section
/-! DEFINITION. The commands of the chain link: coming up and going down (R288, R299), quiet link (R290, R291), frames
that are rejected or forwarded (R295, R296), hop acknowledgement (R298, R299), unit addresses (R303 to R305), repeats
(R309), the beacon (R316) and unknown commands (R308). A received frame is given to the one command that names what it
is (notes/assumptions/6.md). -/

namespace Sys2Proof.Machine

/-- The chain ports can run: POR_N is high, the island PLLs have locked, REFCLK is present (R44, R50). -/
def chainRuns (s : State) : Bool := porHigh s && s.pins.pllLocked && s.pins.refclkOk

/-- The receiver measures its eye while it is locked (R318): free values. -/
def measureEye (p : ChainPort) (s : State) : State :=
  let e := Config.eye s.free
  drawn (setCPort p { getCPort s p with eyeHeight := e.1, eyeWidth := e.2 } s)

/-- CHAIN_LINK_UP (R288, R289): training has completed and block lock holds; the transmitter runs continuously until the
partner has shown itself a unit. A broken hop stays broken until a frame comes (R299). -/
def execChainLinkUp (p : ChainPort) (s : State) : Host.Outcome State Fault Refusal :=
  let c := getCPort s p
  if c.up || !chainRuns s then .next s
  else .next (measureEye p (chainPortCount p 0x04
    (setCPort p { c with up := true, partnerUnit := false, quiet := false, driverOn := true, rx := .continuous } s)))

/-- Frames that a port gives up: requests are answered with status 0x20 the way they came (R296, R299). -/
def failFrames (p : ChainPort) (l : List ChainFrame) (s : State) : State :=
  forEach l (fun f t => if isRequest f then answerBroken (otherPort p) f t else t) s

/-- A port's link goes down: its hop breaks with kind 0x15, and its frames are given up (R299). -/
def linkDown (p : ChainPort) (s : State) : State :=
  let c := getCPort s p
  let s1 := breakHop p 0 s
  let s2 := setCPort p { getCPort s1 p with up := false, quiet := false, driverOn := false, rx := .continuous, queue := [],
                                            awaiting := [], retryUs := s.tank.clockUs } s1
  failFrames p (c.awaiting.map (fun a => a.frame) ++ c.queue) s2

/-- CHAIN_LINK_DOWN (R289, R291, R299). -/
def execChainLinkDown (p : ChainPort) (s : State) : Host.Outcome State Fault Refusal :=
  if (getCPort s p).up then .next (linkDown p s) else .next s

/-- CHAIN_LINK_RETRY (R288): a port that is down starts another attempt. -/
def execChainLinkRetry (p : ChainPort) (s : State) : Host.Outcome State Fault Refusal :=
  let c := getCPort s p
  if c.up || !chainRuns s then .next s else .next (setCPort p { c with retryUs := s.tank.clockUs } s)

/-- ENUMERATE on CHD, CONFIRM on CHU: discarded and counted (R303, R305). -/
def wrongWay (p : ChainPort) (f : ChainFrame) : Bool := (p = .chd && f.ftype = 6) || (p = .chu && f.ftype = 7)

/-- CHAIN_FRAME_REJECT (R295, R296): the first failed check decides; a frame that passes them but that this unit does not
act on is discarded and counted, or consumed without effect. -/
def execChainFrameReject (p : ChainPort) (rx : RxChain) (s : State) : Host.Outcome State Fault Refusal :=
  let f := rx.frame
  if !canReceive (getCPort s p) then .next s
  else if !rx.fcsOk then .next (chainPortCount p 0x0C s)
  else if !(rx.macOk && rx.lengthOk) then .next (chainPortCount p 0x14 s)
  else if !rx.crcOk then .next (raiseLimited (chainSource p) 0x14 (chainIndex p) (chainPortCount p 0x10 s))
  else
    let r := receive p f s
    if !r.1 then .next r.2
    else if wrongWay p f || (ownFrame s f && isRequest f && f.source ≠ 0) then
      .next (ackFrame p f (chainPortCount p 0x14 r.2))
    else if ownFrame s f && (f.ftype = 4 || f.ftype = 5) then .next (ackFrame p f r.2)
    else .next s

/-- CHAIN_FRAME_FORWARD (R296, R297, R310): a frame for another unit is sent on; a broadcast that this unit does not act
on is sent on and, when it is a request, discarded here. -/
def execChainFrameForward (p : ChainPort) (f : ChainFrame) (s : State) : Host.Outcome State Fault Refusal :=
  if !canReceive (getCPort s p) || f.ftype = 6 || f.ftype = 7 || f.ftype = 8 || ownFrame s f ||
      (broadcast f && actedOn s f) then .next s
  else
    let r := receive p f s
    if !r.1 then .next r.2
    else
      let w := forwardFrame p f r.2
      if !w.1 then .next w.2
      else .next (ackFrame p f (if broadcast f && isRequest f then chainPortCount p 0x14 w.2 else w.2))

/-- HOP_ACK_RECEIVE (R298, R299): the acknowledged frame is released, the hop works again, and a waiting frame is
sent. -/
def execHopAckReceive (p : ChainPort) (f : ChainFrame) (s : State) : Host.Outcome State Fault Refusal :=
  if !canReceive (getCPort s p) || f.ftype ≠ 8 then .next s
  else
    let r := receive p f s
    if !r.1 then .next r.2
    else
      let c := getCPort r.2 p
      let hit (a : Awaiting) : Bool := hopKey a.frame = (f.code.toNat, f.source.toNat, f.seq.toNat)
      .next (pump p 65 (setCPort p { c with broken := false, awaiting := c.awaiting.eraseP hit } r.2))

/-- A beacon is never resent (R316). -/
def isBeacon (f : ChainFrame) : Bool := f.ftype = 5 && f.addr = 0x00008000

/-- HOP_RESEND (R299): the oldest unacknowledged frame is sent again, at most 3 times; then the hop is broken and the
frame given up. On a broken hop, and for a beacon, the frame is given up at once. -/
def execHopResend (p : ChainPort) (s : State) : Host.Outcome State Fault Refusal :=
  let c := getCPort s p
  match c.awaiting with
  | [] => .next s
  | a :: rest =>
    let gone := setCPort p { c with awaiting := rest } s
    if c.broken || isBeacon a.frame then .next (pump p 65 (failFrames p [a.frame] gone))
    else if a.sends < 4 then
      let f := { a.frame with flags := a.frame.flags ||| 0x20 }
      .next (chainPortCount p 0x20 (emit p f
        (setCPort p { c with awaiting := rest ++ [{ frame := f, sends := a.sends + 1 }] } s)))
    else
      .next (pump p 65 (failFrames p [a.frame] (breakHop p (a.frame.dest.toNat % 64) (chainPortCount p 0x24 gone))))

/-- ENUMERATE (R303): a unit without an address takes Hop count + 1, one with another address notes the mismatch; its
record is appended and the frame goes on out CHD. A frame that finds CHD's queue full is discarded without effect
(R297). -/
def execEnumerate (p : ChainPort) (f : ChainFrame) (s : State) : Host.Outcome State Fault Refusal :=
  if !canReceive (getCPort s p) || f.ftype ≠ 6 then .next s
  else
    let r := receive p f s
    if !r.1 then .next r.2
    else if p = .chd then .next (ackFrame p f (chainPortCount p 0x14 r.2))
    else if (getCPort r.2 .chd).up && decide (64 ≤ (getCPort r.2 .chd).queue.length) then
      .next (chainPortCount .chd 0x38 r.2)
    else
      let n := f.hops.toNat + 1
      let t := r.2.tank
      let takes := t.addr = 0 && decide (n ≤ 62)
      let t1 := if takes then { t with addr := BitVec.ofNat 6 n, addrFromBmc := decide (f.source = 0) }
        else if t.addr ≠ 0 && decide (t.addr.toNat ≠ n) then { t with mismatch := true } else t
      let s1 := { r.2 with tank := t1, chain := { r.2.chain with heardEnum := true } }
      let pl := f.payload ++ unitRecord n takes s1
      let g := { f with payload := pl, length := BitVec.ofNat 16 pl.length, flags := (f.flags &&& 0xDF) ||| 0x80,
                        hops := if t1.addr = 0 then f.hops + 1 else t1.addr.setWidth 8 }
      let s2 := if (getCPort s1 .chd).up then (enqueue .chd g 0x18 s1).2 else chainPortCount p 0x14 s1
      .next (ackFrame p f s2)

/-- HEAD_SELF_ENUMERATE (R304): once per cold start, a HEAD unit that has heard no ENUMERATE takes address 1 and sends
its own. -/
def execHeadSelfEnumerate (s : State) : Host.Outcome State Fault Refusal :=
  if !s.pins.head || s.chain.selfEnumDone || s.chain.heardEnum || s.tank.addr ≠ 0 ||
      !((getCPort s .chu).up || (getCPort s .chd).up) then .next s
  else
    let s1 := { s with tank := { s.tank with addr := 1, addrFromBmc := false },
                       chain := { s.chain with selfEnumDone := true, ownSeq := s.chain.ownSeq + 1 } }
    let f : ChainFrame :=
      { version := 1, ftype := 6, flags := 0x80, dest := 63, source := 1, hops := 1, code := 0, seq := s.chain.ownSeq,
        addr := 0, length := 16, status := 0, tag := 0, payload := unitRecord 1 true s1 }
    .next (enqueue .chd f 0x1C s1).2

/-- CONFIRM (R305): the unit's record is appended and the frame goes on out CHU, without touching the address. -/
def execConfirm (p : ChainPort) (f : ChainFrame) (s : State) : Host.Outcome State Fault Refusal :=
  if !canReceive (getCPort s p) || f.ftype ≠ 7 then .next s
  else
    let r := receive p f s
    if !r.1 then .next r.2
    else if p = .chu then .next (ackFrame p f (chainPortCount p 0x14 r.2))
    else if (getCPort r.2 .chu).up && decide (64 ≤ (getCPort r.2 .chu).queue.length) then
      .next (chainPortCount .chu 0x38 r.2)
    else
      let pl := f.payload ++ unitRecord (f.hops.toNat + 1) false r.2
      let g := { f with payload := pl, length := BitVec.ofNat 16 pl.length, flags := (f.flags &&& 0xDF) ||| 0x80,
                        hops := f.hops + 1 }
      let s2 := if (getCPort r.2 .chu).up then (enqueue .chu g 0x18 r.2).2 else chainPortCount p 0x14 r.2
      .next (ackFrame p f s2)

/-- REPEATED_RESPONSE (R309): a request whose Sequence is in the repeat cache is answered from it and not run again. -/
def execRepeatedResponse (p : ChainPort) (f : ChainFrame) (s : State) : Host.Outcome State Fault Refusal :=
  if actedOn s f && (cachedResponse s f.seq).isSome then .next (runRequest p f id s) else .next s

/-- QUIET_TURN_OFF (R289, R290): an idle transmitter takes the mode in force and, in quiet-link mode, turns its driver
off. -/
def execQuietTurnOff (p : ChainPort) (s : State) : Host.Outcome State Fault Refusal :=
  let c := getCPort s p
  if !c.up || c.queue ≠ [] then .next s
  else
    let s1 := settleQuiet p s
    let c1 := getCPort s1 p
    .next (if c1.quiet then setCPort p { c1 with driverOn := false } s1 else s1)

/-- KEEPALIVE (R290): a driver off for 10 ms runs the wake sequence and turns off again; a wake is counted. -/
def execKeepalive (p : ChainPort) (s : State) : Host.Outcome State Fault Refusal :=
  let c := getCPort s p
  if c.up && c.quiet && !c.driverOn then .next (chainPortCount p 0x28 s) else .next s

/-- WAKE_DETECT (R291): detection starts acquisition; a new one during acquisition restarts it and its timer. -/
def execWakeDetect (p : ChainPort) (s : State) : Host.Outcome State Fault Refusal :=
  let c := getCPort s p
  if c.rx = .listening then .next (chainPortCount p 0x2C (setCPort p { c with rx := .acquiring } s))
  else if c.rx = .acquiring then .next (chainPortCount p 0x34 (chainPortCount p 0x2C s))
  else .next s

/-- FALSE_WAKE (R291): the acquisition timer expires without block lock. -/
def execFalseWake (p : ChainPort) (s : State) : Host.Outcome State Fault Refusal :=
  let c := getCPort s p
  if c.rx = .acquiring then
    .next (raiseLimited (chainSource p) 0x16 (chainIndex p) (chainPortCount p 0x30 (setCPort p { c with rx := .listening } s)))
  else .next s

/-- BLOCK_LOCK (R291): block lock within the timer. -/
def execBlockLock (p : ChainPort) (s : State) : Host.Outcome State Fault Refusal :=
  let c := getCPort s p
  if c.rx = .acquiring then .next (measureEye p (setCPort p { c with rx := .locked } s)) else .next s

/-- PARTNER_DRIVER_OFF (R291): the receiver of a port whose partner is a unit listens again; no kind is raised. -/
def execPartnerDriverOff (p : ChainPort) (s : State) : Host.Outcome State Fault Refusal :=
  let c := getCPort s p
  if c.up && c.partnerUnit && (c.rx = .locked || c.rx = .continuous) then
    .next (setCPort p { c with rx := .listening } s)
  else .next s

/-- BEACON (R316): in safe state, an EVENT with the causing kind and the head of the black box, out both ports. -/
def execBeacon (s : State) : Host.Outcome State Fault Refusal :=
  if safePhase s.tank.phase then
    let kind := match s.churn.causeMsg with
      | some m => m.kind
      | none => 0
    .next (sendEvent kind 0x00008000 (blackBoxHead s) true s)
  else .next s

/-- UNKNOWN_COMMAND (R308, R315): a code that R311 does not list draws status 0x21 while the core is not running, 0x10 in a phase whose row of
R50 takes no command, or only WARM_RESET, and no other object read (DEDUCED, notes/assumptions/114.md), and else 0x12. -/
def execUnknownCommand (p : ChainPort) (f : ChainFrame) (s : State) : Host.Outcome State Fault Refusal :=
  if f.ftype = 3 && (f.code = 0 || decide (0x0C < f.code.toNat)) && actedOn s f then
    .next (runRequest p f (fun t =>
      if !coreRuns t then answer p f 0x21 [] true t
      else answer p f (if ordinaryPhase t.tank.phase then 0x12 else 0x10) [] false t) s)
  else .next s

end Sys2Proof.Machine
end

