-- ==== Sys2Proof/Machine/Steer.lean ====
section
/-! DEFINITION. Where things stand in the DRAM (R155 to R164, R229): channels, banks, rows and positions, the
steering of a DMA and its inverse, page words, system lines, and the relief area of a retired channel (R186).
A physical line is numbered ((channel × 32 + bank) × 32,768 + row) × 16 + position. -/

namespace Sys2Proof.Machine

/-- Bytes of one channel's tenant lines: 882 MiB (R160). -/
def channelBytes : Nat := 0x37200000

/-- The number of a physical line (R155). -/
def physLine (ch bank row pos : Nat) : Nat := ((ch * 32 + bank) * 32768 + row) * 16 + pos

/-- The channel of a physical line. -/
def lineChannel (line : Nat) : Nat := line / (16 * 32768 * 32)
/-- The bank of a physical line. -/
def lineBank (line : Nat) : Nat := line / (16 * 32768) % 32
/-- The physical row of a physical line. -/
def lineRow (line : Nat) : Nat := line / 16 % 32768
/-- The position of a physical line within its row. -/
def linePos (line : Nat) : Nat := line % 16

/-- The position of local line `loc` of a channel: row `loc` div 14, slot `loc` mod 14 (R163). -/
def tenantLine (ch loc : Nat) : Nat := physLine ch (loc / 14 % 32) (loc / 14 / 32) (loc % 14)

/-- The metadata line of a local line: position 14 for slots 0 to 6, 15 for slots 7 to 13 (R134). -/
def tenantMeta (ch loc : Nat) : Nat := physLine ch (loc / 14 % 32) (loc / 14 / 32) (14 + loc % 14 / 7)

/-- System line `sl` of a channel (R157). -/
def systemLine (ch sl : Nat) : Nat := physLine ch (sl / 16 % 32) (32256 + sl / 16 / 32) (sl % 16)

/-- The system-line number of a physical line in a system row (R157). -/
def systemIndex (line : Nat) : Nat := ((lineRow line - 32256) * 32 + lineBank line) * 16 + linePos line

/-- A physical line lies in a system row (R155). -/
def isSystemLine (line : Nat) : Bool := decide (32256 ≤ lineRow line)

/-! ### Steering (R160 to R164) -/

/-- The number of general channels (R160). -/
def generalChannels (p : Plan) : Nat := 64 - p.k

/-- The first DMA of the express pool (R160). -/
def expressBase (p : Plan) : Nat := generalChannels p * channelBytes

/-- Lines of a chunk for an interleave order (R161). -/
def chunkLines (order : Nat) : Nat := if order = 0 then 1 else if order = 1 then 64 else 4

/-- fold(t) of R163. -/
def foldTurn (t : Nat) : Nat := Nat.xor (Nat.xor (t % 4096) (t / 4096 % 4096)) (t / 16777216 % 4096)

/-- rank(p): positions below p with the same entry (R163). -/
def tableRank (tbl : List Nat) (p : Nat) : Nat := ((tbl.take p).filter (fun c => c = (tbl[p]?).getD 0)).length

/-- The turn and the position, after any rotation, of a general-pool line (R163). -/
def turnPosition (p : Plan) (line : Nat) : Nat × Nat :=
  let l := p.steering.length
  let chunk := line / chunkLines p.order
  let t := chunk / l
  let q := chunk % l
  (t, if p.order = 2 then (q + 16 * foldTurn t) % l else q)

/-- The channel and local line of a DMA (R163). -/
def steer (p : Plan) (dma : Nat) : Nat × Nat :=
  if expressBase p ≤ dma then
    let o := dma - expressBase p
    (64 - p.k + o / channelBytes, o % channelBytes / 64)
  else
    let w := chunkLines p.order
    let tp := turnPosition p (dma / 64)
    let per := p.steering.length / generalChannels p
    ((p.steering[tp.2]?).getD 0, (tp.1 * per + tableRank p.steering tp.2) * w + dma / 64 % w)

/-- The position of the r-th entry of a channel in the steering table. -/
def tablePosition (tbl : List Nat) (ch r : Nat) : Nat :=
  (((List.range tbl.length).filter (fun i => (tbl[i]?).getD 0 = ch))[r]?).getD 0

/-- The DMA of a local line of a channel: the inverse of `steer`. -/
def unsteer (p : Plan) (ch loc : Nat) : Nat :=
  if generalChannels p ≤ ch then expressBase p + (ch - generalChannels p) * channelBytes + loc * 64
  else
    let w := chunkLines p.order
    let l := p.steering.length
    let per := l / generalChannels p
    let lc := loc / w
    let t := lc / per
    let q := tablePosition p.steering ch (lc % per)
    let q0 := if p.order = 2 then (q + l * 4096 - 16 * foldTurn t) % l else q
    ((t * l + q0) * w + loc % w) * 64

/-- The channel and slot of the page word of page P (R164). -/
def pageWordSlot (p : Plan) (page : Nat) : Nat × Nat :=
  let dma := page * 4096
  if expressBase p ≤ dma then
    let cl := steer p dma
    (cl.1, cl.2 / 64)
  else
    let tp := turnPosition p (dma / 64)
    let c := (p.steering[tp.2]?).getD 0
    let step := 64 / chunkLines p.order
    let starts (n : Nat) : Nat :=
      ((List.range n).filter (fun i => i % step = 0 && (p.steering[i]?).getD 0 = c)).length
    (c, tp.1 * starts p.steering.length + starts tp.2)

/-- The pages whose page words lie in the 16 slots of page-word line `sl` of a channel: the inverse of
`pageWordSlot`. -/
def pageOfSlot (p : Plan) (ch slot : Nat) : Nat :=
  if generalChannels p ≤ ch then unsteer p ch (slot * 64) / 4096
  else
    let step := 64 / chunkLines p.order
    let l := p.steering.length
    let starts := (List.range l).filter (fun i => i % step = 0 && (p.steering[i]?).getD 0 = ch)
    let t := slot / starts.length
    let q := (starts[slot % starts.length]?).getD 0
    let q0 := if p.order = 2 then (q + l * 4096 - 16 * foldTurn t) % l else q
    (t * l + q0) * chunkLines p.order / 64

/-! ### Relief of a retired channel (R186, R187) -/

/-- A system area that a retired channel's relief serves: page words, lease-state records, remap table, and on
channel 0 the CE log copy (R186). -/
def reliefServes (ch sl : Nat) : Bool :=
  decide (sl < 0x3720) || (decide (0x4000 ≤ sl) && decide (sl < 0x4300)) ||
    (ch = 0 && decide (0x4300 ≤ sl) && decide (sl < 0x4400))

/-- Where a system line is served: in place, or, after relief, at the same offset in the relief area of the relief
channel (R186; the order within the area is a DESIGN CHOICE, notes/assumptions/10.md). -/
def systemHome (s : State) (ch sl : Nat) : Nat :=
  match s.relief.find? (fun e => e.1 = ch) with
  | some e => if reliefServes ch sl then systemLine e.2 (0x38000 + sl) else systemLine ch sl
  | none => systemLine ch sl

/-! ### Remapped units (R228, R229, R233) -/

/-- The remap entries of a channel: 2,048 by spare page. -/
def getRemap (s : State) (ch i : Nat) : Remap := Map.get Remap.zero (ch * 2048 + i) s.remap

/-- The spare page that serves unit `u` of a channel: its committed entry (R230). -/
def committedSpare (s : State) (ch u : Nat) : Option Nat :=
  (s.remap.find? (fun e => e.1 / 2048 = ch && e.2.valid && e.2.committed && e.2.unit = u)).map (fun e => e.1 % 2048)

/-- The entry of a copy in progress of unit `u` (R230). -/
def copyingSpare (s : State) (ch u : Nat) : Option (Nat × Remap) :=
  (s.remap.find? (fun e => e.1 / 2048 = ch && e.2.valid && !e.2.committed && e.2.unit = u)).map
    (fun e => (e.1 % 2048, e.2))

/-- The system line that holds line j of spare page i (R229). -/
def spareLine (ch i j : Nat) : Nat := systemLine ch (0x14000 + 64 * i + j)

/-- The system line and the byte offset of the metadata entry of line j of spare page i (R229). -/
def spareMeta (ch i j : Nat) : Nat × Nat := (systemLine ch (0x34000 + 8 * i + j / 8), 8 * (j % 8))

/-- The physical line that serves a local line: its spare line when its unit is committed (R230, R233). -/
def dataHome (s : State) (ch loc : Nat) : Nat :=
  match committedSpare s ch (loc / 64) with
  | some i => spareLine ch i (loc % 64)
  | none => tenantLine ch loc

/-- The physical line and byte offset that serve a local line's metadata entry (R134, R229, R233). -/
def metaHome (s : State) (ch loc : Nat) : Nat × Nat :=
  match committedSpare s ch (loc / 64) with
  | some i => spareMeta ch i (loc % 64)
  | none => (tenantMeta ch loc, 8 * (loc % 14 % 7))

/-- The second place a write goes to while its unit is copied and the line has been copied (R230). -/
def copyHome (s : State) (ch loc : Nat) : Option (Nat × (Nat × Nat)) :=
  match copyingSpare s ch (loc / 64) with
  | some (i, r) => if loc % 64 < r.copied then some (spareLine ch i (loc % 64), spareMeta ch i (loc % 64)) else none
  | none => none

end Sys2Proof.Machine
end

