-- ==== Sys2Proof/Machine/Lines.lean ====
section
/-! DEFINITION. The DRAM array and the line code: what the fill leaves (R46), reading and writing lines, poison
(R210), decoding (R208, R209) with the lane counts (R183), the CE log (R215 to R217), metadata entries (R134), page
words (R135), and the cipher and tag of a line (R137, R138). -/

namespace Sys2Proof.Machine

/-! ### The array -/

/-- What a data byte reads as while nothing has been written since the fill (R46): zero, but for the first byte of
each page word, whose Fresh bit is set. The page-word part of a relief area reads alike (R186). -/
def fillByte (a : Nat) : Byte :=
  let line := a / 64
  let sl := systemIndex line
  if isSystemLine line && (decide (sl < 0x3720) || (decide (0x38000 ≤ sl) && decide (sl < 0x38000 + 0x3720))) &&
      a % 4 = 0 then 0x40 else 0

/-- `n` data bytes of a physical line from byte `o` on, as stored. -/
def lineBytes (s : State) (line o n : Nat) : List Byte := Memory.read fillByte (line * 64 + o) n s.dram.data

/-- The 64 data bytes of a physical line, as stored. -/
def lineData (s : State) (line : Nat) : List Byte := lineBytes s line 0 64

/-- The line holds the poison word (R210). -/
def isPoisoned (s : State) (line : Nat) : Bool := NSet.has line s.dram.poison

/-- The bytes of a line that the counter-and-tag cache holds otherwise than the array (R141, R208). -/
def misreadOf (s : State) (line : Nat) : Option (List Byte) :=
  ((s.misread.find? (fun e => e.1 = line)).filter (fun e => s.metaCache.contains e.2.1 || s.pageCache.contains e.2.1)).map (fun e => e.2.2)

/-- `n` bytes of a counter line from byte `o` on, as an access finds them: in the cache, or in the array. -/
def counterBytes (s : State) (line o n : Nat) : List Byte :=
  match misreadOf s line with
  | some bs => (bs.drop o).take n
  | none => lineBytes s line o n

/-- Symbol errors that stand in the cells of a line go with a rewrite of it. -/
def clearUpsets (line : Nat) (s : State) : State :=
  { s with dram := { s.dram with upsets := s.dram.upsets.filter (fun e => e.1 / 72 ≠ line) } }

/-- Writes bytes of a line with fresh check symbols, leaving its other bytes. -/
def writeBytes (line o : Nat) (bs : List Byte) (s : State) : State :=
  let s1 := clearUpsets line s
  { s1 with dram := { s1.dram with data := Memory.write fillByte (line * 64 + o) bs s1.dram.data,
                                   poison := NSet.del line s1.dram.poison } }

/-- Writes a whole line: poison is cleared (R225). -/
def writeLine (line : Nat) (bs : List Byte) (s : State) : State := writeBytes line 0 (padTo 64 bs) s

/-- Nothing is held of a line otherwise than the array has it. -/
def dropMisread (line : Nat) (s : State) : State := { s with misread := s.misread.filter (fun e => e.1 ≠ line) }

/-- A counter line is written through the cache: what the cache holds of it goes to the array with the write (R141). -/
def settleMisread (line : Nat) (s : State) : State :=
  match misreadOf s line with
  | some bs => dropMisread line (writeLine line bs s)
  | none => s

/-- A line keeps symbol errors that have come to stand in its cells. -/
def addUpsets (line : Nat) (es : Errors) (s : State) : State :=
  forEach es (fun e t =>
    { t with dram := { t.dram with upsets := Map.modify (0 : Byte) (line * 72 + e.1.val) (· ^^^ e.2) t.dram.upsets } }) s

/-! ### Decoding -/

/-- A channel record. -/
def getChan (s : State) (c : Nat) : Chan := Map.get Chan.zero c s.chans

/-- Writes a channel record. -/
def setChan (c : Nat) (v : Chan) (s : State) : State := { s with chans := Map.set Chan.zero c v s.chans }

/-- The lanes of a channel that have failed and are not replaced: erasures (R208). -/
def erasedLanes (c : Chan) : List Nat := c.failedLanes.filter (fun l => !(c.spares.any (fun e => e.1 = l)))

/-- The outcome of a decode (R209), with the corrected symbols' lanes, the erroneous bits of the first of them, and
whether an erasure was used. -/
inductive Decoded where
  | clean (data : List Byte)
  | poisoned
  | corrected (data : List Byte) (lanes : List Nat) (bits : Nat) (erasure : Bool)
  | uncorrectable
  deriving DecidableEq, Repr

/-- Symbol errors added up lane by lane; a lane whose errors cancel has none. -/
def sumErrors (l : List (Nat × Byte)) : List (Nat × Byte) :=
  ((List.range 72).map (fun i => (i, (l.filter (fun e => e.1 = i)).foldl (fun b e => b ^^^ e.2) (0 : Byte)))).filter (fun e => e.2 ≠ 0)

/-- The errors that an operand names, by lane. -/
def pathErrors (es : Errors) : List (Nat × Byte) := es.map (fun e => (e.1.val, e.2))

/-- The symbol errors that stand in a line's cells. -/
def standing (s : State) (line : Nat) : List (Nat × Byte) :=
  ((List.range 72).map (fun l => (l, Map.get (0 : Byte) (line * 72 + l) s.dram.upsets))).filter (fun e => e.2 ≠ 0)

/-- The symbol errors of a burst: those standing in the cells, and those of this burst's path. -/
def burstErrors (s : State) (line : Nat) (path : Errors) : List (Nat × Byte) := sumErrors (standing s line ++ pathErrors path)

/-- A line that holds the poison word still reads as poisoned: no more than 2 further errors stand in it (R210). -/
def readsPoisoned (s : State) (line : Nat) : Bool := isPoisoned s line && decide ((standing s line).length ≤ 2)

/-- Writes the poison word into a line (R210). -/
def putPoison (line : Nat) (s : State) : State :=
  let s1 := writeLine line (List.replicate 64 0) s
  { s1 with dram := { s1.dram with poison := NSet.add line s1.dram.poison } }

/-- A line newly poisoned is counted (R219). -/
def countPoison (s : State) : State := { s with skim := { s.skim with linesPoisoned := satAdd max32 s.skim.linesPoisoned 1 } }

/-- Poisons a line that may read as poisoned already (R210, R219). -/
def poisonLine (line : Nat) (s : State) : State := if readsPoisoned s line then putPoison line s else countPoison (putPoison line s)

/-- The number of bits set in a byte. -/
def bitCount (b : Byte) : Nat := ((List.range 8).filter (fun i => b.getLsbD i)).length

/-- The check symbols of the poison word (R210). -/
def poisonCheck : List Byte := [0x9E, 0x37, 0x79, 0xB9, 0x7F, 0x4A, 0x7C, 0x15]

/-- The check symbols of the poison word as errors of the all-zero codeword (R210). -/
def poisonErrors : List (Nat × Byte) := poisonCheck.zipIdx.map (fun x => (64 + x.2, x.1))

/-- The data symbols of a word with changes by lane. -/
def changedData (data : List Byte) (es : List (Nat × Byte)) : List Byte :=
  (List.range 64).map (fun i => es.foldl (fun b e => if e.1 = i then b ^^^ e.2 else b) ((data[i]?).getD 0))

/-- The changes `fix` may lead to another codeword: it differs from the sent one in 9 symbols or more, and from the poison word in 6 or
more (R208, R210). `errs` are the errors of the word against the sent codeword, `poison` those against a poison word that was sent. -/
def mayBeCode (errs fix : List (Nat × Byte)) (poison : Option (List (Nat × Byte))) : Bool :=
  decide (9 ≤ (sumErrors (errs ++ fix)).length) && (poison.map (fun p => decide (6 ≤ (sumErrors (p ++ fix)).length))).getD true

/-- What the decoder makes of a pattern beyond R208: uncorrectable, or a wrong codeword that is a free value (R208, R210). The word
received is `got`; with no change it is a codeword and reads as clean; otherwise changes outside the erased lanes and erasures come to
3 symbols at most. -/
def beyondOutcome (er : List Nat) (got : List Byte) (errs : List (Nat × Byte)) (poison : Option (List (Nat × Byte))) (n : Nat) : Decoded :=
  match (Config.rsBeyond n).map sumErrors with
  | none => .uncorrectable
  | some fix =>
    if !mayBeCode errs fix poison then .uncorrectable
    else match fix with
      | [] => .clean got
      | e :: _ =>
        if 3 < er.length + (fix.filter (fun x => !er.contains x.1)).length then .uncorrectable
        else .corrected (changedData got fix) (fix.map (·.1)) (bitCount e.2) (fix.any (fun x => er.contains x.1))

/-- A received word that is not a poisoned line's lies within 2 symbols of the poison word (R209, R210). For the all-zero codeword the
distance is exact; for another its check symbols are a free value. -/
def nearPoison (data got : List Byte) (errs : List (Nat × Byte)) (n : Nat) : Bool :=
  let ones := (got.filter (· ≠ 0)).length
  if data.all (· = 0) then
    decide (ones + ((List.range 8).filter (fun i => ((errs.find? (fun e => e.1 = 64 + i)).map (·.2)).getD 0 ≠ (poisonCheck[i]?).getD 0)).length ≤ 2)
  else decide (4 ≤ errs.length) && decide (ones ≤ 2) && Config.nearPoison n

/-- The outcome of decoding a word (R208 to R210): erased lanes, the codeword's data or the poison word, its errors; `n` is the free
counter. A poisoned line with 3 or more further errors is the all-zero codeword with the errors that the check symbols of the poison word
and those make. -/
def decodeWord (er : List Nat) (data : List Byte) (poisoned : Bool) (errs : List (Nat × Byte)) (n : Nat) : Decoded :=
  if poisoned && decide (errs.length ≤ 2) then .poisoned
  else
    let all := if poisoned then sumErrors (errs ++ poisonErrors) else errs
    if all = [] then .clean data
    else
      let got := changedData data all
      let k := er.length + (all.filter (fun e => !er.contains e.1)).length
      if !poisoned && nearPoison data got errs n then .poisoned
      else if k ≤ 3 then
        .corrected data (all.map (·.1)) ((all.head?.map (fun e => bitCount e.2)).getD 0) (all.any (fun e => er.contains e.1))
      else if k ≤ 5 then .uncorrectable
      else beyondOutcome er got all (if poisoned then some errs else none) n

/-- The outcome of decoding a line as it stands, before anything is counted. -/
def decodeOutcome (s : State) (line : Nat) (path : Errors) (n : Nat) : Decoded :=
  decodeWord (erasedLanes (getChan s (lineChannel line))) (lineData s line) (isPoisoned s line) (burstErrors s line path) n

/-- The retirement of a channel begins: kind 0x0A; its ordering point is closed (R186). -/
def startRetirement (ch : Nat) (s : State) : State :=
  if isRetired s ch || s.retiring.contains ch then s
  else raise ch 0x0A (ch * 1024) { s with retiring := NSet.add ch s.retiring }

/-- The last 8 bursts were uncorrectable, over at least 2 banks (R185). -/
def pathFailed (run : List Nat) : Bool := decide (8 ≤ run.length) && run.any (fun b => run.any (fun c => b ≠ c))

/-- The lanes that a decode names as erroneous are counted over the window of bursts; a run of uncorrectable bursts is
remembered with its banks, and retires the channel when it is 8 long over 2 banks (R183, R185). -/
def countBurst (line : Nat) (d : Decoded) (s : State) : State :=
  let ch := lineChannel line
  let c := getChan s ch
  let c1 := { c with windowBursts := c.windowBursts + 1 }
  match d with
  | .corrected _ lanes _ _ =>
    setChan ch { c1 with uncRun := [], laneErrors := lanes.foldl (fun t l => Map.modify 0 l (· + 1) t) c1.laneErrors } s
  | .uncorrectable =>
    let run := lineBank line :: c1.uncRun.take 7
    let s1 := setChan ch { c1 with uncRun := run } s
    if pathFailed run then startRetirement ch s1 else s1
  | _ => setChan ch { c1 with uncRun := [] } s

/-- Decodes a line: the outcome, and the state with what the decode counted. -/
def decodeLine (s : State) (line : Nat) (path : Errors) : Decoded × State :=
  let d := decodeOutcome s line path s.free
  (d, countBurst line d (drawn s))

/-! ### Fault addresses, the CE log, channel counters -/

/-- The physical address form of R211. -/
def physAddr (line : Nat) : Nat :=
  0xE00000000 + lineChannel line * 2 ^ 24 + lineBank line * 2 ^ 19 + lineRow line * 16 + linePos line

/-- The slabs of a region entry hold a DMA. -/
def holdsDma (dma : Nat) (r : Region) : Bool := r.inUse && decide (r.slab ≤ dma / 65536) && decide (dma / 65536 < r.slab + r.slabs)

/-- The region whose lease is active on a DMA: at most one at a time is (R110). -/
def leasedAt (s : State) (dma : Nat) : Option (Nat × Region) := s.regions.find? (fun e => holdsDma dma e.2 && e.2.active)

/-- The region whose slabs hold a DMA (R110, R323): among several, the one whose lease is active. -/
def regionOf (s : State) (dma : Nat) : Option (Nat × Region) :=
  match leasedAt s dma with
  | some e => some e
  | none => s.regions.find? (fun e => holdsDma dma e.2)

/-- Counts in the tenant that holds a DMA, when a region does (R125). -/
def countTenantAt (dma n : Nat) (s : State) : State :=
  match regionOf s dma with
  | some e => tenantCount e.2.tenant n 1 s
  | none => s

/-- Rows named by a valid BIST marker of a channel (R366). -/
def markedRow (s : State) (line : Nat) : Bool :=
  match (Map.get BistCh.zero (lineChannel line) s.bist.chans).marker with
  | some m => m.rows.contains (lineBank line, lineRow line)
  | none => false

/-- The syndrome class of a correction (R217). -/
def syndromeClass (lanes : List Nat) (nbits : Nat) (erasure : Bool) : Nat :=
  if erasure then 5
  else if lanes.all (fun l => decide (64 ≤ l)) then 6
  else if lanes.length ≤ 1 then (if nbits ≤ 1 then 1 else 2)
  else if lanes.length = 2 then 3 else 4

/-- Whether entry `a` gives way before `b` (R217): Retired first by oldest Last time; then without Repeat by Count, then
by Last time. -/
def ceBefore (a b : CeEntry) : Bool :=
  let ta := a.lastMinute.toNat * 60000000 + a.lastUs
  let tb := b.lastMinute.toNat * 60000000 + b.lastUs
  if a.retired then !b.retired || decide (ta < tb)
  else if b.retired then false
  else if !a.repeated then b.repeated || decide (a.count < b.count) || (a.count = b.count && decide (ta < tb))
  else false

/-- The entry that a slot of the CE log holds. -/
def ceAt (l : List (Option CeEntry)) (i : Nat) : Option CeEntry := (l[i]?).join

/-- Fills a slot of the CE log, or the one after the last. -/
def ceSet (i : Nat) (e : CeEntry) (l : List (Option CeEntry)) : List (Option CeEntry) := if i < l.length then l.set i (some e) else l ++ [some e]

/-- The index of the entry that a new address replaces; none when every entry has Repeat and none Retired (R217). -/
def ceVictim (l : List (Option CeEntry)) : Option Nat :=
  ((List.range l.length).foldl (fun (best : Option (Nat × CeEntry)) i =>
    match ceAt l i with
    | none => best
    | some e =>
      if e.repeated && !e.retired then best
      else match best with
        | none => some (i, e)
        | some (j, b) => if ceBefore e b then some (i, e) else some (j, b)) none).map (·.1)

/-- The slot that a new address takes: a free one, of several the lowest (DESIGN CHOICE, notes/assumptions/107.md), else the one it replaces
(R217). -/
def ceSlotFor (l : List (Option CeEntry)) : Option Nat :=
  match l.findIdx? (fun x => x.isNone) with
  | some i => some i
  | none => if l.length < 256 then some l.length else ceVictim l

/-- One correction in the CE log (R217): whether it created an entry or set Repeat, and the state. Source: 0 demand,
1 patrol, 2 partial write or atomic, 3 retirement copy. -/
def logCorrection (addr src : Nat) (lanes : List Nat) (nbits : Nat) (erasure : Bool) (s : State) : Bool × State :=
  let now := stamp s
  let pass := s.skim.passCount
  let a : BitVec 36 := BitVec.ofNat 36 addr
  let put (i : Nat) (e : CeEntry) : State := { s with ctr := { s.ctr with ce := ceSet i e s.ctr.ce } }
  match s.ctr.ce.findIdx? (fun x => x.map (·.addr) = some a) with
  | some i =>
    match ceAt s.ctr.ce i with
    | none => (false, s)
    | some e =>
      let rep := e.repeated || (src = 1 && e.patrolPasses.any (fun p => p ≠ pass))
      (rep && !e.repeated, put i
        { e with syndrome := syndromeClass lanes nbits erasure, source := src, repeated := rep,
                 count := satAdd max32 e.count 1, lanes := lanes.take 3, lastMinute := now.1,
                 lastUs := now.2, lastPass := if src = 1 then pass else e.lastPass,
                 patrolPasses := if src = 1 && !e.patrolPasses.contains pass
                   then (pass :: e.patrolPasses).take 2 else e.patrolPasses })
  | none =>
    match ceSlotFor s.ctr.ce with
    | some i => (true, put i
        { addr := a, syndrome := syndromeClass lanes nbits erasure, source := src, repeated := false,
          retired := false, count := 1, lanes := lanes.take 3, firstMinute := now.1, firstUs := now.2,
          lastMinute := now.1, lastUs := now.2, lastPass := if src = 1 then pass else 0,
          patrolPasses := if src = 1 then [pass] else [] })
    | none => (false, headCount 600 1 s)

/-- A correction is counted, logged, and raises kind 0x01 (data line) or 0x02 (others) when it created an entry or set
Repeat (R215, R216). -/
def noteCorrection (ch addr src : Nat) (isData : Bool) (lanes : List Nat) (nbits : Nat) (erasure : Bool) (s : State) :
    State :=
  let r := logCorrection addr src lanes nbits erasure (chanCount ch (if isData then 0 else 1) 1 s)
  if r.1 then raise ch (if isData then 0x01 else 0x02) addr r.2 else r.2

/-- The cycle of the 3.0 GHz clock at a channel engine's burst opportunity (R167). -/
def cycleOf (s : State) (ch : Nat) : Nat := 4 * (getChan s ch).opp

/-- The address enters the channel's early-scrub queue of 16, or is dropped and counted (R215). -/
def earlyScrub (ch line : Nat) (dma : Option Nat) (s : State) : State :=
  let c := getChan s ch
  if c.early.length < 16 then setChan ch { c with early := c.early ++ [{ line := line, dma := dma, since := cycleOf s ch }] } s
  else headCount 601 1 s

/-- A demand access to a system line decodes it: the word that the decoder gives; none for a line that is lost, which is reported with
`detail`. A correction is logged, and its address goes to the early-scrub queue (R215, R224). -/
def readSystem (line detail : Nat) (s : State) : Option (List Byte) × State :=
  let ch := lineChannel line
  let d := decodeLine s line []
  match d.1 with
  | .clean bs => (some bs, d.2)
  | .corrected bs lanes nb er => (some bs, earlyScrub ch line none (noteCorrection ch (physAddr line) 0 false lanes nb er d.2))
  | _ => (none, raiseDetail detail ch 0x03 (physAddr line) (chanCount ch 2 1 d.2))

/-- Lines of the system rows read one after the other: those for which the decoder gave another word than they hold, and the state; a line
that is lost becomes what `lose` makes of it. -/
def readLines (detail : State → Nat → Nat) (lose : Nat → State → State) (lines : List Nat) (s : State) : List (Nat × List Byte) × State :=
  lines.foldl (fun (acc : List (Nat × List Byte) × State) line =>
    let d := readSystem line (detail acc.2 line) acc.2
    match d.1 with
    | some bs => (if padTo 64 bs = lineData d.2 line then acc.1 else acc.1 ++ [(line, bs)], d.2)
    | none => (acc.1, lose line d.2)) ([], s)

/-- The array as the decoder has read it. -/
def viewOf (l : List (Nat × List Byte)) (s : State) : State := forEach l (fun e t => writeLine e.1 e.2 t) s

/-- A write of the system input to a row under test waits until the row is restored (R367). -/
def writeSystem (line o : Nat) (bs : List Byte) (s : State) : State :=
  if markedRow s line then { s with dram := { s.dram with waits := s.dram.waits ++ [(line, o, bs)] } } else writeBytes line o bs s

/-! ### Metadata entries and page words -/

/-- A metadata entry as stored: minor counter and tag (R134). -/
def metaEntry (s : State) (ch loc : Nat) : Nat × BitVec 56 :=
  let m := metaHome s ch loc
  let bs := counterBytes s m.1 m.2 8
  (beNat (bs.take 1), BitVec.ofNat 56 (beNat (bs.drop 1)))

/-- The bytes of a metadata entry (R134). -/
def metaBytes (minor : Nat) (tag : BitVec 56) : List Byte := beBytes 1 minor ++ beBytes 7 tag.toNat

/-- Writes a metadata entry, and to the copy in progress as well (R230). -/
def writeMeta (ch loc minor : Nat) (tag : BitVec 56) (s : State) : State :=
  let m := metaHome s ch loc
  let s1 := writeBytes m.1 m.2 (metaBytes minor tag) (settleMisread m.1 s)
  match copyHome s ch loc with
  | some c => writeBytes c.2.1 c.2.2 (metaBytes minor tag) s1
  | none => s1

/-- Writes a data line's ciphertext, and to the copy in progress as well (R230). -/
def writeData (ch loc : Nat) (ct : List Byte) (s : State) : State :=
  let s1 := writeLine (dataHome s ch loc) ct s
  match copyHome s ch loc with
  | some c => writeLine c.1 ct s1
  | none => s1

/-- Writes the poison word into a data line, and into its copy in progress as well (R225, R230). -/
def putPoisonData (ch loc : Nat) (s : State) : State :=
  let s1 := putPoison (dataHome s ch loc) s
  match copyHome s ch loc with
  | some c => putPoison c.1 s1
  | none => s1

/-- The plan in force, or a plan that maps nothing. -/
def planOf (s : State) : Plan :=
  s.plans.plan.getD
    { bank := .a, seq := 0, adoptAt := 0, idValue := 0, idMask := 0, epoch := 0, autoStart := 0, ifaces := [],
      modes := [], tenants := [], prefixes := [], regions := [], classes := [], calMap := [], calendars := [],
      escTables := [], order := 1, k := 0, steering := List.range 64, band := 0, cuts := [], scrubHours := 24,
      log2N := 11, deltaT := 8, snrFloor := 180, chainFlags := 0, eventClasses := 0, eventLimit := 1, rawMap := [],
      rawIfaces := [], rawModes := [] }

/-- The channel and local line of a tenant line (R163). -/
def homeOf (s : State) (dma : Nat) : Nat × Nat := steer (planOf s) dma

/-- A tenant line is poisoned, and counted for the tenant that holds it unless it reads as poisoned already (R125, R225). Lines on a
retired channel are not poisoned (R225). -/
def poisonNew (ch loc dma : Nat) (s : State) : State :=
  if isRetired s ch || readsPoisoned s (dataHome s ch loc) then s else countTenantAt dma 13 (countPoison (putPoisonData ch loc s))

/-- A tenant line that a decode or a tag check has found damaged is poisoned, as a new poison (R98, R223, R226). -/
def poisonFound (ch loc dma : Nat) (s : State) : State :=
  if isRetired s ch then s else countTenantAt dma 13 (countPoison (putPoisonData ch loc s))

/-- A tag mismatch: poison, kind 0x05 from the crypto lane, counted (R98, R144, R216). With `stored` clear a later write has taken the
line since, and its data stand (R11). -/
def tagMismatch (stored : Bool) (ch loc dma : Nat) (s : State) : State :=
  raise (0x040 + ch / 4) 0x05 dma (chanCount ch 4 1 (if stored then poisonFound ch loc dma s else s))

/-- A tag mismatch of the line that stands in the array. -/
def tagFailure (ch loc dma : Nat) (s : State) : State := tagMismatch true ch loc dma s

/-- The physical line and byte offset of page P's page word (R164, R186). -/
def pageWordHome (s : State) (page : Nat) : Nat × Nat :=
  let w := pageWordSlot (planOf s) page
  (systemHome s w.1 (w.2 / 16), 4 * (w.2 % 16))

/-- The page word of page P as stored (R135). -/
def pageWord (s : State) (page : Nat) : BitVec 32 :=
  let h := pageWordHome s page
  BitVec.ofNat 32 (beNat (counterBytes s h.1 h.2 4))

/-- Writes the page word of page P. -/
def writePageWord (page : Nat) (w : BitVec 32) (s : State) : State :=
  let h := pageWordHome s page
  writeBytes h.1 h.2 (beBytes 4 w.toNat) (settleMisread h.1 s)

/-- Generation of a page word (R135). -/
def pwGen (w : BitVec 32) : Bool := w.getLsbD 31
/-- Fresh of a page word (R135). -/
def pwFresh (w : BitVec 32) : Bool := w.getLsbD 30
/-- Major counter of a page word (R135). -/
def pwMajor (w : BitVec 32) : Nat := w.toNat % 2 ^ 30
/-- A page word from its fields (R135). -/
def mkPageWord (gen fresh : Bool) (major : Nat) : BitVec 32 := BitVec.ofNat 32 (bit gen 31 + bit fresh 30 + major % 2 ^ 30)
/-- The exhausted major counter (R135). -/
def exhaustedMajor : Nat := 0x3FFFFFFF

/-! ### Keys, cipher and tag -/

/-- A key slot. -/
def getKey (s : State) (k : Nat) : KeySlot := Map.get KeySlot.zero k s.keys

/-- Writes a key slot. -/
def setKey (k : Nat) (v : KeySlot) (s : State) : State := { s with keys := Map.set KeySlot.zero k v s.keys }

/-- The slot whose key a page of a region uses: Current when Generation equals Current bit, otherwise Next (R136). -/
def slotFor (r : Region) (gen : Bool) : Nat := if gen = r.curBit then r.curSlot else r.nextSlot

/-- An AES input block (R137). -/
def aesInput (domain keyId lineAddr major minor index : Nat) : List Byte :=
  beBytes 1 domain ++ beBytes 2 keyId ++ beBytes 4 lineAddr ++ beBytes 4 major ++ beBytes 1 minor ++ [0, 0, 0] ++
    beBytes 1 index

/-- The keystream of a line: four blocks of domain 0x01 (R137). -/
def keystream (ws : List (List Byte)) (keyId lineAddr major minor : Nat) : List Byte :=
  ((List.range 4).map (fun b => aesBlock ws (aesInput 1 keyId lineAddr major minor b))).flatten

/-- The ciphertext of a line under a slot, or the plaintext of a ciphertext (R137). -/
def cipherLine (k : KeySlot) (keyId dma major minor : Nat) (bs : List Byte) : List Byte :=
  xorBytes (padTo 64 bs) (keystream (aesSchedule (beBytes 32 k.key.toNat)) keyId (dma / 64) major minor)

/-- The tag of a line's ciphertext (R138). -/
def tagOf (k : KeySlot) (keyId dma major minor : Nat) (ct : List Byte) : BitVec 56 :=
  let blk (i : Nat) : BitVec 128 := BitVec.ofNat 128 (beNat ((ct.drop (16 * i)).take 16))
  let binding : BitVec 128 := BitVec.ofNat 128 (beNat (aesInput 3 keyId (dma / 64) major minor 0))
  let sh := ghash k.hash [blk 0, blk 1, blk 2, blk 3, binding]
  let mask : BitVec 128 := BitVec.ofNat 128 (beNat (aes256 k.key (aesInput 2 keyId (dma / 64) major minor 0)))
  ((sh ^^^ mask) >>> 72).setWidth 56

/-- The hash subkey of a key: AES-256 of the all-zero block (R131). -/
def hashSubkey (key : BitVec 256) : BitVec 128 := BitVec.ofNat 128 (beNat (aes256 key (List.replicate 16 0)))

/-- The crypto lane of a channel uses the round keys of a key ID: they enter its cache of 64 entries, or become its newest (R133; which
one goes is a DESIGN CHOICE, notes/assumptions/58.md). -/
def useRoundKeys (ch keyId : Nat) (s : State) : State :=
  let kept := Map.modify [] (ch / 4) (fun l => (keyId :: l.filter (fun x => x ≠ keyId)).take 64) s.path.roundKeys
  { s with path := { s.path with roundKeys := kept } }

/-- The round keys of a key ID are invalidated in every crypto lane (R133, R153). -/
def dropRoundKeys (keyId : Nat) (s : State) : State :=
  let kept := (s.path.roundKeys.map (fun e => (e.1, e.2.filter (fun x => x ≠ keyId)))).filter (fun e => e.2 ≠ [])
  { s with path := { s.path with roundKeys := kept } }

/-- Encrypts and writes a data line with its metadata entry (R145): both bursts of one row visit. -/
def storeLine (ch loc dma keyId major minor : Nat) (plain : List Byte) (s : State) : State :=
  let k := getKey s keyId
  let ct := cipherLine k keyId dma major minor plain
  useRoundKeys ch keyId (writeMeta ch loc minor (tagOf k keyId dma major minor ct) (writeData ch loc ct s))

end Sys2Proof.Machine
end

