-- ==== Sys2Proof/Machine/Journal.lean ====
section
/-! DEFINITION. Draining the journal queue into the ring (R319 to R324), and what the fault log then shows (R345). -/

namespace Sys2Proof.Machine

/-- The channel and system line of the slot of sequence q (R158, R159, R319). -/
def journalSlot (q : Nat) : Nat × Nat := (q % 64, 0xC000 + q % 1048576 / 64)

/-- The physical line of the slot of sequence q. -/
def journalLine (q : Nat) : Nat := systemLine (journalSlot q).1 (journalSlot q).2

/-- A fault record shows its journal entry as written (R345). -/
def markRecord (r : BitVec 32) (seq : BitVec 64) (x : FaultRecord) : FaultRecord :=
  if x.valid && x.number = r then { x with journaled := true, journalSeq := seq } else x

/-- Marks the record of number r wherever it is kept: the log, the recent records, the first FT record. -/
def markJournaled (r : BitVec 32) (seq : BitVec 64) (s : State) : State :=
  let c := s.churn
  { s with churn := { c with records := c.records.map (fun e => (e.1, markRecord r seq e.2)),
                             recent := c.recent.map (fun e => (e.1, markRecord r seq e.2)),
                             firstFt := c.firstFt.map (markRecord r seq) } }

/-- Rewrites a slot as an invalid entry: Sequence set, all else zero; counted (R324, R326). -/
def invalidateSlot (q : Nat) (s : State) : State :=
  let v := s.journal.invalid
  let s1 := systemBursts (journalSlot q).1 1 <| writeLine (journalLine q) (beBytes 8 q) { s with journal := { s.journal with invalid := satAdd max16 v 1 } }
  if v + 1 = max16 then raise 0x084 0x33 0x20 s1 else s1

/-- After a channel has been retired, entries that have not reached DRAM take new sequences that pass over it, in queue
order (R319). -/
def renumberJournal (s : State) : State :=
  match s.journal.queue.head?.bind (fun e => e.seq) with
  | none => s
  | some q => settleJournal { s with journal := { s.journal with nextSeq := q,
                                                                 queue := s.journal.queue.map (fun e => { e with seq := none }) } }

/-- Writes the entry at the head of the queue into its slot. -/
def writeHead (e : JEntry) (q : BitVec 64) (rest : List JEntry) (s : State) : State :=
  let s1 := systemBursts (journalSlot q.toNat).1 1 <| writeLine (journalLine q.toNat) (entryBytes e) { s with journal := { s.journal with queue := rest, written := q + 1 } }
  let s2 := match e.faultRecord with
    | some r => markJournaled r q s1
    | none => s1
  settleJournal s2

/-- The oldest entry of the queue goes through the system input into its slot; none while there is no entry, it has no
sequence yet, its channel is in self-refresh, or its row is under test (R321, R367). -/
def journalStep (s : State) : Option State :=
  match s.journal.queue with
  | [] => none
  | e :: rest =>
    match e.seq with
    | none => none
    | some q => if (getChan s (q.toNat % 64)).selfRefresh || markedRow s (journalLine q.toNat) then none else some (writeHead e q rest s)

/-- JOURNAL_WRITE (R321). -/
def execJournalWrite (s : State) : Host.Outcome State Fault Refusal := .next ((journalStep s).getD s)

/-- Writes at most `n` entries of the queue. -/
def flushJournal : Nat → State → State
  | 0, s => s
  | n + 1, s => ((journalStep s).map (flushJournal n)).getD s

end Sys2Proof.Machine
end

