-- ==== Sys2Proof/Machine/PortOps.lean ====
section
/-! DEFINITION. Operations on the data ports that several families share: which ports and lanes the plan gives a
quad (R59, R60, R264), the transmit set and its members (R64), sending frames (R69 to R71), freeing QPs (R87, R105),
the loss of an interface (R66), and the recalibration queue (R77, R78). -/

namespace Sys2Proof.Machine

/-! ### What the plan gives -/

/-- Quad q's mode code and present mask in the plan in force (R264). -/
def quadMode (s : State) (q : Nat) : Nat × Nat :=
  match s.plans.plan with
  | some p => (p.modes[q]?).getD (0, 0)
  | none => (0, 0)

/-- The index of a port within its quad in lane order, for the mode; none when no port starts there (R59, R60). -/
def portIndex (mode p : Nat) : Option Nat :=
  if mode = 4 then (if p % 4 = 0 then some 0 else none)
  else if mode = 2 then (if p % 2 = 0 then some (p % 4 / 2) else none)
  else if mode = 1 then some (p % 4) else none

/-- The lanes of a port: 4, 2 or 1 from its number on (R59). -/
def portLanes (mode p : Nat) : List Nat := (List.range (if mode = 4 then 4 else if mode = 2 then 2 else 1)).map (p + ·)

/-- The port is present under the plan in force (R59, R264). -/
def portPresent (s : State) (p : Nat) : Bool :=
  let m := quadMode s (p / 4)
  match portIndex m.1 p with
  | some i => m.2.testBit i
  | none => false

/-- The port that a lane belongs to (R60). -/
def lanePort (s : State) (l : Nat) : Nat :=
  let m := (quadMode s (l / 4)).1
  if m = 4 then l / 4 * 4 else if m = 2 then l / 2 * 2 else l

/-- The rate of a port in 0.1 Gb/s (R59). -/
def portRate (s : State) (p : Nat) : Nat :=
  let m := (quadMode s (p / 4)).1
  if m = 4 then 8000 else if m = 2 then 4000 else 2000

/-- The interface record of quad q. -/
def ifaceOf (s : State) (q : Nat) : Option Iface :=
  match s.plans.plan with
  | some p => p.ifaces[q]?
  | none => none

/-- The port record. -/
def getPort (s : State) (p : Nat) : Port := Map.get Port.zero p s.ports

/-- Writes a port record. -/
def setPort (p : Nat) (v : Port) (s : State) : State := { s with ports := Map.set Port.zero p v s.ports }

/-- The lane record. -/
def getLane (s : State) (l : Nat) : Lane := Map.get Lane.zero l s.lanes

/-- Writes a lane record. -/
def setLane (l : Nat) (v : Lane) (s : State) : State := { s with lanes := Map.set Lane.zero l v s.lanes }

/-! ### The transmit set -/

/-- A port is in its interface's transmit set (R64). -/
def inSet (p : Port) : Bool := p.present && p.up && !p.quiesced && !p.heldOut

/-- The members of quad q's interface in ascending port number: the transmit set, or, while it is empty, every up
port that is not quiesced (R64). -/
def members (s : State) (q : Nat) : List Nat :=
  let ps := (List.range 4).map (4 * q + ·)
  let set := ps.filter (fun p => inSet (getPort s p))
  if set = [] then ps.filter (fun p => (getPort s p).present && (getPort s p).up && !(getPort s p).quiesced) else set

/-- The member that a QP's traffic leaves through (R64). -/
def egress (s : State) (q : Nat) (qpn : BitVec 24) : Option Nat :=
  let m := members s q
  if m = [] then none else m[(crc32c (beBytes 3 qpn.toNat)).toNat % m.length]?

/-! ### Sending -/

/-- The frame ends with a stomped FCS: it was stomped, or a tag result of its lines is not passing when its FCS begins (R81, R144). -/
def isStomped : TxFrame → Bool
  | .rdma t => !t.fcsOk || t.tags.any (fun r => r.tag ≠ .pass)
  | .stomped _ => true
  | _ => false

/-- The frame with its FCS stomped (R213). -/
def stomp : TxFrame → TxFrame
  | .rdma t => .rdma { t with fcsOk := false }
  | .stomped f => .stomped f
  | f => .stomped f

/-- The tag results that are absent when a frame's FCS begins (R144). -/
def absentTags : TxFrame → List TagResult
  | .rdma t => t.tags.filter (fun r => r.tag = .pending)
  | .stomped f => absentTags f
  | _ => []

/-- A crypto lane's line is the one that a tag result is awaited for. -/
def awaits (r : TagResult) (e : CryptoEntry) : Bool :=
  e.req.kind = .read && e.req.qpn = r.qpn && e.req.psn = r.psn && e.req.serial = r.serial && e.req.dma = r.dma

/-- A line whose tag result is absent when the FCS begins: poison, kind 0x05 and a late alarm; what the lane gives afterwards undoes
nothing and adds nothing (R144). -/
def lateTag (r : TagResult) (s : State) : State :=
  let h := homeOf s r.dma
  let marked := s.path.inCrypto.map (fun e => (e.1, e.2.map (fun x => if awaits r x then { x with late := true } else x)))
  let s1 := tagFailure h.1 h.2 r.dma { s with path := { s.path with inCrypto := marked } }
  { s1 with stats := { s1.stats with lateAlarms := satAdd max48 s1.stats.lateAlarms 1 } }

/-- The IP header fields of a frame: packets of a QP have their class's DSCP and ECT(0), the others the control DSCP and Not-ECT; TTL
or hop limit is 64 (R70, R71, R73). -/
def ipHead (control : Nat) : TxFrame → Option IpHead
  | .rdma t => some { dscp := t.dscp, ecn := 2, ttl := 64 }
  | .cnp _ _ _ | .mad _ | .advertisement _ _ _ | .unsolicitedAdvertisement _ | .echoReply _ _ _ =>
    some { dscp := control, ecn := 0, ttl := 64 }
  | .arpReply _ _ | .gratuitousArp _ | .pfc _ _ => none
  | .stomped f => ipHead control f

/-- The BTH fields of a frame that has a BTH (R84). -/
def bthHead : TxFrame → Option BthHead
  | .rdma _ | .cnp _ _ _ | .mad _ => some { version := 0, pkey := 0xFFFF, migration := true }
  | .stomped f => bthHead f
  | _ => none

/-- MAC control frames are not tagged. -/
def macControl : TxFrame → Bool
  | .pfc _ _ => true
  | .stomped f => macControl f
  | _ => false

/-- A frame of a priority as an interface's ports send it (R63): the interface's MAC address, and its VLAN with the priority when it is
tagged. -/
def sentFrame (i : Iface) (prio : Nat) (f : TxFrame) : Sent :=
  { smac := i.mac,
    tag := if i.vlan.getLsbD 15 && !macControl f then some (BitVec.ofNat 16 (prio % 8 * 8192 + i.vlan.toNat % 4096)) else none,
    ip := ipHead i.controlDscp f, bth := bthHead f, frame := f }

/-- What an interface that the plan does not give would be. -/
def noIface : Iface :=
  { hasV4 := false, hasV6 := false, lossless := 0, vlan := 0, mac := 0, controlPrio := 0, controlDscp := 0, v4 := 0, v6 := 0, dscpMap := [] }

/-- A frame as its FCS is decided when it leaves (R144). -/
def withFcs : TxFrame → TxFrame
  | .rdma t => .rdma { t with fcsOk := !isStomped (.rdma t) }
  | f => f

/-- Hands a frame of a priority to the port's MAC: it leaves at once and is counted; its FCS is decided here (R81, R125, R144). -/
def transmit (p prio : Nat) (f : TxFrame) (s : State) : State :=
  let s0 := forEach (absentTags f) lateTag s
  let s1 := portCount p 13 1 { s0 with dataSent := (p, sentFrame ((ifaceOf s (p / 4)).getD noIface) prio (withFcs f)) :: s0.dataSent }
  let s2 := if isStomped f then portCount p 14 1 s1 else s1
  match f with
  | .rdma t => if isStomped f || t.payload = [] then s2 else tenantCount t.tenant 0 t.payload.length s2
  | .cnp _ _ _ | .stomped (.cnp _ _ _) => portCount p 15 1 s2
  | .pfc _ _ => portCount p 19 1 s2
  | _ => s2

/-- A CNP that waits behind a paused control priority is replaced by a later one for the same QP, the requester's QPN at its address
(R71). -/
def sameCnp (f g : TxFrame) : Bool :=
  match f, g with
  | .cnp d a m, .cnp e b n | .stomped (.cnp d a m), .cnp e b n => d = e && a = b && m = n
  | _, _ => false

/-- Nothing leaves a port that is down, or quiesced with its drain ended, nor any port while power fails or in safe state (R35, R67,
R340). -/
def silent (s : State) (p : Nat) : Bool :=
  let r := getPort s p
  !r.up || (r.quiesced && !r.draining) || s.pins.powerFail || safePhase s.tank.phase

/-- Sends a frame of a priority on a port: a priority under the PFC watchdog is discarded and counted; a paused priority queues (R70).
PFC frames are never paused. -/
def sendFrame (p prio : Nat) (f : TxFrame) (s : State) : State :=
  let r := getPort s p
  if silent s p then s
  else match f with
    | .pfc _ _ => transmit p prio f s
    | _ =>
      if r.discarding.getLsbD prio then portCount p 21 1 s
      else if r.paused.getLsbD prio then
        setPort p { r with queue := r.queue.filter (fun e => !sameCnp e.2 f) ++ [(prio, f)] } s
      else transmit p prio f s

/-- Sends the frames of a priority that a port had queued (R70). -/
def flushPrio (p prio : Nat) (s : State) : State :=
  let r := getPort s p
  let out := r.queue.filter (fun e => e.1 = prio)
  if silent s p then s
  else forEach out (fun e t => transmit p e.1 e.2 t) (setPort p { r with queue := r.queue.filter (fun e => e.1 ≠ prio) } s)

/-- Sends a frame of the control priority from an interface (R70). -/
def sendControl (q : Nat) (p : Nat) (f : TxFrame) (s : State) : State :=
  match ifaceOf s q with
  | some i => sendFrame p i.controlPrio f s
  | none => s

/-- One gratuitous ARP and one unsolicited neighbour advertisement on a member (R65). -/
def announce (p : Nat) (s : State) : State :=
  match ifaceOf s (p / 4) with
  | some i =>
    let s1 := if i.hasV4 then sendFrame p i.controlPrio (.gratuitousArp i.v4) s else s
    if i.hasV6 then sendFrame p i.controlPrio (.unsolicitedAdvertisement i.v6) s1 else s1
  | none => s

/-! ### QPs and the loss of an interface -/

/-- The QP context of a QPN. -/
def getQp (s : State) (qpn : BitVec 24) : Qp := Map.get Qp.zero qpn.toNat s.qps

/-- Writes a QP context. -/
def setQp (qpn : BitVec 24) (v : Qp) (s : State) : State := { s with qps := Map.set Qp.zero qpn.toNat v s.qps }

/-- A request that holds a read tracker: a READ, or an atomic in execution (R91); a replayed atomic holds none (R94). -/
def holdsTracker (o : QpOp) : Bool := o.kind = .read || (o.kind = .atomic && !o.dup)

/-- Requests that a QP drops: those whose lines may still take effect keep what their counters need (R96, R125). -/
def keepOrphans (qpn : BitVec 24) (tenant : Nat) (l : List QpOp) (s : State) : State :=
  { s with path := { s.path with orphans := s.path.orphans ++
      (l.filter (fun o => (o.kind = .write && decide (0 < o.linesLeft)) || (o.kind = .atomic && o.result.isNone))).map (fun o =>
        { qpn := qpn, tenant := tenant, op := o }) } }

/-- A QP enters error, which is counted for its tenant (R66, R96, R125). -/
def errorQp (qpn : BitVec 24) (s : State) : State :=
  let q := getQp s qpn
  if q.state = .error || q.state = .free then s else tenantCount q.tenant 25 1 (setQp qpn { q with state := .error } s)

/-- Frees a context: all zeros, its read trackers back in its quad's pool (R88, R91). One freed by disconnection or error is not
reassigned for 100 ms; one freed while connecting, by a REJ or by the timeout of R103, may be at once (R87). -/
def freeQp (qpn : BitVec 24) (hold : Bool) (s : State) : State :=
  let q := getQp s qpn
  let n := (q.ops.filter holdsTracker).length
  let s1 := keepOrphans qpn q.tenant q.ops (setQp qpn Qp.zero s)
  { s1 with qpnFreed := if hold then (qpn.toNat, s.tank.clockUs) :: s1.qpnFreed else s1.qpnFreed,
            trackers := Map.modify 0 q.iface (fun v => v - n) s1.trackers }

/-- The QPNs of the contexts bound to quad q's interface. -/
def ifaceQps (s : State) (q : Nat) : List Nat :=
  (s.qps.filter (fun e => e.2.iface = q && e.2.state ≠ .free)).map (fun e => e.1)

/-- An interface that has lost its last member: its QPs enter error and are freed, and one entry names it and their number (R66). -/
def interfaceLost (q : Nat) (s : State) : State :=
  let l := ifaceQps s q
  let s1 := forEach l (fun n t => freeQp (BitVec.ofNat 24 n) true (errorQp (BitVec.ofNat 24 n) t)) s
  journalEvent (0x050 + q) 0x42 0 ([BitVec.ofNat 8 q, 0, 0, 0] ++ beBytes 4 l.length) s1

/-- Changes a port record and applies what a changed transmit set brings: frames queued on a port that left it are
discarded (R66), a port that entered it announces itself (R65), an interface left with no member is lost (R66). -/
def changePort (p : Nat) (f : Port → Port) (s : State) : State :=
  let q := p / 4
  let before := members s q
  let set0 := inSet (getPort s p)
  let s1 := setPort p (f (getPort s p)) s
  let after := members s1 q
  let s2 := forEach (before.filter (fun m => !after.contains m))
    (fun m t => setPort m { getPort t m with queue := [] } t) s1
  let s3 := if !set0 && inSet (getPort s1 p) && s.tank.phase = 0x08 then announce p s2 else s2
  if before ≠ [] && after = [] then interfaceLost q s3 else s3

/-! ### Recalibration queue -/

/-- The temperature of a lane's edge sensor (R77, R234): sensor l ÷ 2. -/
def laneTemp (s : State) (l : Nat) : Int := (s.thermal.base[l / 2]?).getD 0

/-- A lane's port is up and not quiesced: it may be queued (R77). -/
def laneRuns (s : State) (l : Nat) : Bool :=
  let p := getPort s (lanePort s l)
  p.present && p.up && !p.quiesced

/-- A lane may join the queue behind: it is not queued, and its own attempt is not under way (R77, R80). -/
def mayQueue (s : State) (l : Nat) : Bool :=
  laneRuns s l && !s.recal.urgent.contains l && !s.recal.queue.contains l && s.recal.active ≠ some l

/-- Queues a lane for recalibration: kind 0x10 places it at the head of the queue, its own attempt under way or not; otherwise it
joins behind (R75, R77). -/
def queueLane (urgent : Bool) (l : Nat) (s : State) : State :=
  if urgent then
    if laneRuns s l then
      { s with recal := { s.recal with urgent := l :: s.recal.urgent.filter (· ≠ l), queue := s.recal.queue.filter (· ≠ l) } }
    else s
  else if mayQueue s l then { s with recal := { s.recal with queue := s.recal.queue ++ [l] } } else s

/-- The next lane: those of kind 0x10 first, then the largest temperature change, then the lower number (R78). -/
def nextLane (s : State) : Option Nat :=
  match s.recal.urgent with
  | l :: _ => some l
  | [] => s.recal.queue.foldl (fun best l =>
      match best with
      | none => some l
      | some b =>
        let db := (laneTemp s b - (getLane s b).refTemp).natAbs
        let dl := (laneTemp s l - (getLane s l).refTemp).natAbs
        if db < dl ∨ (db = dl ∧ l < b) then some l else best) none

/-- An attempt is abandoned, with the current set kept (R80). -/
def abandonRecal (lanes : List Nat) (s : State) : State :=
  let s0 := { s with recal := { s.recal with urgent := s.recal.urgent.filter (fun l => !lanes.contains l),
                                             queue := s.recal.queue.filter (fun l => !lanes.contains l) } }
  match s.recal.active with
  | some l =>
    if lanes.contains l then
      setLane l { getLane s0 l with calibrating := false } { s0 with recal := { s0.recal with active := none } }
    else s0
  | none => s0

/-- The plan's ΔT in 0.1 °C and its SNR floor in 0.1 dB, with the defaults of R77. -/
def calibration (s : State) : Nat × Nat :=
  match s.plans.plan with
  | some p => (p.deltaT * 10, p.snrFloor)
  | none => (80, 180)

/-- Queues every lane whose edge sensor has moved by more than ΔT from its reference (R77). -/
def queueByTemp (s : State) : State :=
  forEach (upTo 16) (fun l t =>
    if ((laneTemp t l - (getLane t l).refTemp).natAbs > (calibration t).1) then queueLane false l t else t) s

end Sys2Proof.Machine
end

