-- ==== Sys2Proof/Machine/MemOps.lean ====
section
/-! DEFINITION. The memory path that every request shares: class queues (R192, R193), the pending-write list (R53),
completion and latency samples (R197), a QP's responses in order (R95, R96), page words and counters of a write (R139,
R145, R146), and the read half of a line (R98, R142, R226). -/

namespace Sys2Proof.Machine

/-! ### Queues -/

/-- The class queue of a channel and class. -/
def classQ (s : State) (ch c : Nat) : List LineReq := Map.get [] (ch * 16 + c) s.path.classQ

/-- Writes a class queue. -/
def setClassQ (ch c : Nat) (l : List LineReq) (s : State) : State :=
  { s with path := { s.path with classQ := Map.set [] (ch * 16 + c) l s.path.classQ } }

/-- The bank queue of a channel and bank. -/
def bankQ (s : State) (ch b : Nat) : List BankEntry := Map.get [] (ch * 32 + b) s.path.bankQ

/-- Writes a bank queue. -/
def setBankQ (ch b : Nat) (l : List BankEntry) (s : State) : State :=
  { s with path := { s.path with bankQ := Map.set [] (ch * 32 + b) l s.path.bankQ } }

/-- Bursts that have arrived at a channel engine and wait for their decode, oldest first. -/
def inFlight (s : State) (ch : Nat) : List Burst := Map.get [] ch s.path.inFlight

/-- Writes the arrived bursts of a channel. -/
def setInFlight (ch : Nat) (l : List Burst) (s : State) : State :=
  { s with path := { s.path with inFlight := Map.set [] ch l s.path.inFlight } }

/-- Lines of a channel in its crypto lane, oldest first. -/
def inCrypto (s : State) (ch : Nat) : List CryptoEntry := Map.get [] ch s.path.inCrypto

/-- Writes the lines in the crypto lane of a channel. -/
def setInCrypto (ch : Nat) (l : List CryptoEntry) (s : State) : State :=
  { s with path := { s.path with inCrypto := Map.set [] ch l s.path.inCrypto } }

/-- Verified read halves of a channel that wait for their write half. -/
def halves (s : State) (ch : Nat) : List HalfEntry := Map.get [] ch s.path.halves

/-- Writes the waiting write halves of a channel. -/
def setHalves (ch : Nat) (l : List HalfEntry) (s : State) : State :=
  { s with path := { s.path with halves := Map.set [] ch l s.path.halves } }

/-- Skimmer visits of a channel whose burst has arrived, oldest first. -/
def arrivedVisits (s : State) (ch : Nat) : List LineReq := Map.get [] ch s.path.served

/-- Writes the arrived visits of a channel. -/
def setArrivedVisits (ch : Nat) (l : List LineReq) (s : State) : State :=
  { s with path := { s.path with served := Map.set [] ch l s.path.served } }

/-- A class on a channel. -/
def getCls (s : State) (ch c : Nat) : ClsCh := Map.get ClsCh.zero (ch * 16 + c) s.clsCh

/-- Writes a class on a channel. -/
def setCls (ch c : Nat) (v : ClsCh) (s : State) : State :=
  { s with clsCh := Map.set ClsCh.zero (ch * 16 + c) v s.clsCh }

/-- A bank. -/
def getBank (s : State) (ch b : Nat) : DBank := Map.get DBank.zero (ch * 32 + b) s.banks

/-- Writes a bank. -/
def setBank (ch b : Nat) (v : DBank) (s : State) : State := { s with banks := Map.set DBank.zero (ch * 32 + b) v s.banks }

/-- The class record of the plan in force, when the class is in use. -/
def classRec (s : State) (c : Nat) : Option ClassRec :=
  match s.plans.plan with
  | some p => (p.classes[c]?).filter (fun r => r.inUse)
  | none => none

/-- A class's cap per channel (R188). -/
def classCap (s : State) (c : Nat) : Nat := ((classRec s c).map (fun r => r.cap)).getD 0

/-- A class's latency target in ns (R188). -/
def classTarget (s : State) (c : Nat) : Nat := ((classRec s c).map (fun r => r.target)).getD 1000

/-- Partial writes and atomics: the read-modify-writes (R13). -/
def isRmw (k : ReqKind) : Bool := k = .partWrite || k = .cmpSwap || k = .fetchAdd

/-- The atomics. -/
def isAtomic (k : ReqKind) : Bool := k = .cmpSwap || k = .fetchAdd

/-- At its ordering point every client request but a read counts as a write (R99). -/
def isWrite (k : ReqKind) : Bool := k = .fullWrite || isRmw k

/-- Work of the device itself, on the separate input of R12. -/
def isOwn (k : ReqKind) : Bool := k = .visit || k = .carry || k = .zero || k = .erase || k = .copy

/-- Requests that read a line and write it again: their bank is held between the two (R171). -/
def readsBack (k : ReqKind) : Bool := isRmw k || k = .carry

/-- What a drain completes where it stands (R52): all but reads and visits. -/
def keptByDrain (k : ReqKind) : Bool := k ≠ .read && k ≠ .visit

/-- The class number that stands for the system input (R195). -/
def systemClass : Nat := 16

/-- The physical line of a request: a visit's own, or the home of the tenant line (R233). -/
def reqLine (s : State) (ch : Nat) (r : LineReq) : Nat :=
  match r.target with
  | some v => if v.dma.isSome then dataHome s ch (homeOf s r.dma).2 else v.line
  | none => dataHome s ch (homeOf s r.dma).2

/-- The number under which a request's line is locked: its tenant line, or a line of its own beyond them. -/
def lockKey (r : LineReq) : Nat :=
  match r.target with
  | some v => if v.dma.isSome then r.dma / 64 else 2 ^ 40 + v.line
  | none => r.dma / 64

/-- The line lock of a DMA (R13). -/
def lockLine (dma : Nat) (s : State) : State := { s with path := { s.path with locks := NSet.add (dma / 64) s.path.locks } }

/-- Releases the line lock. -/
def unlockLine (dma : Nat) (s : State) : State := { s with path := { s.path with locks := NSet.del (dma / 64) s.path.locks } }

/-- A Skimmer visit takes the lock of its line (R222). -/
def lockVisit (r : LineReq) (s : State) : State := { s with path := { s.path with locks := NSet.add (lockKey r) s.path.locks } }

/-- A visit releases the lock of its line. -/
def unlockVisit (r : LineReq) (s : State) : State := { s with path := { s.path with locks := NSet.del (lockKey r) s.path.locks } }

/-- The line is locked. -/
def isLocked (s : State) (dma : Nat) : Bool := NSet.has (dma / 64) s.path.locks

/-- The requests of a channel that have passed their ordering points and are not done in the engine: bank queues, the second column
command, arrived bursts, the crypto lane, write halves. -/
def engineReqs (s : State) (ch : Nat) : List LineReq :=
  ((List.range 32).map (fun b => (bankQ s ch b).map (fun e => e.req))).flatten ++
    ((getChan s ch).second.map (fun x => x.entry.req)).toList ++ (inFlight s ch).map (fun b => b.req) ++
    (inCrypto s ch).map (fun e => e.req) ++ (halves s ch).map (fun h => h.req)

/-- Writes of a line that have passed its ordering point and are not written yet. -/
def passedWrites (s : State) (ch dma : Nat) : Nat :=
  ((engineReqs s ch).filter (fun r => isWrite r.kind && r.target.isNone && r.dma / 64 = dma / 64)).length

/-- Some request under way in an engine is one that `f` names. -/
def anyInEngines (s : State) (f : LineReq → Bool) : Bool :=
  s.path.bankQ.any (fun e => e.2.any (fun x => f x.req)) || s.path.inFlight.any (fun e => e.2.any (fun x => f x.req)) ||
    s.path.inCrypto.any (fun e => e.2.any (fun x => f x.req)) || s.path.halves.any (fun e => e.2.any (fun x => f x.req)) ||
    s.path.served.any (fun e => e.2.any f) || s.chans.any (fun e => (e.2.second.map (fun x => f x.entry.req)).getD false)

/-- The channels that hold lines of a page. -/
def pageChannels (s : State) (page : Nat) : List Nat := ((upTo 64).map (fun i => (homeOf s (page * 4096 + 64 * i)).1)).dedup

/-- A channel that holds lines of a page is in self-refresh: no work on the page can be done. -/
def pageAsleep (s : State) (page : Nat) : Bool := (pageChannels s page).any (fun ch => (getChan s ch).selfRefresh)

/-- The Separator, the Skimmer and page retirement can work on a channel: its ordering point is open to them (R12, R186). -/
def ownOpen (s : State) (ch : Nat) : Bool :=
  upkeepRuns s && !(getChan s ch).selfRefresh && !isRetired s ch && !s.retiring.contains ch

/-- Work on a page can end: its channels and that of its page word are open. A retired channel takes no part (R187). -/
def pageOpen (s : State) (page : Nat) : Bool :=
  upkeepRuns s && (pageChannels s page).all (fun ch => isRetired s ch || ownOpen s ch) && ownOpen s (lineChannel (pageWordHome s page).1)

/-- Writes or visits of a page stand in an engine, or one of its lines is locked: work on the page comes after them. -/
def pageInEngines (s : State) (page : Nat) : Bool :=
  anyInEngines s (fun r => r.kind ≠ .read && r.dma / 4096 = page && (r.target.map (fun v => v.dma.isSome)).getD true) ||
    s.path.locks.any (fun k => k / 64 = page)

/-- Request `a` goes before `b`: by the cycle it entered its class queue, then by data port, then by QPN (R12, R166). -/
def headBefore (a b : LineReq) : Bool :=
  decide (a.enq < b.enq) || (a.enq = b.enq && (decide (a.port < b.port) || (a.port = b.port && decide (a.qpn < b.qpn))))

/-- A request takes its place in a class queue: last, but for the requests of other QPs that entered in the same cycle and come after it
in the order of R12. -/
def placeReq (r : LineReq) (l : List LineReq) : List LineReq :=
  let n := (l.reverse.takeWhile (fun x => x.qpn ≠ r.qpn && x.enq = r.enq && headBefore r x)).length
  l.take (l.length - n) ++ r :: l.drop (l.length - n)

/-- A request enters its class queue at the channel's present cycle; a write's address joins the channel's pending-write
list in the Tank (R12, R53, R192). -/
def enterClass (r : LineReq) (s : State) : State :=
  let ch := (homeOf s r.dma).1
  let s1 := setClassQ ch r.cls (placeReq { r with enq := cycleOf s ch } (classQ s ch r.cls)) s
  if isWrite r.kind then { s1 with tank := { s1.tank with pendingWrites := s1.tank.pendingWrites ++ [(ch, r.dma)] } } else s1

/-- A write's address leaves the pending-write list with its last burst (R53). -/
def writeSettled (r : LineReq) (s : State) : State :=
  { s with tank := { s.tank with pendingWrites := s.tank.pendingWrites.erase ((homeOf s r.dma).1, r.dma) } }

/-- Moves waiting requests into their class queues of 64, each QP's in order (R192): `blocked` are the QPs with a request
left behind. -/
def drainList : List LineReq → List (BitVec 24) → State → State
  | [], _, s => s
  | r :: t, blocked, s =>
    if blocked.contains r.qpn || decide (64 ≤ (classQ s (homeOf s r.dma).1 r.cls).length) then
      drainList t (r.qpn :: blocked) { s with path := { s.path with backlog := s.path.backlog ++ [r] } }
    else drainList t blocked (enterClass r s)

/-- Requests waiting in packet buffers take the room there is. -/
def drainBacklog (s : State) : State := drainList s.path.backlog [] { s with path := { s.path with backlog := [] } }

/-- A packet's requests go towards their class queues in PSN order (R15, R192). -/
def submit (l : List LineReq) (s : State) : State :=
  drainBacklog { s with path := { s.path with backlog := s.path.backlog ++ l } }

/-! ### Completion (R193, R197) -/

/-- Bin counter of a class on a channel: 32 bits (R206, R207). -/
def binCount (ch c bin : Nat) (s : State) : State :=
  let key := (ch * 16 + c) * 32 + (2 + bin)
  let v := Map.get 0 key s.ctr.cls
  let w := satAdd max32 v 1
  let s1 := { s with ctr := { s.ctr with cls := Map.set 0 key w s.ctr.cls } }
  if s.retired.getLsbD ch then s
  else if w = max32 ∧ v ≠ max32 then raise 0x087 0x33 (ch * 1024 + c * 64 + (2 + bin)) s1 else s1

/-- The latency sample of a request, in thirds of a ns: its cycles on the channel and 317 ns (R197). -/
def sampleThirds (s : State) (ch enq : Nat) : Nat := (cycleOf s ch - enq) + 951

/-- The bin of a sample (R197). -/
def sampleBin (thirds target : Nat) : Nat := min 15 (4 * thirds / (3 * (if target = 0 then 1 else target)))

/-- A request of a class has completed on its channel: it is no longer outstanding, and gives one sample (R193, R197). -/
def completeReq (ch : Nat) (r : LineReq) (s : State) : State :=
  let v := getCls s ch r.cls
  let t := sampleThirds s ch r.enq
  let s1 := setCls ch r.cls { v with outstanding := v.outstanding - 1, window := v.window ++ [t] } s
  binCount ch r.cls (sampleBin t (classTarget s r.cls)) (classCount ch (some r.cls) 1 1 1 s1)

/-! ### A QP's responses in order (R95, R96) -/

/-- The UDP source port of a QP's packets (R88). -/
def srcPortOf (qpn : BitVec 24) : W16 := BitVec.ofNat 16 (0xC000 + qpn.toNat % 2 ^ 14)

/-- Sends a packet of a QP on the member its hash selects, with its class's priority and DSCP (R64, R70, R191), and the tag results of
the lines it carries (R144). -/
def sendRdma (qpn : BitVec 24) (opcode : Byte) (psn : BitVec 24) (syn : Option Byte) (payload : List Byte)
    (orig : Option W64) (tags : List TagResult) (s : State) : State :=
  let q := getQp s qpn
  match egress s q.iface qpn with
  | none => s
  | some p =>
    let c := classRec s q.cls
    let prio := (c.map (fun r => r.pfc)).getD 0
    let t : RdmaTx :=
      { tenant := q.tenant, opcode := opcode, dqp := q.remoteQpn, psn := psn, syndrome := syn, msn := q.msn, payload := payload, orig := orig,
        fcsOk := true, tags := tags, ip := q.remote, mac := q.nextHop, srcPort := srcPortOf qpn, flow := q.flow, prio := prio,
        dscp := (c.map (fun r => r.dscp)).getD 0 }
    sendFrame p prio (.rdma t) s

/-- The PSN that the next ACK carries: that of the latest write packet before which every packet is done; for duplicates alone the
Acknowledged PSN as it stands (R94, R95). -/
def ackPsnOf (q : Qp) : BitVec 24 := if q.ackNew then q.donePsn else q.ackPsn

/-- A QP with no write packet left to acknowledge (R88, R95). -/
def nothingDue (q : Qp) : Qp := { q with unacked := 0, ackDeadline := 0, ackSince := 0, ackNew := false, doneSince := 0, ackDue := false }

/-- Sends the ACK that R95 describes. -/
def sendAck (qpn : BitVec 24) (s : State) : State :=
  let q := getQp s qpn
  setQp qpn { nothingDue (getQp s qpn) with ackPsn := ackPsnOf q }
    (sendRdma qpn 0x11 (ackPsnOf q) (some 0x1F) [] none [] s)

/-- The tenant counter of a NAK syndrome (R125). -/
def nakCounter (syn : Byte) : Nat := if syn = 0x60 then 17 else if syn = 0x61 then 18 else if syn = 0x62 then 19 else 20

/-- Sends a NAK with a PSN (R96), counted for the tenant; the Acknowledged PSN is that of the last response sent (R88). It stands for
the ACK of what went before; what comes after a fatal one is not acknowledged (R95, R96). -/
def sendNak (qpn : BitVec 24) (psn : BitVec 24) (syn : Byte) (s : State) : State :=
  let s1 := sendRdma qpn 0x11 psn (some syn) [] none [] s
  tenantCount (getQp s qpn).tenant (nakCounter syn) 1 (setQp qpn { nothingDue (getQp s1 qpn) with ackPsn := psn } s1)

/-- The PSN of the oldest READ or atomic not fully answered (R88). -/
def oldestOutstanding (l : List QpOp) : BitVec 24 := ((l.find? holdsTracker).map (fun o => o.psn)).getD 0

/-- The low 16 bits of the coalescing deadline of a write packet done at microsecond `t`, in 64ths of 3.0 GHz cycles (R88). -/
def deadlineOf (t : Nat) : W16 := BitVec.ofNat 16 ((t * 3000 + 3000) / 64)

/-- A done write packet leaves the order: it counts towards the next ACK, which is due 1 µs after the oldest of them became done
(R88, R95). -/
def notePacketDone (o : QpOp) (q : Qp) : Qp :=
  let since := if q.unacked = 0 then o.doneAt else min q.ackSince o.doneAt
  { q with
    unacked := q.unacked + 1, donePsn := if o.dup then q.donePsn else o.psn,
    msn := if o.lastOfMsg then q.msn + 1 else q.msn,
    ackSince := since, ackDeadline := deadlineOf since, ackNew := q.ackNew || !o.dup }

/-- A write packet has become done: the ACK falls due at once with the 16th since the last ACK or response, and with one that waited for its
page (R95). -/
def countDone (qpn : BitVec 24) (waited : Bool) (s : State) : State :=
  let q := getQp s qpn
  setQp qpn { q with doneSince := q.doneSince + 1, ackDue := q.ackDue || waited || decide (16 ≤ q.doneSince + 1) } s

/-- The head of a QP's order is settled while it can be: done write packets leave the order; a NAK that has reached its
turn is sent (R95, R96). -/
def settleOps (qpn : BitVec 24) : Nat → State → State
  | 0, s => s
  | n + 1, s =>
    let q := getQp s qpn
    match q.ops with
    | [] => s
    | o :: rest =>
      if o.kind = .nak then settleOps qpn n (sendNak qpn o.psn o.syndrome (setQp qpn { q with ops := rest } s))
      else if o.kind = .write && o.linesLeft = 0 then settleOps qpn n (setQp qpn (notePacketDone o { q with ops := rest }) s)
      else s

/-- Settles a QP's order and sends the ACK that falls due at 16 packets or after a page's preparation (R95). -/
def settleQp (qpn : BitVec 24) (s : State) : State :=
  let t := settleOps qpn (getQp s qpn).ops.length s
  if (getQp t qpn).ackDue && decide (0 < (getQp t qpn).unacked) then sendAck qpn t else t

/-- The requests of a QP's order from `keep` on are dropped, and their read trackers come back (R91, R96). -/
def dropOps (qpn : BitVec 24) (keep : Nat) (s : State) : State :=
  let q := getQp s qpn
  let n := ((q.ops.drop keep).filter holdsTracker).length
  keepOrphans qpn q.tenant (q.ops.drop keep)
    { setQp qpn { q with ops := q.ops.take keep, outstanding := q.outstanding - n, oldestPsn := oldestOutstanding (q.ops.take keep) } s with
      trackers := Map.modify 0 q.iface (fun v => v - n) s.trackers }

/-- A fatal NAK is decided (R96): the QP enters error, and the requests of its order are dropped from `keep` on. One that is disconnecting
stays so (DESIGN CHOICE, notes/assumptions/113.md). -/
def enterError (qpn : BitVec 24) (keep : Nat) (s : State) : State :=
  let t := dropOps qpn keep s
  if (getQp s qpn).state = .disconnecting then t else errorQp qpn t

/-- The place in a QP's order of the request that a line answers. -/
def opIndex (q : Qp) (r : LineReq) : Option Nat :=
  q.ops.findIdx? (fun o => o.psn = r.psn && o.serial = r.serial && o.kind ≠ .nak)

/-- Changes the request of a QP that a line answers. -/
def changeOp (r : LineReq) (f : QpOp → QpOp) (s : State) : State :=
  let q := getQp s r.qpn
  match opIndex q r with
  | some i => setQp r.qpn { q with ops := q.ops.modify i f } s
  | none => s

/-- A line of a write packet has passed its ordering point (R88). -/
def linePasses (r : LineReq) (s : State) : State := changeOp r (fun o => { o with toPass := o.toPass - 1 }) s

/-- The request that a line answers, as it stands in its QP's order. -/
def opOf (s : State) (r : LineReq) : Option QpOp := (opIndex (getQp s r.qpn) r).bind (fun i => (getQp s r.qpn).ops[i]?)

/-- A line answers a request that its QP has dropped. -/
def isOrphanOf (r : LineReq) (x : Orphan) : Bool := x.qpn = r.qpn && x.op.psn = r.psn && x.op.serial = r.serial

/-- The dropped request that a line answers (R125). -/
def orphanOf (s : State) (r : LineReq) : Option Orphan := s.path.orphans.find? (isOrphanOf r)

/-- A dropped request has taken effect, or has failed. -/
def endOrphan (r : LineReq) (s : State) : State :=
  { s with path := { s.path with orphans := s.path.orphans.filter (fun x => !isOrphanOf r x) } }

/-- A write packet has been applied: counted with its bytes, and as a message with its last packet (R125). -/
def countApplied (tenant : Nat) (o : QpOp) (s : State) : State :=
  let s1 := tenantCount tenant 4 1 (tenantCount tenant 1 o.len s)
  if o.lastOfMsg then tenantCount tenant 3 1 s1 else s1

/-- A line of a dropped write packet is done. -/
def orphanLineDone (r : LineReq) (s : State) : State :=
  match orphanOf s r with
  | none => s
  | some x =>
    if x.op.linesLeft = 1 then countApplied x.tenant x.op (endOrphan r s)
    else { s with path := { s.path with orphans := s.path.orphans.map (fun y =>
      if isOrphanOf r y then { y with op := { y.op with linesLeft := y.op.linesLeft - 1 } } else y) } }

/-- A line of a write packet is done; the packet is counted with its last line (R95, R125). -/
def writeLineDone (r : LineReq) (s : State) : State :=
  match opOf s r with
  | none => orphanLineDone r s
  | some o =>
    let s1 := changeOp r (fun o => { o with linesLeft := o.linesLeft - 1, doneAt := s.tank.clockUs }) s
    if o.linesLeft = 1 then settleQp r.qpn (countDone r.qpn o.waited (countApplied (getQp s r.qpn).tenant o s1)) else s1

/-- A request is refused because a line of it is poisoned: counted once for the request (R125). -/
def countRefusal (r : LineReq) (s : State) : State :=
  match opOf s r with
  | some o => if o.badPkt.isSome then s else tenantCount (getQp s r.qpn).tenant 14 1 s
  | none => ((orphanOf s r).map (fun x => tenantCount x.tenant 14 1 s)).getD s

/-- The response packet of a READ that would carry a byte of the message. -/
def packetOf (q : Qp) (o : QpOp) (dma : Nat) : Nat :=
  let mtu := 2 ^ (q.mtu.toNat + 7)
  (dma - o.dma) / mtu

/-- Execution has met a line that it cannot serve (R98): a READ ends before the packet that would carry it; a write packet
or atomic is answered by NAK Remote Operational Error. The QP enters error. -/
def failOp (r : LineReq) (s : State) : State :=
  let q := getQp s r.qpn
  match opIndex q r with
  | none => endOrphan r s
  | some i =>
    match q.ops[i]? with
    | none => s
    | some o =>
      if o.kind = .read then
        let k := packetOf q o (max r.dma o.dma)
        let bad := match o.badPkt with
          | some b => min b k
          | none => k
        enterError r.qpn (i + 1) (setQp r.qpn { q with ops := q.ops.set i { o with badPkt := some bad } } s)
      else
        let n := if holdsTracker o then 1 else 0
        settleQp r.qpn (enterError r.qpn (i + 1)
          { setQp r.qpn { q with ops := q.ops.set i { o with kind := .nak, syndrome := 0x63 }, outstanding := q.outstanding - n,
                                 oldestPsn := oldestOutstanding (q.ops.set i { o with kind := .nak }) } s with
            trackers := Map.modify 0 q.iface (fun v => v - n) s.trackers })

/-! ### Caches (R141, R142) -/

/-- An access to a cached line: it becomes the newest; where its set holds `ways` others, the oldest of them goes (R141). -/
def touchCache (ways : Nat) (set : Nat → Nat) (k : Nat) (l : NatSet) : NatSet :=
  let rest := l.filter (· ≠ k)
  if rest.length < ways then k :: rest
  else
    let mine := rest.filter (fun x => set x = set k)
    k :: (match (if mine.length < ways then none else mine.getLast?) with
      | some v => rest.filter (· ≠ v)
      | none => rest)

/-- The metadata line of a local line is in the cache; the cache is indexed by its original address (R233). -/
def metaHit (s : State) (ch loc : Nat) : Bool := s.metaCache.contains (tenantMeta ch loc)

/-- A line that enters the cache is not held otherwise than the array has it, until the decoder says so. -/
def freshHold (hit : Bool) (key : Nat) (s : State) : State := if hit then s else { s with misread := s.misread.filter (fun e => e.2.1 ≠ key) }

/-- A metadata line enters the cache, or becomes its newest: 16,384 sets of 16 lines. -/
def touchMeta (ch loc : Nat) (s : State) : State :=
  let s1 := freshHold (metaHit s ch loc) (tenantMeta ch loc) s
  { s1 with metaCache := touchCache 16 (fun x => Config.metaSet x % 16384) (tenantMeta ch loc) s.metaCache }

/-- A page-word line enters the cache, or becomes its newest: 6,144 sets of 8 lines. -/
def touchPage (page : Nat) (s : State) : State :=
  let w := pageWordSlot (planOf s) page
  let key := systemLine w.1 (w.2 / 16)
  let s1 := freshHold (s.pageCache.contains key) key s
  { s1 with pageCache := touchCache 8 (fun x => Config.pageSet x % 6144) key s.pageCache }

/-! ### Counters of a line -/

/-- A region entry. -/
def getRegion (s : State) (i : Nat) : Region := Map.get Region.zero i s.regions

/-- Writes a region entry. -/
def setRegion (i : Nat) (v : Region) (s : State) : State := { s with regions := Map.set Region.zero i v s.regions }

/-- The rewrite in progress on a page (R146). -/
def rewriteOf (s : State) (page : Nat) : Option Rewrite := s.sep.rewrites.find? (fun w => w.page = page)

/-- The stored word of a line verifies under a key slot and major counter. -/
def verifiesUnder (s : State) (dma slot major : Nat) : Bool :=
  let h := homeOf s dma
  let m := metaEntry s h.1 h.2
  tagOf (getKey s slot) slot dma major m.1 (lineData s (dataHome s h.1 h.2)) = m.2

/-- The key slot and major counter that the lines of a page under rewrite or move come from (R146, R150). -/
def oldKey (s : State) (x : Rewrite) : Nat × Nat := (slotFor (getRegion s x.region) (pwGen (pageWord s x.page)), x.major)

/-- The key slot and major counter that they go to: M + 1, or the next key at 0. -/
def newKey (s : State) (x : Rewrite) : Nat × Nat :=
  if x.move then ((getRegion s x.region).nextSlot, 0) else ((oldKey s x).1, x.major + 1)

/-- A line of a page under rewrite or move has been moved: by the mask, or, where a reset has lost it, by its tag (R146, R147, R152). -/
def lineMoved (s : State) (x : Rewrite) (dma : Nat) : Bool :=
  x.moved.getLsbD (dma / 64 % 64) || (x.recover && verifiesUnder s dma (newKey s x).1 (newKey s x).2)

/-- The key slot and major counter of a line: during a rewrite or move they follow the moved mask (R136, R146, R150). -/
def lineKey (s : State) (region dma : Nat) : Nat × Nat :=
  let w := pageWord s (dma / 4096)
  match rewriteOf s (dma / 4096) with
  | some x => if lineMoved s x dma then newKey s x else oldKey s x
  | none => (slotFor (getRegion s region) (pwGen w), pwMajor w)

/-- Marks a line of a page under rewrite as moved. -/
def markMoved (page idx : Nat) (s : State) : State :=
  { s with sep := { s.sep with rewrites := s.sep.rewrites.map (fun w =>
      if w.page = page then { w with moved := w.moved ||| (1#64 <<< idx) } else w) } }

/-- The tenant of a region. -/
def regionTenant (s : State) (region : Nat) : Nat := (getRegion s region).tenant

/-- Starts the rewrite of a page (R146), counted for the tenant and in the status object. -/
def startRewrite (page region major : Nat) (moved : BitVec 64) (s : State) : State :=
  tenantCount (regionTenant s region) 16 1
    { s with sep := { s.sep with rewrites := s.sep.rewrites ++ [{ page := page, region := region, major := major, moved := moved, move := false, recover := false, heldReqs := [] }] },
             stats := { s.stats with pageRewrites := satAdd max48 s.stats.pageRewrites 1 } }

/-- A line's bytes are written under its page's key and the next counters (R145, R146): minor + 1; or, in a rewrite, the
line's move; or, at minor 255, the start of a rewrite under M + 1 and minor 0. -/
def putLine (region dma : Nat) (plain : List Byte) (s : State) : State :=
  let h := homeOf s dma
  let page := dma / 4096
  let idx := dma / 64 % 64
  let minor := (metaEntry s h.1 h.2).1
  let k := lineKey s region dma
  match rewriteOf s page with
  | some w =>
    if w.moved.getLsbD idx then storeLine h.1 h.2 dma k.1 k.2 (minor + 1) plain s
    else storeLine h.1 h.2 dma (newKey s w).1 (newKey s w).2 0 plain (markMoved page idx s)
  | none =>
    if minor < 255 then storeLine h.1 h.2 dma k.1 k.2 (minor + 1) plain s
    else storeLine h.1 h.2 dma k.1 (k.2 + 1) 0 plain (startRewrite page region k.2 (1#64 <<< idx) s)

/-! ### The word of an atomic (R85, R99) -/

/-- A 64-bit word in memory, least significant byte first. -/
def leNat (bs : List Byte) : Nat := beNat bs.reverse

/-- The bytes of a word, least significant first. -/
def leBytes (n v : Nat) : List Byte := (beBytes n v).reverse

/-- Bytes of a line replaced from `o` on. -/
def splice (line : List Byte) (o : Nat) (bs : List Byte) : List Byte := line.take o ++ bs ++ line.drop (o + bs.length)

/-- The word that an atomic reads. -/
def atomicWord (r : LineReq) (plain : List Byte) : Nat := leNat ((plain.drop r.off).take 8)

/-- What a read-modify-write makes of the line it read; none for a CmpSwap whose comparison fails (R99). -/
def modified (r : LineReq) (plain : List Byte) : Option (List Byte) :=
  match r.kind with
  | .partWrite => some (splice plain r.off r.data)
  | .cmpSwap =>
    if atomicWord r plain = r.compare.toNat then some (splice plain r.off (leBytes 8 r.swapAdd.toNat)) else none
  | .fetchAdd => some (splice plain r.off (leBytes 8 (atomicWord r plain + r.swapAdd.toNat)))
  | _ => some r.data

/-- The read half of an atomic has verified: the original value enters the replay ring, and the response is formed
(R89, R99). -/
def formAtomic (r : LineReq) (plain : List Byte) (s : State) : State :=
  let q := getQp s r.qpn
  let v : W64 := BitVec.ofNat 64 (atomicWord r plain)
  match opIndex q r with
  | none =>
    ((orphanOf s r).map (fun x => tenantCount x.tenant (if r.kind = .cmpSwap then 5 else 6) 1 (endOrphan r s))).getD s
  | some i =>
    tenantCount q.tenant (if r.kind = .cmpSwap then 5 else 6) 1
      (setQp r.qpn { q with ops := q.ops.modify i (fun o => { o with result := some v }),
                            ring := ({ psn := r.psn, fetchAdd := r.kind = .fetchAdd, orig := v } : RingEntry) :: q.ring.take 7 } s)

/-! ### The read half of a line -/

/-- The row of a bank's open row closes at the first legal cycle: the auto-precharge of R170. -/
def closeRow (now : Nat) (b : DBank) : DBank :=
  { b with openRow := none, actOk := max b.actOk (max now b.preOk + 42) }

/-- The row that a request opens in its bank. -/
def rowOf (s : State) (ch : Nat) (r : LineReq) : Nat := lineRow (reqLine s ch r)

/-- The bank of a request's line. -/
def reqBank (s : State) (ch : Nat) (r : LineReq) : Nat := lineBank (reqLine s ch r)

/-- A standard channel closes a row with no queued request for it left; an express channel leaves it open (R170). -/
def autoPrecharge (ch b : Nat) (s : State) : State :=
  let k := getBank s ch b
  match k.openRow with
  | none => s
  | some row =>
    if decide (generalChannels (planOf s) ≤ ch) || k.reserved || (bankQ s ch b).any (fun e => rowOf s ch e.req = row) then s
    else setBank ch b (closeRow (cycleOf s ch) k) s

/-- A read-modify-write gives its bank back. When it wrote, its two column commands take this opportunity and the next: the bank is
busy to the end of the second one's burst (R171, R173). -/
def releaseBank (ch b : Nat) (wrote : Bool) (s : State) : State :=
  let now := cycleOf s ch + 4
  let k := getBank s ch b
  let s1 := if wrote then setChan ch { getChan s ch with writeEnd := some (now + 34), colBusy := 2 } s else s
  autoPrecharge ch b
    (setBank ch b { k with reserved := false, lastUse := if wrote then now else k.lastUse,
                           preOk := if wrote then max k.preOk (now + 82) else k.preOk } s1)

/-- What happens to a line outside the engine's column commands leaves the state of its bank and the channel's column commands alone. -/
def apartFrom (ch b : Nat) (f : State → State) (s : State) : State :=
  let t := f s
  setBank ch b (getBank s ch b)
    (setChan ch { getChan t ch with writeEnd := (getChan s ch).writeEnd, colBusy := (getChan s ch).colBusy } t)

/-- 64 bytes served for a class on a channel: one data-line column command (R206). -/
def served (ch c : Nat) (s : State) : State := classCount ch (some c) 0 0 64 s

/-! ### A line that a page rewrite or move carries (R146, R150, R191) -/

/-- Work of the device on a region's behalf is counted among the requests of its class (R191). -/
def countWork (ch : Nat) (r : LineReq) (s : State) : State := classCount ch (some r.cls) 1 1 1 s

/-- The carrying of a line ends: its lock and its bank are given back. -/
def endCarry (ch : Nat) (r : LineReq) (wrote : Bool) (s : State) : State := releaseBank ch (reqBank s ch r) wrote (unlockVisit r s)

/-- What carrying a line writes under the page's next key and counter; nothing where the page's rewrite or move is gone, or has moved
the line by another write. -/
def carryWith (ch : Nat) (r : LineReq) (put : Rewrite → State → State) (s : State) : State :=
  match rewriteOf s (r.dma / 4096) with
  | none => s
  | some x =>
    if lineMoved s x r.dma then s else countWork ch r (served ch r.cls (put x (markMoved x.page (r.dma / 64 % 64) s)))

/-- The write half of a line carried: verified plaintext, encrypted again at minor 0. -/
def finishCarry (ch : Nat) (r : LineReq) (plain : List Byte) (s : State) : State :=
  endCarry ch r true (carryWith ch r (fun x t =>
    storeLine (homeOf t r.dma).1 (homeOf t r.dma).2 r.dma (newKey s x).1 (newKey s x).2 0 plain t) s)

/-- A poisoned line is carried as poisoned, with minor 0. -/
def carryPoisoned (ch : Nat) (r : LineReq) (s : State) : State :=
  endCarry ch r true (carryWith ch r (fun _ t => writeMeta (homeOf t r.dma).1 (homeOf t r.dma).2 0 0 t) s)

/-- A request that gives up its line: its lock is released, it completes, and its packet or READ fails (R98); a line that the Separator
carries goes on as poison. -/
def dropReq (ch : Nat) (r : LineReq) (s : State) : State :=
  if r.kind = .carry then carryPoisoned ch r s
  else
    let s1 := if isRmw r.kind then writeSettled r (unlockLine r.dma s) else s
    let s2 := if isRmw r.kind then releaseBank ch (reqBank s ch r) false s1 else s1
    failOp r (completeReq ch r s2)

/-- An access is refused because its line reads as poisoned (R98, R216, R226). -/
def refusePoison (ch : Nat) (r : LineReq) (s : State) : State :=
  dropReq ch r (if r.kind = .carry then s else countRefusal r (chanCount ch 6 1 s))

/-- The metadata entry of a line is still the one that belongs to a word read before: no later write has taken the line (R11). -/
def stillStored (s : State) (ch loc minor : Nat) (tag : BitVec 56) : Bool := metaEntry s ch loc = (minor, tag)

/-- A line is uncorrectable on a demand access: poison, kind 0x03, or 0x06 for a partial write (R225, R226). A later write that has
taken the line since keeps its data (R11). -/
def refuseUncorrectable (stored : Bool) (ch loc : Nat) (r : LineReq) (s : State) : State :=
  let part := r.kind = .partWrite
  let s1 := chanCount ch (if part then 5 else 2) 1 (if stored then poisonFound ch loc r.dma s else s)
  let s2 := raise ch (if part then 0x06 else 0x03) r.dma s1
  dropReq ch r (if isRmw r.kind then countRefusal r s2 else s2)

/-- A correction by a demand access: logged and counted; a read's address goes to the early-scrub queue (R215). -/
def demandCorrection (ch loc : Nat) (r : LineReq) (lanes : List Nat) (nb : Nat) (er : Bool) (s : State) : State :=
  let s1 := noteCorrection ch r.dma (if readsBack r.kind then 2 else 0) true lanes nb er s
  if r.kind = .read then earlyScrub ch (dataHome s ch loc) (some r.dma) s1 else s1

/-- The burst that a request's column command reads: the word and its metadata entry as they stand (R11, R172). -/
def readBurst (ch : Nat) (r : LineReq) (withMeta : Bool) (s : State) : Burst :=
  let loc := (homeOf s r.dma).2
  let line := dataHome s ch loc
  let m := metaEntry s ch loc
  let k := lineKey s r.region r.dma
  { req := r, withMeta := withMeta, data := lineData s line, poisoned := isPoisoned s line, errors := standing s line, minor := m.1,
    tag := m.2, slot := k.1, major := k.2 }

/-- The decode of a demand read's burst (R209): the line for the crypto lane, or none when it cannot be served. -/
def decodeHalf (ch : Nat) (b : Burst) (path : Errors) (s : State) : Option CryptoEntry × State :=
  let r := b.req
  let loc := (homeOf s r.dma).2
  let line := dataHome s ch loc
  let d := decodeWord (erasedLanes (getChan s ch)) b.data b.poisoned (sumErrors (b.errors ++ pathErrors path)) s.free
  let s1 := countBurst line d (drawn s)
  let entry (ct : List Byte) : CryptoEntry :=
    { req := r, ct := ct, minor := b.minor, major := b.major, tag := b.tag, slot := b.slot, channel := ch, late := false }
  match d with
  | .clean data => (some (entry data), useRoundKeys ch b.slot s1)
  | .corrected data lanes nb er => (some (entry data), useRoundKeys ch b.slot (demandCorrection ch loc r lanes nb er s1))
  | .poisoned => (none, refusePoison ch r s1)
  | .uncorrectable => (none, refuseUncorrectable (stillStored s ch loc b.minor b.tag) ch loc r s1)

/-- The plaintext of a line in the crypto lane (R137). -/
def plainOf (s : State) (e : CryptoEntry) : List Byte :=
  cipherLine (getKey s e.slot) e.slot e.req.dma e.major e.minor e.ct

/-- The line's tag verifies (R138). -/
def tagOk (s : State) (e : CryptoEntry) : Bool :=
  tagOf (getKey s e.slot) e.slot e.req.dma e.major e.minor e.ct = e.tag

/-- The bytes of a line that a READ covers enter read staging, with the label of their request (R190). -/
def stageLine (r : LineReq) (plain : List Byte) (t : TagState) (s : State) : State :=
  changeOp r (fun o => { o with staged := o.staged ++
    [{ dma := r.dma, data := (plain.drop r.off).take r.len, tag := t, cls := r.cls, slot := r.slot }] }) s

/-- The write half: merged, encrypted and written; the lock and the bank are released, the request completes (R171). A
CmpSwap that failed writes nothing, unless its line's minor counter is 255 (R99). Tenant counter 15 counts partial writes alone (R125;
DEDUCED, notes/assumptions/24.md). -/
def finishRmw (ch : Nat) (r : LineReq) (plain : List Byte) (s : State) : State :=
  let h := homeOf s r.dma
  let w := match modified r plain with
    | some l => some l
    | none => if (metaEntry s h.1 h.2).1 = 255 ∧ ((rewriteOf s (r.dma / 4096)).map (fun x => x.moved.getLsbD (r.dma / 64 % 64))).getD false = false
              then some plain else none
  let s1 := match w with
    | some l => served ch r.cls (putLine r.region r.dma l s)
    | none => s
  let s2 := writeSettled r (unlockLine r.dma s1)
  let s3 := completeReq ch r (releaseBank ch (reqBank s2 ch r) w.isSome s2)
  if r.kind = .partWrite then tenantCount (regionTenant s r.region) 15 1 s3 else s3

/-- The write half of a request: a client's, or that of a line carried. -/
def finishHalf (ch : Nat) (r : LineReq) (plain : List Byte) (s : State) : State :=
  if r.kind = .carry then finishCarry ch r plain s else finishRmw ch r plain s

/-- The read half has verified: an atomic forms its response; a partial write's line is done (R95, R99). -/
def verifiedHalf (r : LineReq) (plain : List Byte) (s : State) : State :=
  if isAtomic r.kind then formAtomic r plain s else if r.kind = .carry then s else writeLineDone r s

/-! ### The other work of the separate input (R12, R122, R139, R230) -/

/-- A request of the device's own work: class and region of its label, and its key slot (R190, R191). -/
def ownReq (kind : ReqKind) (dma cls slot region now : Nat) (target : Option Visit) : LineReq :=
  { kind := kind, qpn := 0, psn := 0, serial := 0, port := 0, prio := 0, dma := dma, off := 0, len := 64, data := [], compare := 0, swapAdd := 0,
    cls := cls, slot := slot, region := region, spec := false, enq := now, target := target }

/-- A page initialisation in progress. -/
def initOf (s : State) (page : Nat) : Option PageInit := s.sep.inits.find? (fun x => x.page = page)

/-- What a line of a page under initialisation is written with: zeros; the trigger's line with the trigger merged into zeros (R139). -/
def initData (x : PageInit) (dma : Nat) : List Byte :=
  let z := List.replicate 64 0
  match x.heldReqs.head? with
  | some r => if r.dma / 64 = dma / 64 then (if r.kind = .fullWrite then r.data else (modified r z).getD z) else z
  | none => z

/-- The region that a page under initialisation belongs to: its trigger's. -/
def initRegion (x : PageInit) : Nat := (x.heldReqs.head?.map (fun r => r.region)).getD 131072

/-- One line of a page under initialisation is written at major 0 and minor 0 (R139). -/
def initLine (dma : Nat) (s : State) : State :=
  match initOf s (dma / 4096) with
  | none => s
  | some x =>
    let h := homeOf s dma
    storeLine h.1 h.2 dma (slotFor (getRegion s (initRegion x)) (pwGen (pageWord s x.page))) 0 0 (initData x dma)
      { s with sep := { s.sep with inits := s.sep.inits.map (fun y =>
          if y.page = x.page then { y with done := y.done ||| (1#64 <<< (dma / 64 % 64)) } else y) } }

/-- The number of pages of a region entry. -/
def regionPages (r : Region) : Nat := r.slabs * 16

/-- The page word of an erased page: fresh, generation 0, major counter 0 (R122). -/
def erasedWord : BitVec 32 := mkPageWord false true 0

/-- The pages of a region whose page words are still to be erased. -/
def unerased (s : State) (i : Nat) : List Nat :=
  ((List.range (regionPages (getRegion s i))).map (fun j => (getRegion s i).slab * 16 + j)).filter (fun p => pageWord s p ≠ erasedWord)

/-- The page words of a region that lie in one line are erased; Pages remaining counts down (R122). -/
def eraseWords (i line : Nat) (s : State) : State :=
  if (getRegion s i).erase ≠ .erasing then s
  else
    let ps := (unerased s i).filter (fun p => (pageWordHome s p).1 = line)
    let t := forEach ps (fun p u => writePageWord p erasedWord u) s
    setRegion i { getRegion t i with pagesRemaining := (getRegion t i).pagesRemaining - ps.length } t

end Sys2Proof.Machine
end

