-- ==== Sys2Proof/Machine/Counters.lean ====
section
/-! DEFINITION. The counter lines of a demand access: what a lost metadata line or page word brings (R148, R224), the decode
of metadata and page-word lines that the cache does not hold (R142, R143, R145, R215), and writes applied whole. -/

namespace Sys2Proof.Machine

/-! ### Re-key start (R148) -/

/-- The re-key of a region. -/
def rekeyOf (s : State) (region : Nat) : Option Rekey := s.sep.rekeys.find? (fun k => k.region = region)

/-- Changes the re-key of a region. -/
def changeRekey (region : Nat) (f : Rekey → Rekey) (s : State) : State :=
  { s with sep := { s.sep with rekeys := s.sep.rekeys.map (fun k => if k.region = region then f k else k) } }

/-- The type 0x51 entry of a re-key start; each page whose page word is lost has one (R323). -/
def journalRekey (region page cause : Nat) (s : State) : State :=
  let r := getRegion s region
  journalEvent 0x083 0x51 0
    (beBytes 4 region ++ beBytes 2 r.tenant ++ beBytes 2 r.curSlot ++ [BitVec.ofNat 8 cause, 0, 0, 0] ++ beBytes 4 page) s

/-- A region re-key starts (R148): kind 0x34 and a type 0x51 entry, unless it is re-keying already. `cause` 0 exhaustion,
1 page word lost. A page that has moved in the re-key under way waits for the next one (R152). -/
def startRekey (region page cause : Nat) (s : State) : State :=
  let r := getRegion s region
  match rekeyOf s region with
  | some _ =>
    if cause = 1 then
      journalRekey region page cause (changeRekey region (fun k => { k with lost := k.lost ++ [page] }) s)
    else if pwGen (pageWord s page) = r.curBit then changeRekey region (fun k =>
      if k.exhausted.length < 64 && !k.exhausted.contains page then { k with exhausted := k.exhausted ++ [page] } else k) s
    else changeRekey region (fun k => if k.again.contains page then k else { k with again := k.again ++ [page] }) s
  | none =>
    let k : Rekey := { region := region, state := .draw, exhausted := if cause = 0 then [page] else [],
                       lost := if cause = 1 then [page] else [], again := [], sweep := 0, moved := 0, startUs := s.tank.clockUs,
                       oldSlot := r.curSlot, newSlot := 0 }
    let s1 := setRegion region { r with rekeying := true, pagesRemaining := regionPages r }
      { s with sep := { s.sep with rekeys := s.sep.rekeys ++ [k] } }
    journalRekey region page cause (raise 0x083 0x34 region s1)

/-! ### Lost counters (R224) -/

/-- The local lines whose metadata entries a metadata line holds: seven of a tenant row, those moved to a spare page
excepted, or eight of a spare page (R134, R229). -/
def metaServes (s : State) (ch line : Nat) : List Nat :=
  if isSystemLine line then
    let k := systemIndex line - 0x34000
    let e := getRemap s ch (k / 8)
    (upTo 8).map (fun j => 64 * e.unit + 8 * (k % 8) + j)
  else
    let row := lineRow line * 32 + lineBank line
    ((upTo 7).map (fun j => 14 * row + 7 * (linePos line - 14) + j)).filter (fun loc => committedSpare s ch (loc / 64) = none)

/-- The Separator has room for one more page rewrite or initialisation (R147). -/
def sepRoom (s : State) : Bool := decide (s.sep.inits.length + (s.sep.rewrites.filter (fun x => !x.move)).length < 256)

/-- A page waits for a rewrite that a lost metadata line calls for. -/
def pageDue (s : State) (page : Nat) : Bool := s.sep.due.any (fun e => e.1 = page)

/-- A page whose rewrite a lost metadata line calls for, and cannot start at once, is noted. -/
def noteDue (page region : Nat) (s : State) : State :=
  if pageDue s page then s else { s with sep := { s.sep with due := s.sep.due ++ [(page, region)] } }

/-- A page rewrite starts on a page whose counters are partly lost (R146): not on a fresh or exhausted page, which no counter of it
outlives; after the rewrite in progress where that has moved the line; when there is room for it (R147). -/
def rewriteLost (page idx region : Nat) (s : State) : State :=
  let w := pageWord s page
  match rewriteOf s page with
  | some x => if x.moved.getLsbD idx || x.recover then noteDue page region s else s
  | none =>
    if pwFresh w || pwMajor w = exhaustedMajor then s
    else if sepRoom s then startRewrite page region (pwMajor w) 0 s else noteDue page region s

/-- One data line whose metadata entry is lost is poisoned and reported with its DMA; its page is rewritten. -/
def loseEntry (ch kind loc : Nat) (s : State) : State :=
  let dma := unsteer (planOf s) ch loc
  let s1 := raise ch (BitVec.ofNat 8 kind) dma (chanCount ch (if kind = 3 then 2 else 3) 1 (poisonNew ch loc dma s))
  match leasedAt s1 dma with
  | some e => rewriteLost (dma / 4096) (dma / 64 % 64) e.1 s1
  | none => s1

/-- A metadata line is uncorrectable: kind 0x03 or 0x04 for it and for each line it served, whose pages are rewritten
(R224, chapter 7). The line itself is written anew with zeros (DESIGN CHOICE, notes/assumptions/81.md). -/
def loseMeta (ch line kind : Nat) (s : State) : State :=
  let s1 := raise ch (BitVec.ofNat 8 kind) (physAddr line) (chanCount ch (if kind = 3 then 2 else 3) 1 (writeLine line [] s))
  forEach (metaServes s1 ch line) (fun loc t => loseEntry ch kind loc t) s1

/-- A page whose page word is lost: every line is poisoned; its leased region re-keys and moves it first; a page of no leased
region is written as fresh (R224, chapter 7). -/
def losePage (page : Nat) (s : State) : State :=
  match leasedAt s (page * 4096) with
  | some e =>
    let s1 := forEach (upTo 64) (fun i t =>
      let h := homeOf t (page * 4096 + 64 * i)
      poisonNew h.1 h.2 (page * 4096 + 64 * i) t) s
    startRekey e.1 page 1 s1
  | none => writePageWord page (mkPageWord false true 0) s

/-- The pages whose page words a page-word line holds (R164). -/
def pagesOfLine (s : State) (ch sl : Nat) : List Nat :=
  ((upTo 16).map (fun i => pageOfSlot (planOf s) ch (16 * sl + i))).filter (fun p =>
    decide (p < pageCount) && decide ((pageWordSlot (planOf s) p).1 = ch) && decide ((pageWordSlot (planOf s) p).2 / 16 = sl))

/-- A page-word line is lost: its pages, each once. The line itself is written anew. -/
def losePageWords (ch sl : Nat) (s : State) : State :=
  forEach (pagesOfLine s ch sl) losePage (writeLine (systemHome s ch sl) (List.replicate 64 0) s)

/-! ### Counter lines on demand (R142, R145, R215) -/

/-- A correction in a counter line: logged and counted; only a read-modify-write does not queue it for an early scrub. -/
def counterCorrection (r : LineReq) (line : Nat) (lanes : List Nat) (nb : Nat) (er : Bool) (s : State) : State :=
  let ch := lineChannel line
  let s1 := noteCorrection ch (physAddr line) (if readsBack r.kind then 2 else 0) false lanes nb er s
  if readsBack r.kind then s1 else earlyScrub ch line none s1

/-- The decoder's word enters the cache under the number `key`; a wrong codeword goes unseen and the array keeps its own (R141, R208,
R215). -/
def holdDecoded (key line : Nat) (data : List Byte) (s : State) : State :=
  let t := if s.misread.any (fun e => e.1 = line) then dropMisread line s else s
  if padTo 64 data = lineData t line then t
  else { t with misread := (line, key, padTo 64 data) :: t.misread }

/-- The metadata entry of a local line in the 64 bytes of its metadata line (R134). -/
def entryIn (s : State) (ch loc : Nat) (data : List Byte) : Nat × BitVec 56 :=
  let bs := ((padTo 64 data).drop (metaHome s ch loc).2).take 8
  (beNat (bs.take 1), BitVec.ofNat 56 (beNat (bs.drop 1)))

/-- The metadata line that a request reads is decoded: a correction is logged, a loss is handled (R208, R224). The entry of the
request's line, none when the line is lost. -/
def decodeMeta (ch : Nat) (r : LineReq) (es : Errors) (s : State) : Option (Nat × BitVec 56) × State :=
  let loc := (homeOf s r.dma).2
  let line := (metaHome s ch loc).1
  let d := decodeLine (addUpsets line es s) line []
  match d.1 with
  | .clean data => (some (entryIn s ch loc data), holdDecoded (tenantMeta ch loc) line data d.2)
  | .corrected data lanes nb er =>
    (some (entryIn s ch loc data), counterCorrection r line lanes nb er (holdDecoded (tenantMeta ch loc) line data d.2))
  | _ => (none, loseMeta ch line 3 d.2)

/-- The metadata entry of a request's line is known: from the cache, or from its metadata line, which enters the cache (R141, R142, R145). -/
def fetchMeta (ch : Nat) (r : LineReq) (s : State) : State :=
  let loc := (homeOf s r.dma).2
  if metaHit s ch loc then touchMeta ch loc s else (decodeMeta ch r [] (touchMeta ch loc s)).2

/-- The page word of a page is in the page-word part of the cache (R141). -/
def pageHit (s : State) (page : Nat) : Bool :=
  let w := pageWordSlot (planOf s) page
  s.pageCache.contains (systemLine w.1 (w.2 / 16))

/-- The page-word line that a request needs is read where the cache does not hold it, with a column command of the system input (R206):
whether it is lost, and the state, in which the cache holds the line. -/
def readPageWord (r : LineReq) (es path : Errors) (s : State) : Bool × State :=
  let page := r.dma / 4096
  let w := pageWordSlot (planOf s) page
  let line := (pageWordHome s page).1
  if pageHit s page then (false, touchPage page s)
  else
    let key := systemLine w.1 (w.2 / 16)
    let d := decodeLine (addUpsets line es (systemBursts (lineChannel line) 1 s)) line path
    match d.1 with
    | .clean data => (false, holdDecoded key line data (touchPage page d.2))
    | .corrected data lanes nb er => (false, counterCorrection r line lanes nb er (holdDecoded key line data (touchPage page d.2)))
    | _ => (true, losePageWords w.1 (w.2 / 16) (raise (lineChannel line) 0x03 (physAddr line) (chanCount (lineChannel line) 2 1 d.2)))

/-! ### Writes applied whole -/

/-- A full-line write is applied and completes (R145, R193). -/
def finishWrite (ch : Nat) (r : LineReq) (s : State) : State :=
  completeReq ch r (writeSettled r (served ch r.cls (putLine r.region r.dma r.data s)))

/-- The line of `applyWhole`. -/
def applyLine (ch : Nat) (r : LineReq) (passed : Bool) (s : State) : State :=
  let s0 := fetchMeta ch r s
  if r.kind = .fullWrite then finishWrite ch r (if passed then s0 else writeLineDone r (linePasses r s0))
  else if !isRmw r.kind then s
  else
    let s1 := served ch r.cls (if passed then s0 else linePasses r s0)
    let d := decodeHalf ch (readBurst ch r true s1) [] s1
    match d.1 with
    | none => d.2
    | some e =>
      if tagOk d.2 e then finishRmw ch r (plainOf d.2 e) (verifiedHalf r (plainOf d.2 e) d.2)
      else dropReq ch r (countRefusal r (tagFailure ch (homeOf s r.dma).2 r.dma d.2))

/-- A write or atomic executed whole at once: the way held writes are applied, and the drain completes its writes (R52,
R139). A full-line write's line is done here when it has not passed its ordering point before. On a retired channel it fails (R187). -/
def applyWhole (ch : Nat) (r : LineReq) (passed : Bool) (s : State) : State :=
  if isRetired s ch then failOp r (completeReq ch r (writeSettled r (unlockLine r.dma s)))
  else apartFrom ch (reqBank s ch r) (applyLine ch r passed) s

end Sys2Proof.Machine
end

