-- ==== Sys2Proof/Machine/Engine.lean ====
section
/-! DEFINITION. A channel engine's commands (R166 to R180, R195): the slot and the class it names, the pick, one column
and one row command per burst opportunity, refresh and neighbour refresh. Times are cycles of the 3.0 GHz clock. -/

namespace Sys2Proof.Machine

/-! ### The Parlour's view of an opportunity -/

/-- The Parlour of a channel. -/
def getParlour (s : State) (ch : Nat) : Parlour := Map.get Parlour.zero ch s.parlour

/-- Writes the Parlour of a channel. -/
def setParlour (ch : Nat) (v : Parlour) (s : State) : State := { s with parlour := Map.set Parlour.zero ch v s.parlour }

/-- The code of slot n of a calendar; an empty calendar is every slot system (R194). -/
def slotCode (cal : List Byte) (n : Nat) : Nat := ((cal[n % 4096]?).map (fun b => b.toNat)).getD 0x11

/-- A channel of the express pool (R160). -/
def isExpress (s : State) (ch : Nat) : Bool := decide (generalChannels (planOf s) ≤ ch)

/-- The channel engine issues commands: it is initialised, not in self-refresh, not retired, and does not stand still for a full fault
buffer (R335). -/
def engineRuns (s : State) (ch : Nat) : Bool :=
  (getChan s ch).initialised && !(getChan s ch).selfRefresh && !isRetired s ch && !stalls s ch

/-! ### Legal commands (R173) -/

/-- A bank takes no pick while a refresh or neighbour refresh is forced in it (R175, R179). -/
def forcedIn (b : DBank) : Bool := decide (8 ≤ b.owed) || b.neighbours.any (fun n => n.forced)

/-- The bank belongs to the second column command of R171. -/
def bankOfSecond (c : Chan) (b : Nat) : Bool := (c.second.map (fun x => decide (x.bank = b))).getD false

/-- A bank can take commands of requests: not held by a read-modify-write (R171), nothing forced. -/
def bankFree (c : Chan) (b : Nat) (k : DBank) : Bool := !k.reserved && !forcedIn k && !bankOfSecond c b

/-- Requests whose column commands write a line and its metadata line (R145, R171). -/
def isStore (k : ReqKind) : Bool := k = .fullWrite || k = .zero

/-- The next column command of an entry writes: a full-line write whose minor counter is known (R145, R171), a line of an initialisation,
page words under erase. -/
def writesNext (e : BankEntry) : Bool := (isStore e.req.kind && e.metaIssued) || e.req.kind = .erase

/-- A column command is legal now: tWTR before a read, tRTW before a write (R173). -/
def columnLegal (now : Nat) (c : Chan) (write : Bool) : Bool :=
  if write then (c.lastRead.map (fun t => decide (t + 12 ≤ now))).getD true
  else (c.writeEnd.map (fun t => decide (t + 8 ≤ now))).getD true

/-- An activate is legal on the channel: tRRD and tFAW (R173). -/
def activateLegal (now b : Nat) (c : Chan) : Bool :=
  c.acts.all (fun a => decide (a.1 + (if a.2 % 8 = b % 8 then 6 else 4) ≤ now)) &&
    decide ((c.acts.filter (fun a => decide (now < a.1 + 32))).length < 4)

/-- No earlier request for the same line stands ahead in the bank queue (R172). -/
def firstOfLine (q : List BankEntry) (i : Nat) (e : BankEntry) : Bool :=
  !(q.take i).any (fun x => lockKey x.req = lockKey e.req)

/-- An entry has waited 1 µs in its bank queue (R169). -/
def aged (now : Nat) (e : BankEntry) : Bool := decide (e.since + 3000 ≤ now)

/-- The entry hits the bank's open row. -/
def hits (s : State) (ch : Nat) (k : DBank) (e : BankEntry) : Bool := k.openRow = some (rowOf s ch e.req)

/-- Entry `i` of a bank queue can take its column command now. On an express channel an aged request for another row goes
before the row's hits (R169). -/
def columnEligible (s : State) (ch b : Nat) (q : List BankEntry) (i : Nat) (e : BankEntry) : Bool :=
  let now := cycleOf s ch
  let c := getChan s ch
  let k := getBank s ch b
  bankFree c b k && hits s ch k e && decide (k.colOk ≤ now) && columnLegal now c (writesNext e) && firstOfLine q i e &&
    (!isExpress s ch || !q.any (fun x => aged now x && !hits s ch k x && decide (x.since < e.since)))

/-- Entry `i` of a bank queue can take its row command now: an activate of a closed bank, or on an express channel the
precharge of another row (R170), which waits for the row's hits unless the request is aged. -/
def rowEligible (s : State) (ch b : Nat) (q : List BankEntry) (i : Nat) (e : BankEntry) : Bool :=
  let now := cycleOf s ch
  let c := getChan s ch
  let k := getBank s ch b
  bankFree c b k && firstOfLine q i e &&
    match k.openRow with
    | none => decide (k.actOk ≤ now) && activateLegal now b c && decide (k.neighbours.length ≤ 2)
    | some row =>
      isExpress s ch && decide (rowOf s ch e.req ≠ row) && decide (k.preOk ≤ now) &&
        (aged now e || !q.any (fun x => hits s ch k x))

/-! ### The pick (R168, R169) -/

/-- The eligible entries of a class, as bank and index, bank by bank from the pointer on. -/
def candidates (s : State) (ch c ptr : Nat) (ok : Nat → List BankEntry → Nat → BankEntry → Bool) : List (Nat × Nat × BankEntry) :=
  ((upTo 32).map (fun j =>
    let b := (ptr + j) % 32
    let q := bankQ s ch b
    (upTo q.length).filterMap (fun i =>
      match q[i]? with
      | some e => if e.req.cls = c && ok b q i e then some (b, i, e) else none
      | none => none))).flatten

/-- The entry that entered its bank queue first. -/
def oldestOf (l : List (Nat × Nat × BankEntry)) : Option (Nat × Nat × BankEntry) :=
  l.foldl (fun m x => match m with | none => some x | some y => if x.2.2.since < y.2.2.since then some x else some y) none

/-- The request that the pick policy of the channel chooses within a class. -/
def pick (s : State) (ch c : Nat) (ok : Nat → List BankEntry → Nat → BankEntry → Bool) : Option (Nat × Nat × BankEntry) :=
  let l := candidates s ch c (getChan s ch).bankPtr ok
  if isExpress s ch then oldestOf l else l.head?

/-- The class that an open slot names (R195, R199): the highest level, and among equals the first at or after the rotating
pointer; the system input where no class has an eligible request. The flag says that the pointer moves. -/
def openClass (s : State) (ch : Nat) (elig : Nat → Bool) : Option (Nat × Bool) :=
  let ptr := (getChan s ch).clsPtr
  let l := ((upTo 16).map (fun j => (ptr + j) % 16)).filter elig
  let top := (l.map (fun c => (getCls s ch c).level)).foldl max 0
  let t := l.filter (fun c => (getCls s ch c).level = top)
  match t with
  | [] => if elig systemClass then some (systemClass, false) else none
  | c :: rest => some (c, decide (rest ≠ []))

/-- The class named for a command by the slot in force (R195). -/
def namedClass (s : State) (ch : Nat) (elig : Nat → Bool) : Option (Nat × Bool) :=
  let code := slotCode (getParlour s ch).cal (getChan s ch).opp
  if code = 0x12 then none
  else if code = 0x11 && elig systemClass then some (systemClass, false)
  else if code < 0x10 && elig code then some (code, false)
  else openClass s ch elig

/-- Names a class and picks its request; the pointers that move with it. -/
def choosePick (s : State) (ch : Nat) (ok : Nat → List BankEntry → Nat → BankEntry → Bool) : Option (Nat × Nat × BankEntry) × State :=
  match namedClass s ch (fun c => (pick s ch c ok).isSome) with
  | none => (none, s)
  | some (c, moves) =>
    match pick s ch c ok with
    | none => (none, s)
    | some x =>
      let k := getChan s ch
      (some x, setChan ch { k with clsPtr := if moves then (c + 1) % 16 else k.clsPtr,
                                   bankPtr := if isExpress s ch then k.bankPtr else (x.1 + 1) % 32 } s)

/-! ### Column commands (R171) -/

/-- The timing that a column command leaves on its bank and channel (R173). -/
def noteColumn (ch b : Nat) (write : Bool) (s : State) : State :=
  let now := cycleOf s ch
  let k := getBank s ch b
  let c := getChan s ch
  setBank ch b { k with lastUse := now, preOk := if write then max k.preOk (now + 82) else k.preOk }
    (setChan ch (if write then { c with writeEnd := some (now + 34) } else { c with lastRead := some now }) s)

/-- The last column command of an entry: a read's burst is on its way with the word as it stands; a visit's burst waits for its
visit; a full-line write is written and complete; a line of an initialisation and page words under erase are written. -/
def lastColumn (ch b : Nat) (e : BankEntry) (s : State) : State :=
  let r := e.req
  match r.kind with
  | .visit => autoPrecharge ch b (systemBursts ch 1 (setArrivedVisits ch (arrivedVisits s ch ++ [r]) s))
  | .fullWrite => autoPrecharge ch b (finishWrite ch r s)
  | .zero => autoPrecharge ch b (countWork ch r (served ch r.cls (initLine r.dma s)))
  | .erase => autoPrecharge ch b (countWork ch r (served ch r.cls (unlockVisit r (eraseWords r.region (reqLine s ch r) s))))
  | .copy => autoPrecharge ch b (systemBursts ch 2 (setInFlight ch (inFlight s ch ++ [readBurst ch r (!e.metaIssued) s]) s))
  | _ =>
    let s1 := served ch r.cls (setInFlight ch (inFlight s ch ++ [readBurst ch r (!e.metaIssued) s]) s)
    if readsBack r.kind then setBank ch b { getBank s1 ch b with reserved := true } s1 else autoPrecharge ch b s1

/-- The first column command of entry `i` of a bank queue. A read or read half that needs its metadata line, and a write,
take a second one in the next opportunity; a write whose minor counter is not cached reads its metadata line first. -/
def firstColumn (ch b i : Nat) (e : BankEntry) (s : State) : State :=
  let q := bankQ s ch b
  if e.req.kind = .fullWrite && !e.metaIssued then
    noteColumn ch b false (setBankQ ch b (q.set i { e with metaIssued := true }) (decodeMeta ch e.req [] s).2)
  else
    let w := writesNext e
    let s1 := noteColumn ch b w (setBankQ ch b (q.eraseIdx i) s)
    if (w && e.req.kind ≠ .erase) || !e.metaIssued then setChan ch { getChan s1 ch with second := some { bank := b, entry := e, left := 1 } } s1
    else lastColumn ch b e s1

/-- The column command of an opportunity: one that a write half has taken, the second of R171, else the one the Parlour and the pick
choose; whether there was one (R167, R195). -/
def columnCommand (ch : Nat) (s : State) : Bool × State :=
  if 0 < (getChan s ch).colBusy then (true, setChan ch { getChan s ch with colBusy := (getChan s ch).colBusy - 1 } s)
  else match (getChan s ch).second with
  | some x =>
    let s1 := setChan ch { getChan s ch with second := none } s
    (true, lastColumn ch x.bank x.entry (noteColumn ch x.bank (isStore x.entry.req.kind) s1))
  | none =>
    match choosePick s ch (columnEligible s ch) with
    | (some (b, i, e), s1) => (true, firstColumn ch b i e s1)
    | (none, s1) => (false, s1)

/-! ### Row commands (R167) -/

/-- The hard and soft row repairs of a bank: row and spare (R359, R361). -/
def rowRepairs (s : State) (ch b : Nat) : List (Nat × Nat) :=
  (s.otp.repairs.filterMap (fun e =>
    if bits e.toNat 31 30 = 1 && bits e.toNat 29 24 = ch && bits e.toNat 23 19 = b then some (bits e.toNat 18 4, bits e.toNat 3 0) else none)) ++
    ((Map.get BistCh.zero ch s.bist.chans).softRows.filterMap (fun e => if e.1 = b then some e.2 else none))

/-- The rows next to a row within its 512-row subarray, and a replaced row whose spare lies next to it; a replaced row has the
neighbours of its spare, as the layer places it (R178). A row whose address now opens a spare elsewhere is no neighbour. -/
def rowNeighbours (s : State) (ch b row : Nat) : List Nat :=
  let l := rowRepairs s ch b
  match l.find? (fun e => e.1 = row) with
  | some e => ((Config.spareNeighbours ch b e.2).take 2).map (fun r => r.toNat)
  | none =>
    ((if row % 512 = 0 then [] else [row - 1]) ++ (if row % 512 = 511 then [] else [row + 1])).filter (fun r => !l.any (fun e => e.1 = r)) ++
      (l.filter (fun e => ((Config.spareNeighbours ch b e.2).take 2).any (fun r => r.toNat = row))).map (fun e => e.1)

/-- An activate: the row opens, the timings of R173 start. -/
def activate (ch b row : Nat) (s : State) : State :=
  let now := cycleOf s ch
  let c := getChan s ch
  let k := getBank s ch b
  setBank ch b { k with openRow := some row, colOk := now + 42, preOk := now + 84, actOk := now + 126, lastUse := now }
    (setChan ch { c with acts := (now, b) :: c.acts.filter (fun a => decide (now < a.1 + 32)), activates := c.activates + 1 } s)

/-- The row of an activate for a request is sampled with probability 1/N (R177): the generator's 16 bits are compared with 65,536 ÷ N.
Its neighbours join the bank's queue (R178, R179). -/
def sampleRow (ch b row : Nat) (s : State) : State :=
  let c := getChan s ch
  let s1 := setChan ch { c with sampleDraws := c.sampleDraws + 1 } s
  if (Config.sample c.sampleSeed c.sampleDraws).toNat < 65536 / 2 ^ (planOf s).log2N then
    let k := getBank s1 ch b
    setBank ch b { k with neighbours := (k.neighbours ++ (rowNeighbours s1 ch b row).map (fun r => ({ row := r, forced := false } : Neighbour))).take 4 } s1
  else s1

/-- A refresh command of a bank (R174, R175). -/
def issueRefresh (ch b : Nat) (s : State) : State :=
  let k := getBank s ch b
  let c := getChan s ch
  setBank ch b { k with owed := k.owed - 1, refPtr := (k.refPtr + 1) % 8192, actOk := cycleOf s ch + 480 }
    (setChan ch { c with refreshes := c.refreshes + 1 } s)

/-- A neighbour refresh: one activate and precharge, which keep the bank busy for tRC (R179). -/
def issueNeighbour (ch b : Nat) (s : State) : State :=
  let now := cycleOf s ch
  let k := getBank s ch b
  let c := getChan s ch
  setBank ch b { k with neighbours := k.neighbours.tail, actOk := now + 126 }
    (setChan ch { c with acts := (now, b) :: c.acts.filter (fun a => decide (now < a.1 + 32)), activates := c.activates + 1 } s)

/-- A precharge. -/
def precharge (ch b : Nat) (s : State) : State := setBank ch b (closeRow (cycleOf s ch) (getBank s ch b)) s

/-- The forced work of a bank that can be issued now: close its row, then the refresh, then the neighbour (R175, R179). -/
def forcedCommand (s : State) (ch b : Nat) : Option (State → State) :=
  let now := cycleOf s ch
  let k := getBank s ch b
  if !forcedIn k || k.reserved || bankOfSecond (getChan s ch) b then none
  else match k.openRow with
    | some _ => if k.preOk ≤ now then some (precharge ch b) else none
    | none =>
      if now < k.actOk then none
      else if 8 ≤ k.owed then some (issueRefresh ch b)
      else if activateLegal now b (getChan s ch) then some (issueNeighbour ch b) else none

/-- The refresh work of an idle bank: a neighbour refresh first, then a refresh while the count is above −8. An express row is
closed for it (R170, R175). -/
def idleCommand (s : State) (ch b : Nat) : Option (State → State) :=
  let now := cycleOf s ch
  let k := getBank s ch b
  if bankQ s ch b ≠ [] || k.reserved || bankOfSecond (getChan s ch) b then none
  else match k.openRow with
    | some _ =>
      if isExpress s ch && decide (k.preOk ≤ now) && (k.neighbours ≠ [] || decide (-8 < k.owed)) then some (precharge ch b) else none
    | none =>
      if now < k.actOk then none
      else if k.neighbours ≠ [] then (if activateLegal now b (getChan s ch) then some (issueNeighbour ch b) else none)
      else if -8 < k.owed then some (issueRefresh ch b) else none

/-- An express row with no access for 2 µs (R170). -/
def staleRow (s : State) (ch b : Nat) : Bool :=
  let now := cycleOf s ch
  let k := getBank s ch b
  isExpress s ch && k.openRow.isSome && !k.reserved && !bankOfSecond (getChan s ch) b && decide (k.preOk ≤ now) &&
    decide (k.lastUse + 6000 ≤ now)

/-- The row command of an opportunity: the first of R167 that applies; among banks the lowest number (DESIGN CHOICE,
notes/assumptions/104.md). -/
def rowCommand (ch : Nat) (s : State) : State :=
  match (upTo 32).findSome? (fun b => forcedCommand s ch b) with
  | some f => f s
  | none =>
    match choosePick s ch (rowEligible s ch) with
    | (some (b, _, e), s1) =>
      match (getBank s1 ch b).openRow with
      | some _ => precharge ch b s1
      | none => sampleRow ch b (rowOf s1 ch e.req) (activate ch b (rowOf s1 ch e.req) s1)
    | (none, s1) =>
      match (upTo 32).findSome? (fun b => idleCommand s1 ch b) with
      | some f => f s1
      | none =>
        match (upTo 32).find? (fun b => staleRow s1 ch b) with
        | some b => precharge ch b s1
        | none => s1

/-! ### The commands -/

/-- The fault address of a channel engine (R180). -/
def engineAddr (ch item : Nat) : Nat := ch * 1024 + item

/-- REFRESH_INTERVAL (R174, R175): the owed count of a bank rises; at 8 its refresh is forced, counted, and reported at most
once per second. -/
def execRefreshInterval (ch : Fin 64) (bank : Fin 32) (s : State) : Host.Outcome State Fault Refusal :=
  if !engineRuns s ch.val then .next s
  else
    let k := getBank s ch.val bank.val
    if 8 ≤ k.owed + 1 then
      .next (raiseLimited ch.val 0x08 (engineAddr ch.val bank.val)
        (setBank ch.val bank.val { k with owed := k.owed + 1, forcedRefresh := satAdd max32 k.forcedRefresh 1 } s))
    else .next (setBank ch.val bank.val { k with owed := k.owed + 1 } s)

/-- The first entry of a neighbour queue that is not forced yet becomes forced. -/
def forceFirst : List Neighbour → List Neighbour
  | [] => []
  | n :: t => if n.forced then n :: forceFirst t else { n with forced := true } :: t

/-- NEIGHBOUR_REFRESH_DEADLINE (R179): the oldest entry whose 1 µs has passed is forced, counted, and reported at most once
per second. -/
def execNeighbourRefreshDeadline (ch : Fin 64) (bank : Fin 32) (s : State) : Host.Outcome State Fault Refusal :=
  let k := getBank s ch.val bank.val
  if !engineRuns s ch.val || k.neighbours.all (fun n => n.forced) then .next s
  else .next (raiseLimited ch.val 0x07 (engineAddr ch.val bank.val)
    (setBank ch.val bank.val { k with neighbours := forceFirst k.neighbours, forcedNeighbour := satAdd max32 k.forcedNeighbour 1 } s))

/-- EXPRESS_ROW_TIMEOUT (R170): an express row with no access for 2 µs is precharged. -/
def execExpressRowTimeout (ch : Fin 64) (bank : Fin 32) (s : State) : Host.Outcome State Fault Refusal :=
  if engineRuns s ch.val && staleRow s ch.val bank.val then .next (precharge ch.val bank.val s) else .next s

/-- A channel's row-disturb generator takes a seed of 64 bits from the DRBG (R177). -/
def seedSampler (ch : Nat) (s : State) : State :=
  let d := generate 64 s
  setChan ch { getChan d.2 ch with sampleSeed := d.1, sampleDraws := 0 } d.2

/-- ROW_DISTURB_RESEED (R177): the channel's generator takes a new seed from the DRBG. -/
def execRowDisturbReseed (ch : Fin 64) (s : State) : Host.Outcome State Fault Refusal :=
  if !s.drbg.instantiated then .next s else .next (seedSampler ch.val s)

end Sys2Proof.Machine
end

