-- ==== Sys2Proof/Machine/Heat.lean ====
section
/-! DEFINITION. The thermal controller (R234 to R247): sensor figures, the layer model, the retention floor, the
effective temperature, bands, throttle steps, disagreement and over-temperature shutdown. Temperatures in 0.1 °C;
the model estimate is held exactly and shown rounded down (notes/assumptions/9.md). -/

namespace Sys2Proof.Machine

/-- The record of layer i. -/
def getLayer (s : State) (i : Nat) : Layer := Map.get Layer.zero i s.thermal.layers

/-- Writes the record of layer i. -/
def setLayer (i : Nat) (v : Layer) (s : State) : State :=
  { s with thermal := { s.thermal with layers := Map.set Layer.zero i v s.thermal.layers } }

/-- The highest of a list of readings; none when there is none. -/
def highest (l : List Int) : Option Int :=
  l.foldl (fun m v => match m with | none => some v | some w => some (max v w)) none

/-- The mean of a list of readings, exact; none when there is none. -/
def meanOf (l : List Int) : Option Rat := if l = [] then none else some ((l.sum : Rat) / (l.length : Rat))

/-- The readings of the valid ones among four sensors (R235). -/
def validReadings (y : Layer) : List Int :=
  ((List.range 4).filter (fun q => y.valid.getLsbD q)).map (fun q => (y.readings[q]?).getD 0)

/-- The readings of the valid base-die sensors among those given (R235). -/
def baseReadings (t : Thermal) (ids : List Nat) : List Int :=
  (ids.filter (fun i => !t.baseInvalid.getLsbD i)).map (fun i => (t.base[i]?).getD 0)

/-- A reading lies within −40 °C to 150 °C (R235). -/
def readingValid (v : Int) : Bool := decide (-400 ≤ v) && decide (v ≤ 1500)

/-- A layer takes one sample of its four sensors: no reading keeps the last one; a reading out of range makes the
sensor invalid until a cold start (R235). What a sensor returns is its last reading, valid or not (R247). -/
def sampleLayer (vs : List (Option Int)) (y : Layer) : Layer :=
  (List.range 4).foldl (fun y q =>
    match (vs[q]?).getD none with
    | none => y
    | some v =>
      { y with readings := y.readings.set q v, valid := if readingValid v then y.valid else y.valid &&& ~~~(1#4 <<< q) }) y

/-- The base die takes one sample of its 24 sensors (R235). -/
def sampleBase (vs : List (Option Int)) (t : Thermal) : Thermal :=
  (List.range 24).foldl (fun t i =>
    match (vs[i]?).getD none with
    | none => t
    | some v =>
      { t with base := t.base.set i v, baseInvalid := if readingValid v then t.baseInvalid else t.baseInvalid ||| (1#24 <<< i) }) t

/-- The base-die figure and the sensor that gives it: the highest valid reading, the lowest number on equal readings
(R235). With no valid sensor the last figure stands. -/
def baseFigure (t : Thermal) : Int × Nat :=
  let r := ((List.range 24).filter (fun i => !t.baseInvalid.getLsbD i)).foldl (fun (m : Option (Int × Nat)) i =>
    let v := (t.base[i]?).getD 0
    match m with
    | none => some (v, i)
    | some (w, j) => if w < v then some (v, i) else some (w, j)) none
  r.getD (t.baseFigure, t.baseSensor)

/-- What layer j supplies to its neighbours' models: the mean of its valid sensors, or its own model estimate when its
sensors are declared failed or none is valid (R236), in 0.1 °C. -/
def neighbourValue (s : State) (j : Nat) : Rat :=
  let y := getLayer s j
  let est : Rat := match y.model with
    | some m => m * 10
    | none => (s.thermal.baseFigure : Rat)
  if y.failed then est else (meanOf (validReadings y)).getD est

/-- The value below layer i: layer i − 1, or the base-die sensors 16 to 23 for layer 0 (R236), in 0.1 °C. -/
def belowValue (s : State) (i : Nat) : Rat :=
  if i = 0 then (meanOf (baseReadings s.thermal [16, 17, 18, 19, 20, 21, 22, 23])).getD (s.thermal.baseFigure : Rat)
  else neighbourValue s (i - 1)

/-- The value above layer i: layer i + 1, or the base-die sensors 8 to 15 for layer 15 (R236), in 0.1 °C. -/
def aboveValue (s : State) (i : Nat) : Rat :=
  if i = 15 then (meanOf (baseReadings s.thermal [8, 9, 10, 11, 12, 13, 14, 15])).getD (s.thermal.baseFigure : Rat)
  else neighbourValue s (i + 1)

/-- The activates of a layer's four channels since the last sample, plus 4 for each refresh (R236). -/
def layerActivity (s : State) (i : Nat) : Nat :=
  ((List.range 4).map (fun q =>
    let c := Map.get Chan.zero (4 * i + q) s.chans
    c.activates + 4 * c.refreshes)).sum

/-- The figure of a layer as a neighbour's model starts from it (R236): its sensor figure, or its own estimate where it has none. -/
def layerFigure (s : State) (j : Nat) : Option Rat :=
  let y := getLayer s j
  let est := y.model.map (· * 10)
  if y.failed then est else (((highest (validReadings y)).map (fun v => (v : Rat))).or est)

/-- The figures of layer i's neighbours (R236); the base die's is the base-die figure of R235. -/
def neighbourFigures (s : State) (i : Nat) : List Rat :=
  let base : Option Rat := some (s.thermal.baseFigure : Rat)
  [if i = 0 then base else layerFigure s (i - 1), if i = 15 then base else layerFigure s (i + 1)].filterMap id

/-- Where the model of a layer without a valid sensor starts, in °C: the mean of its neighbours' figures, or the base-die figure where
they have none. -/
def startFigure (s : State) (i : Nat) : Rat :=
  let l := neighbourFigures s i
  if l = [] then (s.thermal.baseFigure : Rat) / 10 else l.sum / (10 * l.length)

/-- The next model estimate of layer i, in °C (R236): it starts at the sensor figure, or at the mean of the
neighbours' figures. -/
def nextModel (s : State) (i a : Nat) : Option Rat :=
  let y := getLayer s i
  match s.factory.therm[i]? with
  | none => none
  | some r =>
    match y.model with
    | none =>
      match highest (validReadings y) with
      | some f => some ((f : Rat) / 10)
      | none => some (startFigure s i)
    | some t =>
      let ss : Rat := (r.k0 : Rat) / 100 + (r.kb : Rat) / 4096 * (belowValue s i / 10) +
        (r.ka : Rat) / 4096 * (aboveValue s i / 10) + (r.kp : Rat) / 1000 * ((a : Rat) / 10000)
      some (t + (ss - t) / ((if r.tau = 0 then 1 else r.tau : Nat) : Rat))

/-- A model estimate in 0.1 °C, rounded down. -/
def modelTenths (m : Option Rat) : Option Int := m.map (fun t => (t * 10).floor)

/-- The effective temperature (R239). -/
def effectiveOf (y : Layer) : Int :=
  let m := modelTenths y.model
  let l := if y.failed then (m.map (· + 50)).toList ++ y.floor.toList
    else (highest (validReadings y)).toList ++ m.toList ++ y.floor.toList
  (highest l).getD y.effective

/-- The refresh band that a temperature calls for: 0 1×, 1 2×, 2 4× (R174, R240). -/
def bandOf (e : Int) : Nat := if 950 < e then 2 else if 850 < e then 1 else 0

/-- The throttle step that a temperature calls for (R240). -/
def stepOf (e : Int) : Nat := if 1050 < e then 2 else if 950 < e then 1 else 0

/-- The base-die state that a figure calls for: 0 Normal, 1 Warning, 2 Throttle, 3 Shutdown (R241). -/
def baseStateOf (f : Int) : Nat := if 1150 < f then 3 else if 1050 < f then 2 else if 1000 < f then 1 else 0

/-- The address of a layer's thermal message (R243). -/
def layerAddr (code i : Nat) : Nat := code * 256 + i

/-- A layer's throttle step changes: kind 0x21 (R240). -/
def changeStep (i step : Nat) (s : State) : State :=
  let y := getLayer s i
  if y.step = step then s else raise (0x0A0 + i) 0x21 (layerAddr step i) (setLayer i { y with step := step } s)

/-- The base-die state changes: kind 0x21 from the hottest sensor's group (R241). -/
def changeBase (st : Nat) (s : State) : State :=
  if s.thermal.baseState = st then s
  else raise (0x090 + s.thermal.baseSensor / 4) 0x21 (st * 256 + 16) { s with thermal := { s.thermal with baseState := st } }

/-- A layer's sensors are declared failed: kind 0x23 with its code (R245). -/
def declareFailed (i code : Nat) (s : State) : State :=
  let y := getLayer s i
  if y.failed then s
  else raise (0x0A0 + i) 0x23 (layerAddr code i)
    (setLayer i { y with failed := true, disagree := false, disagreeMs := 0, okMs := 0 } s)

/-- Disagreement of layer i at a sample (R244): it begins with kind 0x20, and ends after 1,000 samples with both
figures no more than 8.0 °C above the sensor figure. -/
def updateDisagree (i : Nat) (s : State) : State :=
  let y := getLayer s i
  if y.failed then s
  else match highest (validReadings y) with
    | none => s
    | some f =>
      let above (lim : Int) (v : Option Int) : Bool := match v with
        | some x => decide (lim < x - f)
        | none => false
      let m := above 100 (modelTenths y.model)
      let r := above 100 y.floor
      if y.disagree then
        let calm := !(above 80 (modelTenths y.model)) && !(above 80 y.floor)
        let ok := if calm then y.okMs + 1 else 0
        if 1000 ≤ ok then setLayer i { y with disagree := false, disagreeMs := 0, okMs := 0 } s
        else setLayer i { y with disagreeMs := y.disagreeMs + 1, okMs := ok } s
      else if m || r then
        raise (0x0A0 + i) 0x20 (bit m 8 + bit r 9 + i) (setLayer i { y with disagree := true, disagreeMs := 0, okMs := 0 } s)
      else s

/-- The highest of the peak kept since the last read and an effective temperature (R247). -/
def peakOf (p : Option Int) (e : Int) : Option Int := some ((p.map (max e)).getD e)

/-- One layer's sample after the sensors have been read: a layer left with no valid sensor is declared failed at once; then model,
effective temperature, disagreement, band and step (R236, R239, R240, R244, R245). `models` are the estimates computed from the state
before any of them changed. -/
def updateLayer (models : List (Option Rat)) (acts : List Nat) (i : Nat) (s0 : State) : State :=
  let s := if validReadings (getLayer s0 i) = [] then declareFailed i 1 s0 else s0
  let y := getLayer s i
  let y1 := { y with model := (models[i]?).getD none, activity := (acts[i]?).getD 0,
                     figure := highest (validReadings y) }
  let e := effectiveOf y1
  let s1 := setLayer i { y1 with effective := e, peak := peakOf y.peak e, band := max y.band (bandOf e) } s
  changeStep i (max y.step (stepOf e)) (updateDisagree i s1)

/-- The layers above their shutdown threshold, and the base die (bit 16) (R246). -/
def hotMask (s : State) : BitVec 17 :=
  BitVec.ofNat 17 (((List.range 16).map (fun i => bit (decide (1100 < (getLayer s i).effective)) i)).sum +
    bit (decide (1150 < s.thermal.baseFigure)) 16)

/-- Over-temperature shutdown (R246): the domains that have passed their thresholds join the mask, and one kind 0x22 is raised for the first
of them, the base die before the layers. -/
def checkShutdown (s : State) : State :=
  let m := hotMask s &&& ~~~s.thermal.shutdownMask
  if m = 0 then s
  else
    let s1 := { s with thermal := { s.thermal with shutdownMask := s.thermal.shutdownMask ||| m } }
    if m.getLsbD 16 then raise (0x090 + s.thermal.baseSensor / 4) 0x22 (3 * 256 + 16) s1
    else
      let i := ((List.range 16).find? (fun i => m.getLsbD i)).getD 0
      raise (0x0A0 + i) 0x22 (layerAddr 3 i) s1

/-- While a layer's channels are in self-refresh, the Tank keeps the fastest band seen; after kind 0x22, the fastest
that any layer has reached (R176, R246). -/
def holdBands (s : State) : State :=
  let top := ((List.range 16).map (fun i => (getLayer s i).band)).foldl max 0
  let f (i : Nat) : Nat :=
    if (Map.get Chan.zero (4 * i) s.chans).selfRefresh then
      max (Map.get 0 i s.thermal.refreshFloor) (if s.thermal.recheck then top else (getLayer s i).band)
    else 0
  let fl := (List.range 16).foldl (fun t i => Map.set 0 i (f i) t) s.thermal.refreshFloor
  { s with thermal := { s.thermal with refreshFloor := fl } }

/-- The controller samples whenever POR_N is high: in self-refresh and in safe state too (R235, R246). -/
def thermalRuns (s : State) : Bool := porHigh s

/-- THERMAL_SAMPLE (R235, R236, R239 to R242, R244, R246, R77): all 88 sensors, every model, every threshold, and the
lanes whose edge sensor has moved. The base die's message comes before the layers', as the tie of R334 has it. -/
def execThermalSample (base layers : List (Option Int)) (s : State) : Host.Outcome State Fault Refusal :=
  if !thermalRuns s then .next s
  else
    let s1 := { s with thermal := sampleBase base s.thermal }
    let s2 := forEach (upTo 16) (fun i t => setLayer i (sampleLayer ((layers.drop (4 * i)).take 4) (getLayer t i)) t) s1
    let bf := baseFigure s2.thermal
    let s3 := { s2 with thermal := { s2.thermal with baseFigure := bf.1, baseSensor := bf.2 } }
    let acts := (List.range 16).map (fun i => if s.thermal.recheck then 0 else layerActivity s3 i)
    let models := (List.range 16).map (fun i => if s3.factory.checked then nextModel s3 i ((acts[i]?).getD 0) else none)
    let s4 := forEach (upTo 16) (updateLayer models acts) (changeBase (max s3.thermal.baseState (baseStateOf bf.1)) s3)
    let counted (v : Chan) : Chan := { v with activates := 0, refreshes := 0 }
    let s5 := { s4 with chans := (List.range 64).foldl (fun t c => Map.modify Chan.zero c counted t) s4.chans }
    .next (queueByTemp (holdBands (checkShutdown s5)))

/-- The threshold that a state was entered by, among `thrs` of states 1, 2, …, lies 2 °C or more above the temperature: the state is left
for the one below it (R240, R241). -/
def stateBelow (thrs : List Int) (e : Int) (st : Nat) : Nat :=
  if st ≠ 0 && decide (e + 20 ≤ (thrs[st - 1]?).getD 0) then st - 1 else st

/-- Where a layer stands on its three thresholds: 1 above 85 °C, 2 above 95 °C, 3 above 105 °C (R240). -/
def layerState (y : Layer) : Nat := if y.step = 0 then min 1 y.band else y.step + 1

/-- THRESHOLD_RELEASE (R176, R240, R241): after 1 s at 2 °C or more below a threshold, the band and step or the state that it brought are
left. The command stands for one threshold's second, that of the state in force (notes/assumptions/8.md). -/
def execThresholdRelease (dom : ThermDomain) (s : State) : Host.Outcome State Fault Refusal :=
  if !thermalRuns s then .next s
  else match dom with
    | .layer i =>
      let y := getLayer s i.val
      let l := stateBelow [850, 950, 1050] y.effective (layerState y)
      .next (changeStep i.val (l - 1) (setLayer i.val { y with band := min 2 l } s))
    | .base => .next (changeBase (stateBelow [1000, 1050, 1150] s.thermal.baseFigure s.thermal.baseState) s)

/-- The retention floor F = Tr + S × log2(R ÷ Rr) for R above Rr, in 0.1 °C, rounded down (R238). -/
def retentionFloor (r : ThermRecord) (n : Nat) : Option Int :=
  if r.rr < n then some (r.tr + (Nat.log2 (n ^ r.slope / r.rr ^ r.slope) : Nat)) else none

/-- RETENTION_FLOOR_UPDATE (R238): R counts the retention corrections among the last 2^18 visits to the layer; before
2^18 visits there is no floor. -/
def execRetentionFloorUpdate (s : State) : Host.Outcome State Fault Refusal :=
  .next (forEach (upTo 16) (fun i t =>
    let y := getLayer t i
    let recent := y.retAt.filter (fun v => decide (y.visits < v + 2 ^ 18))
    let fl := match t.factory.therm[i]? with
      | some r => if y.visits < 2 ^ 18 then none else retentionFloor r recent.length
      | none => none
    setLayer i { y with floor := fl, retAt := recent } t) s)

/-- SENSOR_INVALID (R235, R245): a sensor without a reading for 10 ms is invalid until a cold start; a layer's last
valid sensor takes the layer with it, with code 0x1. -/
def execSensorInvalid (sensor : Sensor) (s : State) : Host.Outcome State Fault Refusal :=
  if !thermalRuns s then .next s
  else match sensor with
  | .base i => .next { s with thermal := { s.thermal with baseInvalid := s.thermal.baseInvalid ||| (1#24 <<< i.val) } }
  | .layer i q =>
    let y := getLayer s i.val
    let y1 := { y with valid := y.valid &&& ~~~(1#4 <<< q.val) }
    let s1 := setLayer i.val y1 s
    .next (if validReadings y1 = [] then declareFailed i.val 1 s1 else s1)

/-- SENSORS_DECLARED_FAILED (R245): 10 minutes of disagreement without an end. -/
def execSensorsDeclaredFailed (layer : Fin 16) (s : State) : Host.Outcome State Fault Refusal :=
  if (getLayer s layer.val).disagree then .next (declareFailed layer.val 0 s) else .next s

end Sys2Proof.Machine
end

