-- ==== Sys2Proof/Machine/Parlour.lean ====
section
/-! DEFINITION. The Parlour (R188, R194, R197 to R207): admission of a plan, cuts and throttling of a channel's calendar at
slot 0, measured latency and escalation levels. -/

namespace Sys2Proof.Machine

/-! ### Calendars -/

/-- The calendar that a plan gives a channel (R268). -/
def planCalendar (p : Plan) (ch : Nat) : List Byte := (p.calendars[(p.calMap[ch]?).getD 0]?).getD []

/-- The number of slots of a calendar with a code. -/
def slotsOf (code : Nat) (cal : List Byte) : Nat := (cal.filter (fun b => b.toNat = code)).length

/-- Owned slots: those of classes and of the system (R200). -/
def ownedSlots (cal : List Byte) : Nat := (cal.filter (fun b => decide (b.toNat < 0x10) || b.toNat = 0x11)).length

/-- The slots that a class owns on a channel in force. -/
def classSlots (s : State) (ch c : Nat) : Nat := slotsOf c (getParlour s ch).cal

/-- The most owned slots that condition 1 of R200 allows in a band, 0, 1 or 2, with N = 2^log2N (R174, R179). -/
def slotLimit (band log2N : Nat) : Nat :=
  let n := 2 ^ log2N
  (4096 * n * (100000 - 4096 * 2 ^ band) - 2 * 4096 * 100000) / (100000 * n)

/-- The positions of a class's slots. -/
def positionsOf (c : Nat) (cal : List Byte) : List Nat :=
  (List.range cal.length).filter (fun i => ((cal[i]?).map (fun b => b.toNat)) = some c)

/-- The largest distance between neighbours of a rising list of positions. -/
def gapsOf : List Nat → Nat
  | a :: b :: t => max (b - a) (gapsOf (b :: t))
  | _ => 0

/-- The largest gap of a class's slots, counted around the end of the calendar (R200). -/
def largestGap (c : Nat) (cal : List Byte) : Nat :=
  let l := positionsOf c cal
  match l.head?, l.getLast? with
  | some a, some z => max (gapsOf l) (a + 4096 - z)
  | _, _ => 0

/-- The fewest slots that a class owns on any channel where it owns one; 0 for a best-effort class (R188). -/
def classShare (p : Plan) (c : Nat) : Nat :=
  let l := ((List.range 64).map (fun ch => slotsOf c (planCalendar p ch))).filter (· ≠ 0)
  match l with
  | [] => 0
  | a :: t => t.foldl min a

/-! ### Admission (R200) -/

/-- The leases of a plan. -/
def planLeases (p : Plan) : List Lease := (p.regions.map (fun r => r.leases)).flatten

/-- The leases that cover a minute. -/
def leasesAt (p : Plan) (m : Nat) : Nat :=
  ((planLeases p).filter (fun l => decide (l.start.toNat ≤ m) && decide (m < l.stop.toNat))).length

/-- The first condition that a channel fails: 1 owned slots, 2 gaps. -/
def channelCondition (p : Plan) (ch : Nat) : Option Nat :=
  let cal := planCalendar p ch
  if slotLimit p.band p.log2N < ownedSlots cal then some 1
  else if (List.range 16).any (fun c =>
    slotsOf c cal ≠ 0 && decide (12 * ((p.classes[c]?).map (fun r => r.target)).getD 0 < 4 * largestGap c cal + 1440)) then some 2
  else none

/-- The first failing admission condition, with its channel (R200). -/
def admission (p : Plan) (retired : BitVec 64) : Option (Nat × Nat) :=
  if p.classes.any (fun r => r.inUse && (decide (r.target < 100) || decide (1000 < r.target))) then some (0, 3)
  else if (planLeases p).any (fun l => decide (8064 < leasesAt p l.start.toNat)) then some (0, 4)
  else (List.range 64).findSome? (fun ch =>
    if retired.getLsbD ch then none else (channelCondition p ch).map (fun n => (ch, n)))

/-! ### Cuts and throttle (R202 to R205) -/

/-- One cut: the class keeps the slots whose ordinal j among its plan-calendar slots has j mod 8 < k; the others become
open (R202). -/
def cutCalendar (c k : Nat) : Nat → List Byte → List Byte → List Byte
  | _, [], _ => []
  | _, _, [] => []
  | j, p :: ps, b :: bs =>
    if p.toNat = c then (if j % 8 < k then b else 0x10) :: cutCalendar c k (j + 1) ps bs
    else b :: cutCalendar c k j ps bs

/-- The plan's calendar with cuts applied, given by their positions in the order. -/
def cutWith (p : Plan) (plan : List Byte) (cuts : List Nat) : List Byte :=
  cuts.foldl (fun cal i => match p.cuts[i]? with
    | some (c, k) => cutCalendar c k 0 plan cal
    | none => cal) plan

/-- The cuts that a band calls for on a channel, in plan order, until condition 1 holds (R202). `fuel` is the length of the
order still to try. A class that an earlier cut has left without slots in force is not passed over (DESIGN CHOICE,
notes/assumptions/106.md). -/
def neededCuts (p : Plan) (plan : List Byte) (band : Nat) : Nat → List Nat → List Nat
  | 0, acc => acc
  | fuel + 1, acc =>
    if ownedSlots (cutWith p plan acc) ≤ slotLimit band p.log2N then acc
    else
      let i := p.cuts.length - (fuel + 1)
      match p.cuts[i]? with
      | some (c, _) => neededCuts p plan band fuel (if slotsOf c plan = 0 then acc else acc ++ [i])
      | none => acc

/-- Slots of odd ordinal among those that `sel` selects become idle (R204). -/
def idleOdd (sel : Byte → Bool) : Bool → List Byte → List Byte
  | _, [] => []
  | odd, b :: t => if sel b then (if odd then 0x12 else b) :: idleOdd sel (!odd) t else b :: idleOdd sel odd t

/-- The throttle step on a calendar (R204). -/
def throttle (step : Nat) (cal : List Byte) : List Byte :=
  let one := if 1 ≤ step then idleOdd (fun b => b.toNat = 0x10) false cal else cal
  if 2 ≤ step then (List.range 16).foldl (fun l c => idleOdd (fun b => b.toNat = c) false l) one else one

/-- The type 0x53 entry of a cut applied (0) or lifted (1) (R323). -/
def journalCut (ch action band : Nat) (cut : Nat × Nat × Nat) (s : State) : State :=
  journalEvent 0x087 0x53 0
    (beBytes 1 ch ++ beBytes 1 cut.1 ++ beBytes 1 cut.2.1 ++ beBytes 1 cut.2.2 ++ beBytes 1 action ++ beBytes 1 band) s

/-- A cut applied: journaled, and kind 0x32 unless it was in force at the last warm reset (R202, chapter 9). -/
def applyCut (ch band : Nat) (prior : List Nat) (cut : Nat × Nat × Nat) (s : State) : State :=
  let s1 := journalCut ch 0 band cut s
  if prior.contains cut.1 then s1 else raise 0x087 0x32 (ch * 1024 + cut.1) s1

/-- The refresh band of a channel's layer as the Parlour sees it (R174). -/
def layerBand (s : State) (ch : Nat) : Nat := (getLayer s (ch / 4)).band

/-- The throttle step of a channel: the higher of its layer's and the one the base die imposes (R241, R242). -/
def channelStep (s : State) (ch : Nat) : Nat := max (getLayer s (ch / 4)).step (if 2 ≤ s.thermal.baseState then 2 else 0)

/-- The changes due at slot 0, in the order of R205: a new plan's calendar, cuts and lifts for the band, the throttle step. -/
def turnCalendar (ch : Nat) (p : Plan) (s : State) : State :=
  let y := getParlour s ch
  let plan := planCalendar p ch
  let fresh := y.planCal = []
  let band := layerBand s ch
  let lifted (l : List (Nat × Nat × Nat)) (t : State) : State := forEach l.reverse (fun c u => journalCut ch 1 band c u) t
  let had := if fresh then [] else y.cuts
  let s0 := if fresh then lifted y.cuts s else s
  let pos := if p.band < band then neededCuts p plan band p.cuts.length [] else []
  let need := pos.map (fun i => (i, (p.cuts[i]?).getD (0, 0)))
  let s1 := lifted (had.filter (fun c => !need.contains c)) s0
  let s2 := forEach (need.filter (fun c => !had.contains c)) (fun c t => applyCut ch band y.prior c t) s1
  let cut := cutWith p plan pos
  setParlour ch { cal := throttle (channelStep s ch) cut, planCal := plan, cuts := need, prior := [],
                  exhausted := decide (p.band < band) && decide (slotLimit band p.log2N < ownedSlots cut),
                  step := channelStep s ch, band := band, frozen := y.frozen, declared := y.declared } s2

/-! ### Measured latency (R197 to R199) -/

/-- The keys under which a damaged class record and escalation table are remembered (R213, R286). -/
def classKey (c : Nat) : Nat := 131072 + c

/-- The key of an escalation table. -/
def tableKey (c : Nat) : Nat := 131088 + c

/-- The key of an entry that waits for its reload. -/
def waitKey (k : Nat) : Nat := 262144 + k

/-- A class's record or its table is damaged: it runs at level 0 (R213, R286). -/
def classDamaged (s : State) (c esc : Nat) : Bool :=
  [classKey c, tableKey esc, waitKey (classKey c), waitKey (tableKey esc)].any (fun k => s.plans.reloadFailed.contains k)

/-- The level that a class's table gives for its measured latency (R199). -/
def levelOf (s : State) (c e : Nat) : Nat :=
  match classRec s c with
  | some r =>
    let b := min 15 (4 * e / (if r.target = 0 then 1 else r.target))
    if classDamaged s c r.esc then 0 else ((((planOf s).escTables[r.esc]?).getD 0).toNat / 2 ^ (2 * b)) % 4
  | none => 0

/-- Sets E of a class on a channel; the level is looked up again. -/
def setLatency (ch c e : Nat) (s : State) : State := setCls ch c { getCls s ch c with e := e, level := levelOf s c e } s

/-- The age in ns of the oldest request of a class that waits in its class queue or in the bank queues of a channel; work on a region's
behalf does not count (R191). -/
def oldestAge (s : State) (ch c : Nat) : Option Nat :=
  let l := classQ s ch c ++ ((upTo 32).map (fun b => ((bankQ s ch b).map (fun e => e.req)).filter (fun r => r.cls = c && !isOwn r.kind))).flatten
  let m := l.foldl (fun (m : Option Nat) r => match m with | none => some r.enq | some a => some (min a r.enq)) none
  m.map (fun a => (cycleOf s ch - a) / 3)

/-- At a turn boundary E is at least the age of the oldest waiting request plus 317 ns (R198). -/
def ageLatency (ch c : Nat) (s : State) : State :=
  match oldestAge s ch c with
  | some a => if (getCls s ch c).e < a + 317 then setLatency ch c (a + 317) s else s
  | none => s

/-- The class begins a turn at its level (R206). -/
def countLevel (ch c : Nat) (s : State) : State :=
  let l := (getCls s ch c).level
  if (classRec s c).isSome then classCount ch (some c) (18 + l) (18 + l) 1 s else s

/-- A plan's calendars are loaded (R194): the start has come to phase 0x07. -/
def calendarsLoaded (s : State) : Bool := s.tank.phase = 0x07 || s.tank.phase = 0x08

/-- What slot 0 of a channel's calendar brings, once (R198, R202 to R206). -/
def runTurn (ch : Nat) (s : State) : State :=
  let s1 := setChan ch { getChan s ch with turned := true } s
  let s2 := match (if calendarsLoaded s then s.plans.plan else none) with
    | some p => turnCalendar ch p s1
    | none => s1
  forEach (upTo 16) (fun c t => countLevel ch c (ageLatency ch c t)) s2

/-- A channel stands at slot 0 and its turn has not been taken in. -/
def turnDue (s : State) (ch : Nat) : Bool := (getChan s ch).opp % 4096 = 0 && !(getChan s ch).turned

/-- CALENDAR_TURN (R198, R202 to R206): slot 0 of a channel's calendar. At any other slot, and a second time, there is nothing to do. -/
def execCalendarTurn (ch : Fin 64) (s : State) : Host.Outcome State Fault Refusal :=
  if engineRuns s ch.val && turnDue s ch.val then .next (runTurn ch.val s) else .next s

/-- The opportunity is over: the next one comes 4 cycles later; after slot 4,095 a turn is complete (R167, R206). -/
def nextOpportunity (ch : Nat) (s : State) : State :=
  let n := (getChan s ch).opp + 1
  let s1 := setChan ch { getChan s ch with opp := n, turned := false } s
  if n % 4096 = 0 then classCount ch none 3 3 1 s1 else s1

/-- BURST_OPPORTUNITY (R166 to R173, R195): the changes due at slot 0 first (R205), then one column command and one row command; an
opportunity with no column command is counted. -/
def execBurstOpportunity (ch : Fin 64) (s : State) : Host.Outcome State Fault Refusal :=
  let c := ch.val
  if !engineRuns s c then .next s
  else
    let r := columnCommand c (if turnDue s c then runTurn c s else s)
    let s1 := rowCommand c r.2
    .next (nextOpportunity c (if r.1 then s1 else classCount c none 1 1 1 s1))

/-- The mean of a list in ns, its entries in thirds of a ns, rounded down. -/
def meanNs (l : List Nat) : Nat := l.sum / (3 * l.length)

/-- LATENCY_UPDATE (R198): after 64 samples, e moves by an eighth of its distance to the mean of those 64, rounded towards zero. -/
def execLatencyUpdate (ch : Fin 64) (cls : Fin 16) (s : State) : Host.Outcome State Fault Refusal :=
  let v := getCls s ch.val cls.val
  if v.window.length < 64 then .next s
  else
    let m := meanNs (v.window.take 64)
    let e : Int := (v.e : Int) + ((m : Int) - (v.e : Int)).tdiv 8
    .next (setLatency ch.val cls.val e.toNat (setCls ch.val cls.val { v with window := v.window.drop 64 } s))

/-- E of every class in use takes its target: at a start, and where a plan changes the target (R198). -/
def startLatency (s : State) : State :=
  forEach (upTo 64) (fun ch t => forEach (upTo 16) (fun c u =>
    match classRec u c with
    | some r => setLatency ch c r.target u
    | none => setCls ch c { getCls u ch c with e := 0, level := 0 } u) t) s

end Sys2Proof.Machine
end

