-- ==== Sys2Proof/Machine/Memory.lean ====
section
/-! DEFINITION. The commands of a line request (R139 to R147, R166, R209, R138, R171): passing the ordering point, the
decode of its burst, its tag check, the write half, and the page preparations that writes wait for. -/

namespace Sys2Proof.Machine

/-- The page waits for the move that a lost page word calls for (chapter 7). -/
def pageLost (s : State) (page : Nat) : Bool := s.sep.rekeys.any (fun k => k.lost.contains page)

/-! ### The ordering point -/

/-- What a write meets at its line's ordering point: it may pass, it stays where it is, or it is held for its page. -/
inductive Gate where
  | go (s : State)
  | blocked
  | parked (s : State)

/-- A page's preparation takes a write that waits for it; the packet's ACK will not be delayed (R95, R107). -/
def parkOp (r : LineReq) (s : State) : State := changeOp r (fun o => { o with waited := true }) s

/-- A write that starts a page initialisation, or joins the one in progress: it is held with the line lock (R139). -/
def parkInit (page : Nat) (r : LineReq) (s : State) : State :=
  lockLine r.dma (parkOp r (
    if s.sep.inits.any (fun x => x.page = page) then
      { s with sep := { s.sep with inits := s.sep.inits.map (fun x => if x.page = page then { x with heldReqs := x.heldReqs ++ [r] } else x) } }
    else
      { s with sep := { s.sep with inits := s.sep.inits ++ [{ page := page, done := 0, heldReqs := [r] }] },
               stats := { s.stats with pageInits := satAdd max48 s.stats.pageInits 1 } }))

/-- A write that waits for the end of the rewrite of its page (R146). -/
def parkRewrite (page : Nat) (r : LineReq) (s : State) : State :=
  parkOp r { s with sep := { s.sep with rewrites := s.sep.rewrites.map (fun y =>
    if y.page = page then { y with heldReqs := y.heldReqs ++ [r] } else y) } }

/-- A write that waits for its page's move, or behind one that waits (R148). -/
def parkMove (r : LineReq) (s : State) : State := parkOp r { s with sep := { s.sep with waiting := s.sep.waiting ++ [r] } }

/-- The gate of R139, R146 and R148. `n` writes of the line have passed and are not written yet: the minor counter they bring it to
counts. -/
def gateWrite (ch : Nat) (r : LineReq) (s : State) : Gate :=
  let page := r.dma / 4096
  let w := pageWord s page
  let n := passedWrites s ch r.dma
  let minor := (metaEntry s ch (homeOf s r.dma).2).1
  if pwFresh w then
    if s.sep.inits.any (fun x => x.page = page) || sepRoom s then .parked (parkInit page r s) else .blocked
  else if pageDue s page then .blocked
  else match rewriteOf s page with
    | some x =>
      if x.recover then .blocked
      else if !x.moved.getLsbD (r.dma / 64 % 64) || minor + n < 255 then .go s
      else if n = 0 then .parked (parkRewrite page r s) else .blocked
    | none =>
      if pwMajor w = exhaustedMajor || pageLost s page then .parked (parkMove r s)
      else if minor + n < 255 then .go s
      else if n ≠ 0 || !sepRoom s then .blocked
      else .go (startRewrite page r.region (pwMajor w) 0 s)

/-- An earlier request of the same QP for the same line still waits in another class queue (R191). -/
def heldByClass (s : State) (ch c : Nat) (r : LineReq) : Bool :=
  (upTo 16).any (fun d => d ≠ c && (classQ s ch d).any (fun x => x.qpn = r.qpn && x.dma / 64 = r.dma / 64 && x.psn ≠ r.psn &&
    decide ((r.psn - x.psn).toNat < 2 ^ 23)))

/-- Writes held for their page: of an initialisation, a rewrite, a move. -/
def heldWrites (s : State) : List LineReq :=
  (s.sep.inits.map (fun x => x.heldReqs)).flatten ++ (s.sep.rewrites.map (fun x => x.heldReqs)).flatten ++ s.sep.waiting

/-- A write held for its page goes before a later request for its line: any write, and its own QP's reads (R13, R15). -/
def heldBefore (s : State) (r : LineReq) : Bool :=
  (heldWrites s).any (fun x => x.dma / 64 = r.dma / 64 && (isWrite r.kind || x.qpn = r.qpn))

/-- A request's page word lies on a channel whose retirement is under way (R186). -/
def pageWordHeld (s : State) (r : LineReq) : Bool :=
  s.retiring.contains (pageWordSlot (planOf s) (r.dma / 4096)).1 && !(r.kind = .read && pageHit s (r.dma / 4096))

/-- The head of a class queue leaves it. -/
def popClass (ch c : Nat) (rest : List LineReq) (s : State) : State := drainBacklog (setClassQ ch c rest s)

/-- A request has passed its ordering point: it counts as outstanding. -/
def outstand (ch c : Nat) (s : State) : State :=
  let v := getCls s ch c
  setCls ch c { v with outstanding := v.outstanding + 1 } s

/-- A request takes its bank-queue entry; a read-modify-write locks its line (R13, R166). A read in speculative mode makes no lookup in
the metadata part of the cache (R143). -/
def takeBank (ch b : Nat) (r : LineReq) (s : State) : State :=
  let loc := (homeOf s r.dma).2
  let looks := !(r.spec && r.kind = .read)
  let s1 := setBankQ ch b (bankQ s ch b ++ [{ req := r, since := cycleOf s ch, metaIssued := looks && metaHit s ch loc }]) s
  let s2 := if looks then touchMeta ch loc s1 else s1
  let s3 := if isWrite r.kind then linePasses r s2 else s2
  if isRmw r.kind then lockLine r.dma s3 else if r.kind = .fullWrite then writeLineDone r s3 else s3

/-- A bank queue has room for a class: a free entry of 16, and fewer than 12 of the class (R193); the system input is no class. -/
def bankRoom (s : State) (ch b c : Nat) : Bool :=
  decide ((bankQ s ch b).length < 16) && (c = systemClass || decide (((bankQ s ch b).filter (fun e => e.req.cls = c)).length < 12))

/-- What keeps a request at its line's ordering point whatever its page word says (R13, R186, R366). -/
def lineWaits (s : State) (ch : Nat) (r : LineReq) : Bool :=
  (getChan s ch).selfRefresh || s.retiring.contains ch || pageWordHeld s r || isLocked s r.dma ||
    markedRow s (dataHome s ch (homeOf s r.dma).2)

/-- The request of a Skimmer visit, on the system input. -/
def visitReq (v : Visit) (now : Nat) : LineReq := ownReq .visit (v.dma.getD 0) systemClass 8192 131072 now (some v)

/-- The visit that the Skimmer has at a channel's separate input: an early-scrub address before the walk's (R215). -/
def nextVisit (s : State) (ch : Nat) : Option Visit :=
  if s.skim.running then ((getChan s ch).early ++ (getChan s ch).visits).head? else none

/-- A visit that came to the request's line before it waits there (R13). -/
def visitAhead (s : State) (ch : Nat) (r : LineReq) : Bool :=
  ownOpen s ch && (nextVisit s ch).any (fun v => lockKey (visitReq v 0) = lockKey r && decide (v.since < r.enq))

/-- What keeps the head of a class queue there besides: earlier requests of its QP for the line (R15, R191), a visit that came before it
(R13), and its class's cap (R193). -/
def pointWaits (s : State) (ch c : Nat) (r : LineReq) : Bool :=
  lineWaits s ch r || heldByClass s ch c r || heldBefore s r || visitAhead s ch r || decide (classCap s c ≤ (getCls s ch c).outstanding)

/-- A request whose page word has been read passes its ordering point; none where it has to wait. A read of a fresh page is answered
with zeros (R139). -/
def passPoint (ch c : Nat) (r : LineReq) (rest : List LineReq) (s : State) : Option State :=
  let b := reqBank s ch r
  if r.kind = .read && pwFresh (pageWord s (r.dma / 4096)) then
    some (completeReq ch r (stageLine r (List.replicate 64 0) .pass (outstand ch c (popClass ch c rest s))))
  else
    match (if isWrite r.kind then gateWrite ch r s else .go s) with
    | .blocked => none
    | .parked t => some (outstand ch c (popClass ch c rest t))
    | .go t => if bankRoom s ch b c then some (takeBank ch b r (outstand ch c (popClass ch c rest t))) else none

/-- What becomes of the head of a class queue if its turn is now; none where it waits. Its page word is read first where the cache does
not hold it. A word that is lost keeps the request here while its page is poisoned (R224). On a retired channel it fails (R187). -/
def tryHead (ch : Nat) (wordUpsets wordPath : Errors) (c : Nat) (s : State) : Option State :=
  match classQ s ch c with
  | [] => none
  | r :: rest =>
    if isRetired s ch then some (failOp r (writeSettled r (popClass ch c rest s)))
    else if pointWaits s ch c r then none
    else
      let w := readPageWord r wordUpsets wordPath s
      if w.1 then some w.2 else passPoint ch c r rest w.2

/-- A class with its head takes its place among others. -/
def insertHead (x : Nat × LineReq) : List (Nat × LineReq) → List (Nat × LineReq)
  | [] => [x]
  | y :: t => if headBefore x.2 y.2 then x :: y :: t else y :: insertHead x t

/-- The classes of a channel in the order in which their heads pass. -/
def headOrder (s : State) (ch : Nat) : List Nat :=
  (((upTo 16).filterMap (fun c => (classQ s ch c).head?.map (fun r => (c, r)))).foldl (fun l x => insertHead x l) []).map (fun x => x.1)

/-- The client request that passes now: the oldest that can. -/
def passClient (ch : Nat) (wordUpsets wordPath : Errors) (s : State) : Option State :=
  (headOrder s ch).findSome? (fun c => tryHead ch wordUpsets wordPath c s)

/-- A write held for a page that no longer holds it passes its ordering point; none where it waits still (R146, R148). -/
def tryHeld (ch : Nat) (r : LineReq) (s : State) : Option State :=
  let s1 := { s with sep := { s.sep with waiting := s.sep.waiting.erase r } }
  if isRetired s ch then some (failOp r (completeReq ch r (writeSettled r s1)))
  else if lineWaits s ch r || heldBefore { s with sep := { s.sep with waiting := s.sep.waiting.takeWhile (fun x => x ≠ r) } } r then none
  else match gateWrite ch r s1 with
    | .go t => if bankRoom s ch (reqBank s ch r) r.cls then some (takeBank ch (reqBank s ch r) r t) else none
    | .parked t => if t.sep.waiting.length < s.sep.waiting.length then some t else none
    | .blocked => none

/-- The held write of a channel that passes now: the first that can. -/
def passHeld (ch : Nat) (s : State) : Option State :=
  (s.sep.waiting.filter (fun r => (homeOf s r.dma).1 = ch)).findSome? (fun r => tryHeld ch r s)

/-! ### The separate input (R12, R166) -/

/-- A request of the device's own work takes its bank-queue entry, with the line lock where it takes one; whether its metadata entry is
known (R166, R191). -/
def takeOwn (ch : Nat) (known : Bool) (r : LineReq) (s : State) : State :=
  let b := reqBank s ch r
  let s1 := setBankQ ch b (bankQ s ch b ++ [{ req := r, since := cycleOf s ch, metaIssued := known }]) s
  if r.kind = .zero then s1 else lockVisit r s1

/-- A request of the device's own work can take its entry now: no other request for its line is under way, its rows are not under test, and
its bank's queue has room. -/
def ownCan (ch : Nat) (s : State) (r : LineReq) : Bool :=
  (r.kind = .zero || !NSet.has (lockKey r) s.path.locks) && !(engineReqs s ch).any (fun x => lockKey x = lockKey r) &&
    !markedRow s (reqLine s ch r) && bankRoom s ch (reqBank s ch r) r.cls

/-- The lines of a page on a channel. -/
def pageLines (s : State) (ch page : Nat) : List Nat :=
  ((upTo 64).map (fun i => page * 4096 + 64 * i)).filter (fun dma => (homeOf s dma).1 = ch)

/-- The line has been written by its page's initialisation, or is out of reach. -/
def lineReady (s : State) (x : PageInit) (dma : Nat) : Bool := x.done.getLsbD (dma / 64 % 64) || isRetired s (homeOf s dma).1

/-- Every line of a page under initialisation but those that `f` names has been written. -/
def initReady (s : State) (x : PageInit) (f : Nat → Bool) : Bool :=
  (upTo 64).all (fun i => let dma := x.page * 4096 + 64 * i; f dma || lineReady s x dma)

/-- The next line of an initialisation on a channel; the trigger's is the last of all (R139). -/
def nextZero (ch : Nat) (s : State) (x : PageInit) : Option LineReq :=
  let i := initRegion x
  let trigger (dma : Nat) : Bool := x.heldReqs.head?.any (fun r => r.dma / 64 = dma / 64)
  (((pageLines s ch x.page).filter (fun dma => !lineReady s x dma && (!trigger dma || initReady s x trigger))).map (fun dma =>
    ownReq .zero dma (getRegion s i).cls (slotFor (getRegion s i) (pwGen (pageWord s x.page))) i (cycleOf s ch) none)).find? (ownCan ch s)

/-- The next line of a page rewrite or move on a channel that has not moved (R146, R150). -/
def nextCarry (ch : Nat) (s : State) (x : Rewrite) : Option LineReq :=
  (((pageLines s ch x.page).filter (fun dma => !lineMoved s x dma)).map (fun dma =>
    ownReq .carry dma (getRegion s x.region).cls (oldKey s x).1 x.region (cycleOf s ch) none)).find? (ownCan ch s)

/-- The next page-word line of a region under erase on a channel (R122). -/
def nextErase (ch : Nat) (s : State) (e : Nat × Region) : Option LineReq :=
  if e.2.erase ≠ .erasing then none
  else ((((unerased s e.1).map (fun p => (p, (pageWordHome s p).1))).filter (fun x => lineChannel x.2 = ch)).map (fun x =>
    ownReq .erase (x.1 * 4096) e.2.cls e.2.curSlot e.1 (cycleOf s ch) (some { line := x.2, dma := none, since := cycleOf s ch }))).find? (ownCan ch s)

/-- The next line of a unit under page retirement on a channel, its spare rows not under test (R230). -/
def nextCopy (ch : Nat) (s : State) (y : Retirement) : Option LineReq :=
  ((y.units.filter (fun x => x.1 = ch && decide ((getRemap s ch x.2.2).copied < 64))).filterMap (fun x =>
    let j := (getRemap s ch x.2.2).copied
    if markedRow s (spareLine ch x.2.2 j) || markedRow s (spareMeta ch x.2.2 j).1 then none
    else some (ownReq .copy (unsteer (planOf s) ch (64 * x.2.1 + j)) systemClass 8192 131072 (cycleOf s ch) none))).find? (ownCan ch s)

/-- A request of the Separator or of page retirement passes; a line that is carried looks its metadata entry up in the cache. The
Separator presents a line in the cycle in which it can pass (DESIGN CHOICE, notes/assumptions/109.md). -/
def passOwn (ch : Nat) (r : LineReq) (s : State) : State :=
  if r.kind = .carry then touchMeta ch (homeOf s r.dma).2 (takeOwn ch (metaHit s ch (homeOf s r.dma).2) r s)
  else takeOwn ch (r.kind ≠ .copy) r s

/-- The work of the separate input, the Skimmer's apart, that can pass now. -/
def nextOwn (ch : Nat) (s : State) : Option LineReq :=
  (s.sep.inits.findSome? (nextZero ch s)).orElse (fun _ => (s.sep.rewrites.findSome? (nextCarry ch s)).orElse (fun _ =>
    (s.regions.findSome? (nextErase ch s)).orElse (fun _ => s.retirements.findSome? (nextCopy ch s))))

/-- A line of the move of an exhausted page, which wins a tie with client requests for it (R12): none of them came in an earlier cycle. -/
def nextMove (ch : Nat) (s : State) : Option LineReq :=
  ((s.sep.rewrites.filter (fun x => x.move && pwMajor (pageWord s x.page) = exhaustedMajor)).findSome? (nextCarry ch s)).filter (fun r =>
    !(upTo 16).any (fun c => (classQ s ch c).head?.any (fun x => x.dma / 64 = r.dma / 64 && decide (x.enq < cycleOf s ch))))

/-- The separate input of a channel is open. -/
def whenOpen {α : Type} (s : State) (ch : Nat) (x : Option α) : Option α := if ownOpen s ch then x else none

/-- The Skimmer's next visit passes the line's ordering point with the line lock: an early-scrub address goes before the walk's
visits (R166, R215, R222). -/
def passVisit (ch : Nat) (s : State) : Option State :=
  let c := getChan s ch
  match whenOpen s ch (nextVisit s ch) with
  | none => none
  | some v =>
    let r := visitReq v (cycleOf s ch)
    let line := reqLine s ch r
    if NSet.has (lockKey r) s.path.locks || markedRow s line || decide (16 ≤ (bankQ s ch (lineBank line)).length) then none
    else some (takeOwn ch true r (setChan ch (if c.early = [] then { c with visits := c.visits.tail } else { c with early := c.early.tail }) s))

/-- The next visit came before every head of the class queues. -/
def visitOlder (s : State) (ch : Nat) : Bool :=
  (nextVisit s ch).any (fun v => (upTo 16).all (fun c => (classQ s ch c).head?.all (fun r => decide (v.since < r.enq))))

/-- A write at the head of a class queue that can pass but for the preparation of its page has waited for it (R95). -/
def noteWaiting (ch : Nat) (s : State) : State :=
  forEach (upTo 16) (fun c t =>
    match classQ t ch c with
    | [] => t
    | r :: _ =>
      if !isWrite r.kind || isRetired t ch || pointWaits t ch c r then t
      else match gateWrite ch r t with
        | .blocked => parkOp r t
        | _ => t) s

/-- The request that passes once held writes and the moves of exhausted pages have had their turn: clients, in the order of R166, and a
Skimmer visit that came before them all; then the other work of the separate input, which loses ties (R12). -/
def passRest (ch : Nat) (wordUpsets wordPath : Errors) (s : State) : Option State :=
  let early := if visitOlder s ch then passVisit ch s else none
  early.orElse (fun _ => (passClient ch wordUpsets wordPath s).orElse (fun _ =>
    ((whenOpen s ch (nextOwn ch s)).map (fun r => passOwn ch r s)).orElse (fun _ => passVisit ch s)))

/-- ORDERING_POINT_PASS (R12, R13, R139, R142, R146, R148, R150, R166, R191, R193, R230): one request of a channel passes its line's
ordering point. A write that has waited for its page goes first, then a line of an exhausted page's move, then the others. Nothing passes
where every one waits. `wordUpsets` have come to stand in the page-word line that the request reads, and `wordPath` are
errors of the path of that burst. -/
def execOrderingPointPass (ch : Fin 64) (wordUpsets wordPath : Errors) (s0 : State) : Host.Outcome State Fault Refusal :=
  let s := noteWaiting ch.val s0
  match passHeld ch.val s with
  | some t => .next t
  | none =>
    match whenOpen s ch.val (nextMove ch.val s) with
    | some r => .next (passOwn ch.val r s)
    | none => .next ((passRest ch.val wordUpsets wordPath s).getD s)

/-! ### Decode and tag check -/

/-- The metadata line read with a burst is decoded: the burst with the entry it gives, or none where the line is lost. -/
def burstMeta (ch : Nat) (b : Burst) (es : Errors) (s : State) : Option Burst × State :=
  let loc := (homeOf s b.req.dma).2
  if !b.withMeta then (some b, s)
  else
    let d := decodeMeta ch b.req es s
    match d.1 with
    | none => (none, d.2)
    | some e => (some (if e = metaEntry s ch loc then b else { b with minor := e.1, tag := e.2 }), d.2)

/-- The metadata line of a line under copy is decoded: its entry, zeros where a loss has poisoned the lines it served (R224). -/
def copyMeta (ch loc : Nat) (es : Errors) (s : State) : (Nat × BitVec 56) × State :=
  let line := (metaHome s ch loc).1
  let d := decodeLine (addUpsets line es s) line []
  match d.1 with
  | .clean bs => (entryIn s ch loc bs, d.2)
  | .corrected bs lanes nb er => (entryIn s ch loc bs, noteCorrection ch (physAddr line) 3 false lanes nb er d.2)
  | _ => ((0, 0), loseMeta ch line 4 d.2)

/-- The original of line j of a unit, copied to spare page i (R230): corrected symbols, or poison; the metadata entry as it stands. The
lines copied so far take writes in both places from here on. -/
def copyUnitLine (ch u i j : Nat) (path es : Errors) (s0 : State) : State :=
  let loc := 64 * u + j
  let m := copyMeta ch loc es s0
  let s := m.2
  let dma := unsteer (planOf s) ch loc
  let d := decodeLine s (dataHome s ch loc) path
  let put (t : State) : State :=
    let sp := spareMeta ch i j
    let e := getRemap t ch i
    systemBursts ch 2 (writeBytes sp.1 sp.2 (metaBytes m.1.1 m.1.2)
      { t with remap := Map.set Remap.zero (ch * 2048 + i) { e with copied := j + 1 } t.remap })
  match d.1 with
  | .clean bs => put (writeLine (spareLine ch i j) bs d.2)
  | .corrected bs lanes nb er => put (writeLine (spareLine ch i j) bs (noteCorrection ch dma 3 true lanes nb er d.2))
  | .poisoned => put (putPoison (spareLine ch i j) d.2)
  | .uncorrectable => put (putPoison (spareLine ch i j) (raise ch 0x04 dma (chanCount ch 3 1 (poisonFound ch loc dma d.2))))

/-- A line under copy is written to its spare page, and its lock released: the line is the next of a unit still under retirement. -/
def copyLine (ch : Nat) (r : LineReq) (path es : Errors) (s : State) : State :=
  let loc := (homeOf s r.dma).2
  let t := unlockVisit r s
  match copyingSpare s ch (loc / 64) with
  | some (i, e) => if e.copied = loc % 64 then copyUnitLine ch (loc / 64) i (loc % 64) path es t else t
  | none => t

/-- LINE_DECODE (R98, R142, R143, R208, R209): the oldest burst that has arrived is decoded, as its column command found it.
`upsets` have come to stand in the line's cells, `metaUpsets` in its metadata line's where that was read with it, `path` are the
errors of this burst alone. A read completes here (R193); in speculative mode its plaintext is staged before its tag check ends. A line
under copy goes to its spare page (R230); one that the Separator carries waits for its lost metadata. -/
def execLineDecode (ch : Fin 64) (upsets path metaUpsets : Errors) (s : State) : Host.Outcome State Fault Refusal :=
  match inFlight s ch.val with
  | [] => .next s
  | b :: rest =>
    let r := b.req
    let s1 := addUpsets (dataHome s ch.val (homeOf s r.dma).2) upsets (setInFlight ch.val rest s)
    let m := burstMeta ch.val { b with errors := sumErrors (b.errors ++ pathErrors upsets) } metaUpsets s1
    if stalls s ch.val then .next s
    else if r.kind = .copy then .next (copyLine ch.val r path metaUpsets s1)
    else match m.1 with
    | none => .next (if r.kind = .carry then endCarry ch.val r false m.2 else refusePoison ch.val r m.2)
    | some b1 =>
      let d := decodeHalf ch.val b1 path m.2
      match d.1 with
      | none => .next d.2
      | some e =>
        let s2 := setInCrypto ch.val (inCrypto d.2 ch.val ++ [e]) d.2
        if r.kind = .read then
          let s3 := completeReq ch.val r s2
          .next (if r.spec then stageLine r (plainOf s3 e) .pending s3 else s3)
        else .next s2

/-- The tag result of a line is set beside it while it is staged, and beside the packet that carries it while that waits (R144); a
line spoiled in staging stays so (R213). -/
def setTag (r : LineReq) (t : TagState) (s : State) : State :=
  let tagged (x : TagResult) : TagResult :=
    if x.tag = .pending && x.qpn = r.qpn && x.psn = r.psn && x.serial = r.serial && x.dma = r.dma then { x with tag := t } else x
  let frame (f : Nat × TxFrame) : Nat × TxFrame :=
    match f.2 with
    | .rdma x => (f.1, .rdma { x with tags := x.tags.map tagged })
    | _ => f
  let s1 := changeOp r (fun o => { o with staged := o.staged.map (fun x =>
    if x.dma = r.dma && x.tag = .pending then { x with tag := t } else x) }) s
  { s1 with ports := s1.ports.map (fun e => (e.1, { e.2 with queue := e.2.queue.map frame })) }

/-- TAG_CHECK (R98, R138, R142, R144): the crypto lane ends the check of the oldest line of a channel. A result that comes after
its packet's FCS has begun changes nothing. -/
def execTagCheck (ch : Fin 64) (s : State) : Host.Outcome State Fault Refusal :=
  match inCrypto s ch.val with
  | [] => .next s
  | e :: rest =>
    let r := e.req
    let loc := (homeOf s r.dma).2
    let s1 := setInCrypto ch.val rest s
    if stalls s (0x040 + ch.val / 4) then .next s
    else if e.late then .next s1
    else if tagOk s e then
      let plain := plainOf s e
      if r.kind = .read then .next (if r.spec then setTag r .pass s1 else stageLine r plain .pass s1)
      else .next (verifiedHalf r plain (setHalves ch.val (halves s1 ch.val ++ [{ req := r, plain := plain }]) s1))
    else
      let s2 := tagMismatch (stillStored s ch.val loc e.minor e.tag) ch.val loc r.dma s1
      if r.kind = .read then .next (if r.spec then setTag r .fail s2 else failOp r s2)
      else .next (dropReq ch.val r (if r.kind = .carry then s2 else countRefusal r s2))

/-- The Parlour's choice for the column command of an opportunity when a write half of class `c` asks for it too. -/
def halfNamed (s : State) (ch c : Nat) : Option (Nat × Bool) :=
  namedClass s ch (fun d => d = c || (pick s ch d (columnEligible s ch)).isSome)

/-- The write half of a request can take the column command of this opportunity and the next (R171, R173, R195): no other has them,
the row and tRTW allow it, and the Parlour names its class. Within its class a write half goes first. -/
def halfLegal (s : State) (ch : Nat) (r : LineReq) : Bool :=
  let c := getChan s ch
  let now := cycleOf s ch
  engineRuns s ch && c.second = none && c.colBusy = 0 && decide ((getBank s ch (reqBank s ch r)).colOk ≤ now) && columnLegal now c true &&
    decide ((halfNamed s ch r.cls).map (fun x => x.1) = some r.cls)

/-- WRITE_HALF (R99, R171): the oldest verified read half of a channel is merged, encrypted and written, when its two column commands
can be issued. -/
def execWriteHalf (ch : Fin 64) (s0 : State) : Host.Outcome State Fault Refusal :=
  let c := ch.val
  match halves s0 c with
  | [] => .next s0
  | h :: rest =>
    let s := if engineRuns s0 c && turnDue s0 c then runTurn c s0 else s0
    if !halfLegal s c h.req then .next s
    else
      let k := getChan s c
      let moves := ((halfNamed s c h.req.cls).map (fun x => x.2)).getD false
      let s1 := setChan c { k with clsPtr := if moves then (h.req.cls + 1) % 16 else k.clsPtr } s
      .next (finishHalf c h.req h.plain (setHalves c rest s1))

/-! ### Page preparation -/

/-- Work of the device on a line on its region's behalf, counted in the region's class (R191, R206). -/
def regionWork (region dma : Nat) (s : State) : State :=
  let ch := (homeOf s dma).1
  let c := (getRegion s region).cls
  classCount ch (some c) 1 1 1 (served ch c s)

/-- The lines of a page under initialisation that are still to be written (R139, R140); those of a retired channel are out of reach. -/
def zeroLines (x : PageInit) (s : State) : State :=
  forEach (upTo 64) (fun i t =>
    let dma := x.page * 4096 + 64 * i
    if lineReady t x dma then t else regionWork (initRegion x) dma (initLine dma t)) s

/-- The trigger's own completion after the page word has been written (R139). -/
def settleTrigger (r : LineReq) (s : State) : State :=
  let ch := (homeOf s r.dma).1
  let s1 := linePasses r (writeSettled r (unlockLine r.dma s))
  if isRetired s ch then failOp r (completeReq ch r s1)
  else
    let s2 := if isAtomic r.kind then formAtomic r (List.replicate 64 0) s1 else writeLineDone r s1
    completeReq ch r (if r.kind = .partWrite then tenantCount (regionTenant s r.region) 15 1 s2 else s2)

/-- A rewrite that a lost metadata line called for starts as soon as there is room and the page's rewrite has ended. -/
def startDue (s : State) : State :=
  forEach s.sep.due (fun e t =>
    if (rewriteOf t e.1).isSome || !sepRoom t then t
    else
      let w := pageWord t e.1
      let u := { t with sep := { t.sep with due := t.sep.due.filter (fun x => x.1 ≠ e.1) } }
      if pwFresh w || pwMajor w = exhaustedMajor then u else startRewrite e.1 e.2 (pwMajor w) 0 u) s

/-- One write of those waiting is applied, when nothing holds it any longer: the line is free and no earlier one waits. -/
def retryOne (r : LineReq) (s : State) : State :=
  let ch := (homeOf s r.dma).1
  let again (t : State) : State := { t with sep := { t.sep with waiting := t.sep.waiting ++ [r] } }
  if isLocked s r.dma || passedWrites s ch r.dma ≠ 0 || s.sep.waiting.any (fun x => x.dma / 64 = r.dma / 64) then again s
  else match gateWrite ch r s with
    | .go t => applyWhole ch r false t
    | .parked t => t
    | .blocked => again s

/-- The writes that waited for room or for their page are applied where nothing holds them any longer (R146 to R148). -/
def retryWaiting (s : State) : State := forEach s.sep.waiting retryOne { s with sep := { s.sep with waiting := [] } }

/-- The end of an initialisation whose lines are written: the page word with Fresh 0, the trigger passes, and the writes held for other
lines go to pass their ordering points in their turn (R139). -/
def endInit (x : PageInit) (s : State) : State :=
  let s1 := { s with sep := { s.sep with inits := s.sep.inits.filter (fun y => y.page ≠ x.page) } }
  match x.heldReqs with
  | [] => s1
  | r :: rest =>
    let w := pageWord s1 x.page
    let s2 := writePageWord x.page (mkPageWord (pwGen w) false (pwMajor w))
      { s1 with sep := { s1.sep with waiting := s1.sep.waiting ++ rest } }
    startDue (settleTrigger r (forEach rest (fun q t => unlockLine q.dma t) s2))

/-- The initialisation of a page done whole: what a drain and a warm start complete (R52, R140). -/
def finishInit (page : Nat) (s : State) : State :=
  match initOf s page with
  | none => s
  | some x => retryWaiting (endInit x (zeroLines x s))

/-- PAGE_INIT_COMPLETE (R139, R140): every line of the page has been written. -/
def execPageInitComplete (page : Nat) (s : State) : Host.Outcome State Fault Refusal :=
  if pageCount ≤ page then .fault .noSuchObject
  else match initOf s page with
    | none => .next s
    | some x => if pageOpen s page && initReady s x (fun _ => false) then .next (endInit x s) else .next s

/-- A line about to be written again takes the decoder's word as its content: a wrong codeword goes unseen (R208). -/
def useDecoded (line : Nat) (data : List Byte) (s : State) : State := if padTo 64 data = lineData s line then s else writeLine line data s

/-- The metadata line of a line that the Separator carries, and writes again, is decoded (R224); a wrong codeword goes unseen. -/
def carryMeta (dma : Nat) (s : State) : State :=
  let h := homeOf s dma
  let line := (metaHome s h.1 h.2).1
  let d := decodeLine s line []
  match d.1 with
  | .clean bs => useDecoded line bs d.2
  | .corrected bs lanes nb er => noteCorrection h.1 (physAddr line) 2 false lanes nb er (useDecoded line bs d.2)
  | _ => loseMeta h.1 line 3 d.2

/-- One line of a page is carried whole from one key and counter to another at minor 0 (R146, R150): verified and encrypted
again, or carried as poisoned. A line that verifies under neither is poisoned. -/
def carryLine (dma : Nat) (old new : Nat × Nat) (s0 : State) : State :=
  let s := carryMeta dma s0
  let h := homeOf s dma
  let d := decodeLine s (dataHome s h.1 h.2) []
  let m := metaEntry s h.1 h.2
  let lost (t : State) : State := writeMeta h.1 h.2 0 0 t
  let move (ct : List Byte) (t : State) : State :=
    if tagOf (getKey t old.1) old.1 dma old.2 m.1 ct = m.2 then
      storeLine h.1 h.2 dma new.1 new.2 0 (cipherLine (getKey t old.1) old.1 dma old.2 m.1 ct) (useRoundKeys h.1 old.1 t)
    else lost (tagFailure h.1 h.2 dma t)
  match d.1 with
  | .clean ct => move ct d.2
  | .corrected ct lanes nb er => move ct (noteCorrection h.1 dma 2 true lanes nb er d.2)
  | .poisoned => lost d.2
  | .uncorrectable => lost (raise h.1 0x03 dma (chanCount h.1 2 1 (poisonFound h.1 h.2 dma d.2)))

/-- The unmoved lines of a page under rewrite or move take their moves (R146, R150); after a reset the tag tells which they are (R147). Lines
on a retired channel are out of reach (R187). -/
def carryPage (x : Rewrite) (s : State) : State :=
  forEach (upTo 64) (fun i t =>
    let dma := x.page * 4096 + 64 * i
    if lineMoved t x dma || isRetired t (homeOf t dma).1 then t
    else regionWork x.region dma (markMoved x.page i (carryLine dma (oldKey t x) (newKey t x) t))) s

/-- Every line of a page under rewrite or move has moved. -/
def carryReady (s : State) (x : Rewrite) : Bool :=
  (upTo 64).all (fun i => let dma := x.page * 4096 + 64 * i; lineMoved s x dma || isRetired s (homeOf s dma).1)

/-- The record of a page's rewrite or move is released; the writes that wait for its end go to pass in their turn. -/
def dropRewrite (page : Nat) (s : State) : State :=
  let held := ((rewriteOf s page).map (fun y => y.heldReqs)).getD []
  { s with sep := { s.sep with rewrites := s.sep.rewrites.filter (fun y => y.page ≠ page), waiting := s.sep.waiting ++ held } }

/-- The end of a rewrite whose lines have moved: the page word takes M + 1, and one at 0x3FFF_FFFF exhausts the page (R146, R148). -/
def endRewrite (x : Rewrite) (s : State) : State :=
  let w := pageWord s x.page
  let s1 := dropRewrite x.page (writePageWord x.page (mkPageWord (pwGen w) (pwFresh w) (x.major + 1)) s)
  startDue (if x.major + 1 = exhaustedMajor then startRekey x.region x.page 0 s1 else s1)

/-- The rewrite of a page done whole, as a drain completes it (R52): writes that have passed their ordering points go first. -/
def finishRewrite (page : Nat) (s : State) : State :=
  match rewriteOf s page with
  | none => s
  | some x => if x.move || pageInEngines s page then s else retryWaiting (endRewrite x (carryPage x s))

/-- PAGE_REWRITE_COMPLETE (R146 to R148): every line of the page has moved. -/
def execPageRewriteComplete (page : Nat) (s : State) : Host.Outcome State Fault Refusal :=
  if pageCount ≤ page then .fault .noSuchObject
  else match rewriteOf s page with
    | none => .next s
    | some x => if !x.move && pageOpen s page && carryReady s x then .next (endRewrite x s) else .next s

end Sys2Proof.Machine
end

