-- ==== Sys2Proof/Machine/Leases.lean ====
section
/-! DEFINITION. Leases (R112 to R124): keys drawn and zeroised (R131, R132), the lease that a region entry shows, its start,
continuation and end, and the commands of an erase and of a start that has waited. -/

namespace Sys2Proof.Machine

/-! ### Keys (R131, R132) -/

/-- Keys can be drawn: the DRBG is instantiated and good samples come (R132). -/
def keyReady (s : State) : Bool := s.drbg.instantiated && s.drbg.entropyOk

/-- The lowest free slot of the n slots from k on. -/
def firstFree (s : State) : Nat → Nat → Option Nat
  | 0, _ => none
  | n + 1, k => if (getKey s k).state = .free then some k else firstFree s n (k + 1)

/-- A free slot is taken and a fresh key drawn into it for a region (R120, R131, R149): the lowest-numbered one (DESIGN CHOICE,
notes/assumptions/82.md); none while no slot is free or no entropy is available. -/
def drawKey (region : Nat) (st : SlotState) (s : State) : Option (Nat × State) :=
  if !keyReady s then none
  else match firstFree s 8192 0 with
    | none => none
    | some k =>
      let d := generate 256 s
      some (k, setKey k { key := d.1, hash := hashSubkey d.1, state := st, region := region } d.2)

/-- A slot is zeroised and free; no crypto lane holds round keys of it any longer (R133, R153). -/
def freeKey (k : Nat) (s : State) : State := dropRoundKeys k (setKey k KeySlot.zero s)

/-! ### The lease that an entry shows -/

/-- The record of a region in the plan in force. -/
def regionRec (s : State) (i : Nat) : Option RegionRec := (planOf s).regions.find? (fun r => r.index = i)

/-- The leases that no revoke has ended or kept from beginning (R124). -/
def openLeases (s : State) (r : RegionRec) : List Lease := r.leases.filter (fun l => !s.records.revokedLeases.contains l.id.toNat)

/-- The lease that follows on from a lease (R118). -/
def followOn (ls : List Lease) (l : Lease) : Option Lease := ls.find? (fun m => m.start = l.stop)

/-- A lease and those that follow on from it, one after the other. -/
def leaseChain (ls : List Lease) : Nat → Lease → List Lease
  | 0, _ => []
  | n + 1, l => l :: (match followOn ls l with
    | some m => leaseChain ls n m
    | none => [])

/-- A lease covers a minute. -/
def covers (l : Lease) (m : Nat) : Bool := decide (l.start.toNat ≤ m) && decide (m < l.stop.toNat)

/-- The lease that an inactive entry shows: the first one that does not end at or before minute m, or the last of all. -/
def shownLease (ls : List Lease) (m : Nat) : Option Lease := (ls.find? (fun l => decide (m < l.stop.toNat))).orElse (fun _ => ls.getLast?)

/-- The revoke held against a lease or its follow-on: the entry's own, or one held against an earlier plan (R124). -/
def revokeFor (later : List (Nat × Nat)) (l : Lease) (f : Option Lease) (r : Region) : Option (BitVec 32 × BitVec 32) :=
  let named (id : BitVec 32) : Bool := id = l.id || f.map (fun x => x.id) = some id
  if r.revokeMinute ≠ 0xFFFFFFFF && named r.revokeId then some (r.revokeId, r.revokeMinute)
  else (later.find? (fun e => named (BitVec.ofNat 32 e.1))).map (fun e => (BitVec.ofNat 32 e.1, BitVec.ofNat 32 e.2))

/-- A lease's own fields enter an entry, with its follow-on and the revoke held against either (R111, R118, R124). -/
def seatLease (later : List (Nat × Nat)) (ls : List Lease) (l : Lease) (r : Region) : Region :=
  let f := followOn ls l
  let v := revokeFor later l f r
  { r with
    leaseId := l.id, leaseStart := l.start, leaseEnd := l.stop, cls := l.cls, readOk := l.flags.getLsbD 0,
    writeOk := l.flags.getLsbD 1, atomicOk := l.flags.getLsbD 2, spec := l.flags.getLsbD 3,
    foEnd := (f.map (fun x => x.stop)).getD 0, foId := (f.map (fun x => x.id)).getD 0,
    revoked := v.isSome, revokeMinute := (v.map (fun x => x.2)).getD 0xFFFFFFFF, revokeId := (v.map (fun x => x.1)).getD 0 }

/-- The lease flags of an entry (R266). -/
def leaseFlags (r : Region) : Nat := bit r.readOk 0 + bit r.writeOk 1 + bit r.atomicOk 2 + bit r.spec 3

/-! ### Lease-state records (R112, R158, R159) -/

/-- Where the lease-state record of a region lies: physical line and byte offset; record i on channel i mod 64 at index i div 64, four to a
line, or in the relief area (R159, R186). -/
def leaseHome (s : State) (i : Nat) : Nat × Nat := (systemHome s (i % 64) (0x4000 + i / 64 / 4), 16 * (i / 64 % 4))

/-- The 16 bytes of a lease-state record (the places of its fields are a DESIGN CHOICE, notes/assumptions/83.md). -/
def leaseBytes (e : LeaseRec) : List Byte :=
  beBytes 8 (bit e.active 63 + bit e.revoked 62 + bit e.nextValid 61 + bit e.curBit 60 + bit e.byFollowOn 59 + e.gen.toNat * 2 ^ 40 +
    e.curSlot % 8192 * 2 ^ 27 + e.nextSlot % 8192 * 2 ^ 14) ++ beBytes 4 e.leaseId.toNat ++ beBytes 4 e.revokeMinute.toNat

/-- The record that 16 bytes hold. -/
def leaseOf (bs : List Byte) : LeaseRec :=
  let w := field bs 0 8
  { active := w.testBit 63, revoked := w.testBit 62, nextValid := w.testBit 61, curBit := w.testBit 60, byFollowOn := w.testBit 59,
    gen := BitVec.ofNat 15 (w / 2 ^ 40), curSlot := w / 2 ^ 27 % 8192, nextSlot := w / 2 ^ 14 % 8192,
    leaseId := BitVec.ofNat 32 (field bs 8 4), revokeMinute := BitVec.ofNat 32 (field bs 12 4) }

/-- The lease-state record of a region. -/
def getRec (s : State) (i : Nat) : LeaseRec := leaseOf (lineBytes s (leaseHome s i).1 (leaseHome s i).2 16)

/-- What the lease-state record of an entry holds. -/
def recOf (r : Region) : LeaseRec :=
  { active := r.active, revoked := r.revoked, gen := r.gen, curSlot := r.curSlot, nextSlot := r.nextSlot, nextValid := r.nextValid,
    curBit := r.curBit, byFollowOn := r.revoked && decide (r.revokeId = r.foId), leaseId := r.leaseId, revokeMinute := r.revokeMinute }

/-- The regions whose records lie in one line with that of region i. -/
def recordGroup (i : Nat) : List Nat := (upTo 4).map (fun j => (i / 256 * 4 + j) * 64 + i % 64)

/-- A lost line of lease-state records is built again from the region entries (R224); a region whose entry is not in use draws a new first
generation when it needs one (DESIGN CHOICE, notes/assumptions/84.md). -/
def rebuildRecs (i : Nat) (s : State) : State :=
  let s1 := writeLine (leaseHome s i).1 [] s
  forEach ((recordGroup i).filter (fun j => NSet.has j s.genDrawn)) (fun j t =>
    if (getRegion t j).inUse then writeBytes (leaseHome t j).1 (leaseHome t j).2 (leaseBytes (recOf (getRegion t j))) t
    else { t with genDrawn := NSet.del j t.genDrawn }) s1

/-- The lease-state record of a region on a demand access, which decodes its line (R208, R224). -/
def readRec (i : Nat) (s : State) : LeaseRec × State :=
  let r := readLines (fun _ _ => 0) (fun _ t => rebuildRecs i t) [(leaseHome s i).1] s
  (getRec (viewOf r.1 r.2) i, r.2)

/-- Writes the lease-state record of a region: its line is read and written for the system input (R196). -/
def putRec (i : Nat) (e : LeaseRec) (s : State) : State :=
  let h := leaseHome s i
  systemBursts (lineChannel h.1) 2 (writeSystem h.1 h.2 (leaseBytes e) (readRec i s).2)

/-- The lease-state record of a region is written from its entry (R112). -/
def saveLease (i : Nat) (s : State) : State := putRec i (recOf (getRegion s i)) s

/-- The fields of an entry that come from its lease-state record (R112). -/
def fromRec (e : LeaseRec) (r : Region) : Region :=
  { r with active := e.active, revoked := e.revoked, gen := e.gen, curSlot := e.curSlot, nextSlot := e.nextSlot, nextValid := e.nextValid,
           curBit := e.curBit, leaseId := e.leaseId, revokeMinute := if e.revoked then e.revokeMinute else 0xFFFFFFFF,
           revokeId := if !e.revoked then 0 else if e.byFollowOn then r.foId else e.leaseId }

/-- The first generation of a region since the cold start is drawn (R57, R113), when its entry is first needed (DESIGN CHOICE,
notes/assumptions/84.md). -/
def firstGen (i : Nat) (s : State) : State :=
  if NSet.has i s.genDrawn then s
  else
    let d := generate 15 s
    putRec i { recOf Region.zero with gen := d.1 } { d.2 with genDrawn := NSet.add i d.2.genDrawn }

/-- The entry of an index that a newly adopted plan does not name: all zeros (R283). -/
def Region.unnamed : Region := { Region.zero with revokeMinute := 0 }

/-- The entry of a region with no lease in progress, from the plan and the lease-state record (R111, R112, R283); an index that the
plan does not name is not in use, all zeros. The record takes the entry's lease ID. -/
def loadEntry (i : Nat) (s : State) : State :=
  match regionRec s i with
  | none => setRegion i Region.unnamed s
  | some p =>
    let d := readRec i (firstGen i s)
    let s1 := d.2
    let e := d.1
    let r : Region :=
      { Region.zero with
        inUse := true, tenant := p.tenant, vbase := p.vbase, slab := p.slab, slabs := p.slabs, gen := e.gen, curSlot := e.curSlot,
        nextSlot := e.nextSlot, nextValid := e.nextValid, curBit := e.curBit, revokeMinute := (if (getRegion s i).inUse then getRegion s i else Region.zero).revokeMinute,
        revokeId := (getRegion s i).revokeId }
    let ls := openLeases s1 p
    let shown := match shownLease ls s.tank.roundMinute.toNat with
      | some l => some l
      | none => p.leases.getLast?
    let r1 := match shown with
      | some l => seatLease s.records.laterRevokes ls l r
      | none => { r with revokeMinute := 0xFFFFFFFF, revokeId := 0 }
    let s2 := setRegion i r1 s1
    if recOf r1 = e then s2 else saveLease i s2

/-! ### Start (R120, R121, R123) -/

/-- Two entries hold a common slab. -/
def sharesSlab (a b : Region) : Bool := decide (a.slab < b.slab + b.slabs) && decide (b.slab < a.slab + a.slabs)

/-- A lease start of region i waits for an erase: slabs of its own or of another region are still erase-pending (R123, R129). -/
def eraseBlocks (s : State) (i : Nat) : Bool := s.regions.any (fun e => e.2.erasePending && sharesSlab e.2 (getRegion s i))

/-- The lease start of a region waits (R121, R123). -/
def holdStart (i : Nat) (byErase : Bool) (s : State) : State :=
  { s with held := s.held.filter (fun h => h.1 ≠ i) ++ [(i, byErase)] }

/-- The lease start of a region waits no more. -/
def dropHold (i : Nat) (s : State) : State := { s with held := s.held.filter (fun h => h.1 ≠ i) }

/-- The start waits. -/
def isHeld (s : State) (i : Nat) : Bool := s.held.any (fun h => h.1 = i)

/-- A lease start with its slot and key drawn: generation, slot fields, record with Active 1, journal (R120). -/
def beginLease (i slot : Nat) (s : State) : State :=
  let r := getRegion s i
  let r1 := { r with active := true, gen := r.gen + 1, curSlot := slot, nextSlot := 0, nextValid := false, curBit := false }
  let s1 := saveLease i (setRegion i r1 (dropHold i s))
  let s2 := { s1 with records := { s1.records with leased := NSet.add r.tenant s1.records.leased } }
  journalEvent 0x081 0x30 0
    (beBytes 4 i ++ beBytes 4 r1.leaseId.toNat ++ beBytes 2 r1.tenant ++ beBytes 2 r1.gen.toNat ++ beBytes 2 slot ++ [0, 0] ++
      beBytes 4 r1.leaseEnd.toNat ++ beBytes 4 r1.slabs ++ beBytes 1 (leaseFlags r1)) (tenantCount r.tenant 10 1 s2)

/-- A lease whose start has come begins, or waits for an erase, a slot or entropy; leases start in FIELD only (R348). -/
def startLease (i : Nat) (s : State) : State :=
  if s.otp.life ≠ 2 || !(getRegion s i).inUse || (getRegion s i).active || s.plans.reloadFailed.contains i then s
  else if eraseBlocks s i then holdStart i true s
  else match drawKey i .current s with
    | none => holdStart i false s
    | some (k, t) => beginLease i k t

/-- The lease of a region that covers minute m, and begins at it where `now` is set. -/
def leaseAt (s : State) (i m : Nat) : Option Lease :=
  (regionRec s i).bind (fun p => (openLeases s p).find? (fun l => covers l m))

/-! ### End (R122, R124) -/

/-- The leases that a revoke has ended or kept from beginning: the one named and those that follow on from it (R124). -/
def dropChain (i : Nat) (id : BitVec 32) (s : State) : State :=
  match regionRec s i with
  | none => { s with records := { s.records with revokedLeases := NSet.add id.toNat s.records.revokedLeases } }
  | some p =>
    let ids := id :: (match p.leases.find? (fun l => l.id = id) with
      | some l => (leaseChain p.leases p.leases.length l).map (fun x => x.id)
      | none => [])
    { s with records := { s.records with revokedLeases := ids.foldl (fun t x => NSet.add x.toNat t) s.records.revokedLeases } }

/-- A lease end begins: Active clear, Erase pending set (R122). `cause` 0 plan, 1 revoke, 2 reload failure; `m` the boundary. -/
def endLease (i m : Nat) (cause : Byte) (s : State) : State :=
  let r := getRegion s i
  let s1 := setRegion i { r with active := false, erasePending := true, erase := .draining, eraseCause := cause,
                                 endMinute := BitVec.ofNat 32 m } (tenantCount r.tenant 11 1 s)
  if cause = 1 then
    let s2 := dropChain i r.revokeId s1
    { s2 with records := { s2.records with revokeEnded := NSet.add r.tenant s2.records.revokeEnded } }
  else s1

/-- A lease is carried on by its follow-on lease (R118): same key, generation and data. -/
def continueLease (i : Nat) (s : State) : State :=
  let r := getRegion s i
  match (regionRec s i).bind (fun p => ((openLeases s p).find? (fun l => l.id = r.foId)).map (fun l => (openLeases s p, l))) with
  | none => s
  | some (ls, l) =>
    journalEvent 0x081 0x32 0 (beBytes 4 i ++ beBytes 4 r.leaseId.toNat ++ beBytes 4 l.id.toNat ++ beBytes 4 l.stop.toNat)
      (saveLease i (setRegion i (seatLease s.records.laterRevokes ls l r) s))

/-! ### The erase (R122) -/

/-- A request bears the key IDs of a region. -/
def bears (i : Nat) (l : List LineReq) : Bool := l.any (fun r => r.region = i)

/-- Requests of a region stand in an engine: bank queues, arrived bursts, crypto lanes, write halves (R122). -/
def regionInEngines (s : State) (i : Nat) : Bool := anyInEngines s (fun r => r.region = i)

/-- A READ of a region's lines is not fully sent: its lines stand in read staging. -/
def regionStaged (s : State) (i : Nat) : Bool :=
  let r := getRegion s i
  s.qps.any (fun e => e.2.ops.any (fun o => o.kind = .read && decide (r.slab * 65536 ≤ o.dma) &&
    decide (o.dma < (r.slab + r.slabs) * 65536)))

/-- No request that bears a region's key IDs remains anywhere (R122). -/
def regionQuiet (s : State) (i : Nat) : Bool :=
  !(bears i s.path.backlog || s.path.classQ.any (fun e => bears i e.2) || regionInEngines s i || regionStaged s i ||
    s.sep.inits.any (fun x => bears i x.heldReqs) || s.sep.rewrites.any (fun x => bears i x.heldReqs) || bears i s.sep.waiting)

/-- The type 0x52 entry of a re-key that ends (0) or is abandoned (1) (R323). -/
def journalRekeyEnd (k : Rekey) (tenant result : Nat) (s : State) : State :=
  journalEvent 0x083 0x52 result
    (beBytes 4 k.region ++ beBytes 2 tenant ++ beBytes 2 k.oldSlot ++ beBytes 2 (if result = 1 then 0xFFFF else k.newSlot) ++ [0, 0] ++
      beBytes 4 k.moved ++ beBytes 4 ((s.tank.clockUs - k.startUs) / 1000)) s

/-- A re-key and page rewrites under way on a region are abandoned (R122, R152). -/
def abandonWork (i : Nat) (s : State) : State :=
  let s1 := match rekeyOf s i with
    | some k => journalRekeyEnd k (getRegion s i).tenant 1 s
    | none => s
  { s1 with sep := { s1.sep with rekeys := s1.sep.rekeys.filter (fun k => k.region ≠ i),
                                 rewrites := s1.sep.rewrites.filter (fun w => w.region ≠ i),
                                 due := s1.sep.due.filter (fun e => e.2 ≠ i) } }

/-- ERASE_DRAIN_COMPLETE (R122): the wait is over when no request bears the region's key IDs; what the Separator does on the
region is abandoned, and the erase begins. -/
def execEraseDrainComplete (region : Fin 131072) (s : State) : Host.Outcome State Fault Refusal :=
  let i := region.val
  let r := getRegion s i
  if r.erase ≠ .draining || !regionQuiet s i || !upkeepRuns s then .next s
  else
    let s1 := abandonWork i s
    .next (setRegion i { getRegion s1 i with rekeying := false, erase := .erasing, eraseFrom := s.tank.clockUs,
                                             pagesRemaining := (unerased s1 i).length } s1)

/-- The slots of a region. -/
def regionSlots (r : Region) : List Nat := if r.nextValid then [r.curSlot, r.nextSlot] else [r.curSlot]

/-- The erase ends, its page words fresh: slots zeroised, the entry shows the next lease, record with Active 0, journal (R122). The slot fields and the current bit
then read 0 (DESIGN CHOICE, notes/assumptions/98.md). -/
def finishErase (i : Nat) (s : State) : State :=
  let r := getRegion s i
  let s1 := forEach (regionSlots r) freeKey s
  let r1 := { r with erase := .none, erasePending := false, pagesRemaining := 0, curSlot := 0, nextSlot := 0, nextValid := false,
                     curBit := false }
  let s2 := saveLease i (setRegion i r1 s1)
  let s3 := if s.plans.reloadFailed.contains i then s2 else loadEntry i s2
  journalEvent 0x081 0x31 0
    (beBytes 4 i ++ beBytes 4 r.leaseId.toNat ++ beBytes 2 r.tenant ++ [r.eraseCause, 0] ++ beBytes 4 r.endMinute.toNat ++
      beBytes 4 (regionPages r) ++ beBytes 4 (s.tank.clockUs - r.eraseFrom)) s3

/-- CRYPTO_ERASE_COMPLETE (R122): every page word of the region is fresh. -/
def execCryptoEraseComplete (region : Fin 131072) (s : State) : Host.Outcome State Fault Refusal :=
  if (getRegion s region.val).erase = .erasing && upkeepRuns s && unerased s region.val = [] then .next (finishErase region.val s) else .next s

end Sys2Proof.Machine
end

