-- ==== Sys2Proof/Machine/PlanParse.lean ====
section
/-! DEFINITION. The flash and the plan image (R249, R253 to R275): reading a bank, the checks of R257 in their order, and
the sections read into the plan record. A failed check is given as reason code and detail word. -/

namespace Sys2Proof.Machine

/-! ### The flash (R249) -/

/-- An unlisted byte of the flash is erased. -/
def flashByte (_ : Nat) : Byte := 0xFF

/-- `n` bytes of flash from offset `o` on. -/
def flashRead (s : State) (o n : Nat) : List Byte := Memory.read flashByte o n s.flash

/-- NOR programming only clears bits. -/
def flashProgram (o : Nat) (bs : List Byte) (s : State) : State :=
  { s with flash := Memory.write flashByte o (List.zipWith (fun a b => a &&& b) (flashRead s o bs.length) bs) s.flash }

/-- Erases `n` bytes of flash. -/
def flashErase (o n : Nat) (s : State) : State :=
  { s with flash := s.flash.filter (fun e => decide (e.1 < o) || decide (o + n ≤ e.1)) }

/-- The flash offset of a plan bank. -/
def bankBase : Bank → Nat
  | .a => 0x0800000
  | .b => 0x2000000

/-- The 32-bit header word of a bank at an offset (R253). -/
def bankWord (s : State) (b : Bank) (o : Nat) : Nat := field (flashRead s (bankBase b + o) 4) 0 4

/-- The arm word of a bank (R259). -/
def armWord (s : State) (b : Bank) : Nat := bankWord s b 0x3C

/-! ### Results of checks -/

/-- A check passes, or fails at an offset. -/
def need (ok : Bool) (o : Nat) : Except Nat Unit := if ok then .ok () else .error o

/-- The first error of a list of checks. -/
def allOk : List (Except Nat Unit) → Except Nat Unit
  | [] => .ok ()
  | .ok () :: t => allOk t
  | .error o :: _ => .error o

/-- A run of bytes is zero. -/
def zeroAt (b : List Byte) (o n : Nat) : Bool := field b o n = 0

/-! ### Sections (R255, R256, R260, R262) -/

/-- A section: type, bank offset of its body, body. -/
structure Section where
  ty : Nat
  off : Nat
  body : List Byte
  deriving DecidableEq, Repr

/-- The first multiple of 8 at or after n. -/
def align8 (n : Nat) : Nat := (n + 7) / 8 * 8

/-- A section type of R260; only 0x03 to 0x0E may stand in a subsection (R262). -/
def typeAllowed (sub : Bool) (t : Nat) : Bool :=
  if sub then decide (3 ≤ t) && decide (t ≤ 0x0E) else (decide (1 ≤ t) && decide (t ≤ 0x0E)) || t = 0xFF

/-- The first byte of a run that is not zero. -/
def firstNonzero (bs : List Byte) : Option Nat := bs.findIdx? (· ≠ 0)

/-- The lowest of the offsets at which checks have failed. -/
def lowest (l : List (Option Nat)) : Option Nat := (l.filterMap id).min?

/-- What is wrong with a section header and its body: the first offending byte, counted from the header (R255, R260, R262). -/
def headerFault (sub : Bool) (prev : Nat) (a : List Byte) : Option Nat :=
  let ty := field a 0 1
  let len := field a 4 4
  if a.length < 16 then some 0
  else if !typeAllowed sub ty || decide (ty ≤ prev) then some 0
  else if field a 1 1 ≠ 1 then some 1
  else match firstNonzero ((a.drop 2).take 2) with
    | some i => some (2 + i)
    | none =>
      if a.length < 16 + len then some 4
      else if field a 8 4 ≠ (crc32c ((a.drop 16).take len)).toNat then some 8
      else (firstNonzero ((a.drop 12).take 4)).map (fun i => 12 + i)

/-- Reads a run of sections: `a` the run from its byte `p` on, `base` the bank offset of the run. `fuel` bounds the sections. The sections
before the first fault, and the bank offset of its first offending byte. -/
def readSections (sub : Bool) (base : Nat) : Nat → Nat → Nat → List Byte → List Section × Option Nat
  | 0, p, _, _ => ([], some (base + p))
  | fuel + 1, p, prev, a =>
    let len := field a 4 4
    let o := base + p
    match headerFault sub prev a with
    | some i => ([], some (o + i))
    | none =>
      let sec : Section := { ty := field a 0 1, off := o + 16, body := (a.drop 16).take len }
      if a.length = 16 + len then ([sec], none)
      else
        let next := align8 (16 + len)
        match firstNonzero ((a.drop (16 + len)).take (next - 16 - len)) with
        | some i => ([sec], some (o + 16 + len + i))
        | none =>
          if a.length ≤ next then ([sec], some (o + 16 + len))
          else
            let r := readSections sub base fuel (p + next) sec.ty (a.drop next)
            (sec :: r.1, r.2)

/-- Entry i of the unit index: unit address, offset, length (R262). -/
def indexEntry (body : List Byte) (i : Nat) : Nat × Nat × Nat :=
  (field body (4 + 12 * i) 1, field body (8 + 12 * i) 4, field body (12 + 12 * i) 4)

/-- One entry of the unit index, and its subsection (R262): the first offending byte. -/
def indexFault (sec : Section) (i : Nat) : Option Nat :=
  let b := sec.body
  let e := indexEntry b i
  let o := sec.off + 4 + 12 * i
  if e.1 < 1 || 62 < e.1 || (decide (0 < i) && decide (e.1 ≤ (indexEntry b (i - 1)).1)) then some o
  else match firstNonzero ((b.drop (5 + 12 * i)).take 3) with
    | some j => some (o + 1 + j)
    | none =>
      if e.2.1 % 8 ≠ 0 || b.length < e.2.1 then some (o + 4)
      else if b.length < e.2.1 + e.2.2 then some (o + 8)
      else if e.2.2 = 0 then none
      else (readSections true (sec.off + e.2.1) 16 0 0 ((b.drop e.2.1).take e.2.2)).2

/-- The structure of the unit index (R262): the first offending byte, among all its entries and subsections. -/
def checkIndex (sec : Section) : Option Nat :=
  let n := field sec.body 0 2
  if sec.body.length < 4 || 62 < n then some sec.off
  else match firstNonzero ((sec.body.drop 2).take 2) with
    | some j => some (sec.off + 2 + j)
    | none =>
      if sec.body.length < 4 + 12 * n then some sec.off
      else lowest ((List.range n).map (indexFault sec))

/-- The section of a type. -/
def findSection (l : List Section) (t : Nat) : Option Section := l.find? (fun x => x.ty = t)

/-! ### Checks 1 to 10 (R257) -/

/-- The signature section: last, 196 bytes, well formed (R256). -/
def signatureForm (l : List Section) : Option Section :=
  match findSection l 0xFF with
  | none => none
  | some x =>
    let alg := field x.body 0 1
    if x.body.length = 196 && zeroAt x.body 1 3 && (alg = 1 || (alg = 0 && x.body.all (· = 0))) then some x else none

/-- The signed message of a bank (R256). -/
def planMessage (h area : List Byte) (sig : Section) : List Byte :=
  h.take 0x14 ++ (h.drop 0x18).take 0x24 ++ area.take (sig.off - 16 - 0x40)

/-- Checks 6 to 9: form, signer, signature, or unsigned only in MANUFACTURE (R256, R257). -/
def checkSignature (s : State) (h area : List Byte) (l : List Section) : Except (Nat × Nat) Unit :=
  match signatureForm l with
  | none => .error (0x05, 0)
  | some x =>
    if field x.body 0 1 = 1 then
      if !(signerHashes s).contains (sha384 ((x.body.drop 4).take 96)) then .error (0x06, 0)
      else if !signatureValid s x.body (planMessage h area x) then .error (0x07, 0)
      else .ok ()
    else if s.otp.life = 1 then .ok () else .error (0x08, 0)

/-- The identity binding binds this device (R261); a device ID with a marginal word matches none (R354). -/
def bindsDevice (s : State) (l : List Section) : Bool :=
  match findSection l 0x01 with
  | some x => idMatches s && Nat.land (deviceId s) (field x.body 8 8) = field x.body 0 8
  | none => false

/-- Checks 4 to 10 of R257, on the section area. -/
def checkArea (s : State) (h area : List Byte) : Except (Nat × Nat) (List Section) :=
  if (crc32 (h.take 0x14 ++ (h.drop 0x18).take 0x24 ++ area)).toNat ≠ field h 0x14 4 then .error (0x04, 0)
  else
    let r := readSections false 0x40 16 0 0 area
    match lowest [r.2, (findSection r.1 0x02).bind checkIndex] with
    | some o => .error (0x0A, o)
    | none =>
      match checkSignature s h area r.1 with
      | .error e => .error e
      | .ok () => if bindsDevice s r.1 then .ok r.1 else .error (0x09, 0)

/-- Checks 1 to 10 of R257, without the unit address: the sections of the bank. -/
def checkBankForm (s : State) (b : Bank) : Except (Nat × Nat) (List Section) :=
  let h := flashRead s (bankBase b) 0x40
  let len := field h 0x0C 4
  if field h 0 4 = 0xFFFFFFFF || field h 0 4 = 0 then .error (0x01, 0)
  else if field h 0 4 ≠ 0x4855504C || field h 4 2 ≠ 1 || field h 6 2 ≠ 0x40 then .error (0x02, 0)
  else if len < 8 || 0x017FFFC0 < len then .error (0x03, 0)
  else checkArea s h (flashRead s (bankBase b + 0x40) len)

/-! ### Resolution (check 11, R262) -/

/-- The subsection of a unit address; none when it has no entry. -/
def subsection (l : List Section) (addr : Nat) : List Section :=
  match findSection l 0x02 with
  | none => []
  | some x =>
    match (List.range (field x.body 0 2)).find? (fun i => (indexEntry x.body i).1 = addr) with
    | none => []
    | some i =>
      let e := indexEntry x.body i
      (readSections true (x.off + e.2.1) 16 0 0 ((x.body.drop e.2.1).take e.2.2)).1

/-- The section of a type as it is resolved for a unit. -/
def resolved (l sub : List Section) (t : Nat) : Option Section := (findSection sub t).orElse (fun _ => findSection l t)

/-- The sections that must be present after resolution (R260). -/
def requiredTypes : List Nat := [1, 3, 4, 5, 6, 7, 8, 9, 10, 11, 12, 13, 14, 0xFF]

/-! ### Contents (check 12, R275) -/

/-- The body of a resolved section. -/
def bodyOf (l sub : List Section) (t : Nat) : List Byte := ((resolved l sub t).map (fun x => x.body)).getD []

/-- The ports of a quad in a mode (R59). -/
def modePorts (m : Nat) : Nat := if m = 4 then 1 else if m = 2 then 2 else if m = 1 then 4 else 0

/-- The interface record of a quad (R263). -/
def readIface (r : List Byte) : Iface :=
  { hasV4 := (field r 0 1).testBit 0, hasV6 := (field r 0 1).testBit 1, lossless := BitVec.ofNat 8 (field r 1 1),
    vlan := BitVec.ofNat 16 (field r 2 2), mac := BitVec.ofNat 48 (field r 4 6), controlPrio := field r 10 1,
    controlDscp := field r 11 1, v4 := BitVec.ofNat 32 (field r 12 4), v6 := BitVec.ofNat 128 (field r 16 16),
    dscpMap := (r.drop 32).take 64 }

/-- A record of a quad with a present port meets R263. -/
def ifaceOk (r : List Byte) : Bool :=
  let i := readIface r
  let vid := i.vlan.toNat % 4096
  field r 0 1 ≤ 3 && decide (bitCount i.lossless ≤ 4) && bits i.vlan.toNat 14 12 = 0 &&
    (if i.vlan.getLsbD 15 then decide (1 ≤ vid) && decide (vid ≤ 4094) else vid = 0) && i.mac ≠ 0 && !i.mac.getLsbD 40 &&
    decide (i.controlPrio ≤ 7) && !i.lossless.getLsbD i.controlPrio && decide (i.controlDscp ≤ 63) && (i.hasV4 || i.hasV6) &&
    (i.hasV4 || i.v4 = 0) && (if i.hasV6 then field r 16 1 ≠ 0xFF && i.v6.toNat / 2 ^ 118 ≠ 0x3FA else i.v6 = 0) &&
    i.dscpMap.all (fun d => decide (d.toNat ≤ 7))

/-- Interfaces (R263); `modes` is the port-modes body. -/
def checkIfaces (b modes : List Byte) : Except Nat Unit :=
  if b.length ≠ 384 then .error 0
  else allOk ((List.range 4).map (fun q =>
    let r := (b.drop (96 * q)).take 96
    need (if field modes (2 * q + 1) 1 = 0 then r.all (· = 0) else ifaceOk r) (96 * q)))

/-- Port modes (R264): a quad's mode code, then its mask. -/
def checkModes (b : List Byte) : Except Nat Unit :=
  if b.length ≠ 8 then .error 0
  else allOk (((List.range 4).map (fun q =>
    let n := modePorts (field b (2 * q) 1)
    [need (n ≠ 0) (2 * q), need (decide (field b (2 * q + 1) 1 < 2 ^ n)) (2 * q + 1)])).flatten)

/-- A class is in use in a class-table body. -/
def classUsed (classes : List Byte) (c : Nat) : Bool := decide (c < 16) && (field classes (24 * c) 1).testBit 0

/-- A tenant record (R265). -/
def readTenant (b : List Byte) (i : Nat) : TenantRec :=
  let o := 4 + 24 * i
  { index := field b o 2, cls := field b (o + 2) 1, accessCount := field b (o + 3) 1, quota := field b (o + 4) 4,
    serviceId := BitVec.ofNat 64 (field b (o + 8) 8), accessFirst := field b (o + 16) 2 }

/-- A prefix entry at a byte offset (R265). -/
def readPrefix (b : List Byte) (o : Nat) : Prefix :=
  { family := BitVec.ofNat 8 (field b o 1), length := field b (o + 1) 1,
    addr := BitVec.ofNat 128 (if field b o 1 = 4 then field b (o + 4) 4 else field b (o + 4) 16) }

/-- A prefix entry meets R265. -/
def prefixOk (b : List Byte) (o : Nat) : Bool :=
  let e := readPrefix b o
  let w := if e.family = 4 then 32 else 128
  (e.family = 4 || e.family = 6) && decide (e.length ≤ w) && zeroAt b (o + 2) 2 &&
    (e.family ≠ 4 || zeroAt b (o + 8) 12) && e.addr.toNat % 2 ^ (w - e.length) = 0

/-- Tenants (R189, R265). -/
def checkTenants (b classes : List Byte) : Except Nat Unit :=
  let t := field b 0 2
  let p := field b 2 2
  if b.length ≠ 4 + 24 * t + 20 * p then .error 0
  else if 8192 < p then .error 2
  else allOk ((List.range t).map (fun i =>
      let r := readTenant b i
      need (decide (r.index < 4096) && (i = 0 || decide ((readTenant b (i - 1)).index < r.index)) && classUsed classes r.cls &&
        decide (r.accessCount ≤ 8) && decide (r.quota ≤ 262144) && decide (r.accessFirst + r.accessCount ≤ p) &&
        decide (r.accessFirst ≤ 8191) && zeroAt b (4 + 24 * i + 18) 6 &&
        !(List.range i).any (fun j => (readTenant b j).serviceId = r.serviceId)) (4 + 24 * i)) ++
    (List.range p).map (fun j => need (prefixOk b (4 + 24 * t + 20 * j)) (4 + 24 * t + 20 * j)))

/-- A lease record at a byte offset (R266). -/
def readLease (b : List Byte) (o : Nat) : Lease :=
  { id := BitVec.ofNat 32 (field b o 4), start := BitVec.ofNat 32 (field b (o + 4) 4), stop := BitVec.ofNat 32 (field b (o + 8) 4),
    flags := BitVec.ofNat 8 (field b (o + 12) 1), cls := field b (o + 13) 1 }

/-- The region records with their offsets, read from offset `o` on; `n` records are left (R266). -/
def readRegions (b : List Byte) : Nat → Nat → List (Nat × RegionRec)
  | 0, _ => []
  | n + 1, o =>
    let k := field b (o + 6) 2
    let r : RegionRec :=
      { index := field b o 4, tenant := field b (o + 4) 2, vbase := BitVec.ofNat 64 (field b (o + 8) 8), slab := field b (o + 16) 4,
        slabs := field b (o + 20) 4, leases := (List.range k).map (fun i => readLease b (o + 32 + 16 * i)) }
    (o, r) :: readRegions b n (o + 32 + 16 * k)

/-- A lease record meets R266, given the lease IDs before it and where the lease before it in its region stops. -/
def leaseOk (ids : List W32) (prev : Option W32) (l : Lease) : Bool :=
  l.id ≠ 0 && !ids.contains l.id && decide (l.start.toNat < l.stop.toNat) && decide (l.flags.toNat < 16) && decide (l.cls < 16) &&
    (prev.map (fun m => decide (m.toNat ≤ l.start.toNat))).getD true

/-- Two regions hold common slabs in a common lease minute (R110). -/
def regionsClash (a b : RegionRec) : Bool :=
  decide (a.slab < b.slab + b.slabs) && decide (b.slab < a.slab + a.slabs) &&
    a.leases.any (fun l => b.leases.any (fun m => decide (l.start.toNat < m.stop.toNat) && decide (m.start.toNat < l.stop.toNat)))

/-- Slabs of the general pool for k express channels (R160). -/
def generalSlabs (k : Nat) : Nat := (64 - k) * 0x3720

/-- A region record meets R110 and R266 apart from its lease records, given the regions before it. -/
def regionOk (tenants : List Nat) (k : Nat) (b : List Byte) (before : List (Nat × RegionRec)) (x : Nat × RegionRec) : Bool :=
  let r := x.2
  decide (r.index < 131072) && before.all (fun y => decide (y.2.index < r.index)) && tenants.contains r.tenant && r.leases ≠ [] &&
    r.vbase.toNat % 65536 = 0 && decide (r.vbase.toNat + r.slabs * 65536 ≤ 2 ^ 64) && decide (1 ≤ r.slabs) &&
    decide (r.slab + r.slabs ≤ 903168) && (decide (r.slab + r.slabs ≤ generalSlabs k) || decide (generalSlabs k ≤ r.slab)) &&
    zeroAt b (x.1 + 24) 8 && before.all (fun y => !regionsClash y.2 r)

/-- A region record, which lies in the body with its leases, and then its lease records, in body order (R266, R275). -/
def checkRegion (tenants : List Nat) (k : Nat) (b : List Byte) (before : List (Nat × RegionRec)) (x : Nat × RegionRec) : Except Nat Unit :=
  let ls := x.2.leases
  let ids := (before.map (fun y => y.2.leases.map (fun l => l.id))).flatten
  allOk (need (decide (x.1 + 32 + 16 * ls.length ≤ b.length) && regionOk tenants k b before x) x.1 :: (List.range ls.length).map (fun i =>
    let o := x.1 + 32 + 16 * i
    let l := readLease b o
    need (leaseOk (ids ++ (ls.take i).map (fun m => m.id)) (if i = 0 then none else (ls[i - 1]?).map (fun m => m.stop)) l &&
      zeroAt b (o + 14) 2) o))

/-- Regions (R110, R266). -/
def checkRegions (b : List Byte) (tenants : List Nat) (k : Nat) : Except Nat Unit :=
  let l := readRegions b (field b 0 4) 4
  let stop := l.foldl (fun _ x => x.1 + 32 + 16 * x.2.leases.length) 4
  allOk ((List.range l.length).map (fun i =>
    match l[i]? with
    | some x => checkRegion tenants k b (l.take i) x
    | none => .ok ()) ++ [need (b.length = stop) stop])

/-- A class record (R267). -/
def readClass (b : List Byte) (c : Nat) : ClassRec :=
  let o := 24 * c
  { inUse := (field b o 1).testBit 0, pfc := field b (o + 1) 1, dscp := field b (o + 2) 1, esc := field b (o + 3) 1,
    target := field b (o + 4) 2, cap := field b (o + 6) 2, minRate := field b (o + 8) 2, gain := field b (o + 10) 2,
    step := field b (o + 12) 2, period := field b (o + 14) 2 }

/-- Classes (R267, R269); `tables` is the number of escalation tables. -/
def checkClasses (b : List Byte) (tables : Nat) : Except Nat Unit :=
  if b.length ≠ 384 then .error 0
  else allOk ((List.range 16).map (fun c =>
    let r := readClass b c
    need (if field b (24 * c) 1 = 0 then zeroAt b (24 * c) 24
      else field b (24 * c) 1 = 1 && decide (r.pfc ≤ 7) && decide (r.dscp ≤ 63) && decide (r.esc < tables) &&
        decide (100 ≤ r.target) && decide (r.target ≤ 1000) && decide (1 ≤ r.cap) && decide (r.cap ≤ 512) &&
        decide (1 ≤ r.minRate) && decide (r.minRate ≤ 8000) && decide (1 ≤ r.gain) && decide (r.gain ≤ 1023) &&
        decide (r.step ≤ 8000) && decide (1 ≤ r.period) && zeroAt b (24 * c + 16) 8) (24 * c)))

/-- A calendar meets R194. -/
def calendarOk (classes : List Byte) (cal : List Byte) : Bool :=
  cal.all (fun x => decide (x.toNat ≤ 0x11) && (decide (0x10 ≤ x.toNat) || classUsed classes x.toNat)) &&
    decide (8 ≤ (cal.filter (fun x => x.toNat = 0x11)).length)

/-- Calendars (R194, R268): the channel map, the count, the zero bytes, the calendars. -/
def checkCalendars (b classes : List Byte) : Except Nat Unit :=
  let k := field b 64 2
  let ok := b.length = 72 + 4096 * k && decide (1 ≤ k) && decide (k ≤ 64)
  allOk ((List.range 64).map (fun c => need (decide (field b c 1 < if ok then k else 64)) c) ++ [need ok 64, need (zeroAt b 66 6) 66] ++
    (List.range k).map (fun i => need (calendarOk classes ((b.drop (72 + 4096 * i)).take 4096) &&
      (List.range 64).any (fun c => field b c 1 = i)) (72 + 4096 * i)))

/-- The entries of an escalation table never decrease (R199). -/
def tableRises (w : Nat) : Bool := (List.range 15).all (fun i => decide (w / 4 ^ i % 4 ≤ w / 4 ^ (i + 1) % 4))

/-- Escalation tables (R199, R269). -/
def checkTables (b : List Byte) : Except Nat Unit :=
  let e := field b 0 2
  if e < 1 || 16 < e || b.length ≠ 4 + 4 * e then .error 0
  else if !zeroAt b 2 2 then .error 2
  else allOk ((List.range e).map (fun i => need (tableRises (field b (4 + 4 * i) 4)) (4 + 4 * i)))

/-- The steering table meets R162 for an order and k. -/
def steeringOk (order k : Nat) (tbl : List Nat) : Bool :=
  let g := 64 - k
  let l := tbl.length
  let w := chunkLines order
  let step := 64 / w
  let starts (c : Nat) : Nat := ((List.range l).filter (fun p => p % step = 0 && (tbl[p]?).getD 64 = c)).length
  decide (1 ≤ l) && decide (l ≤ 4096) && l % g = 0 && (List.range g).all (fun c => (tbl.filter (· = c)).length = l / g) &&
    tbl.all (fun c => decide (c < g)) && (14450688 / w) % (l / g) = 0 && l % step = 0 && (List.range g).all (fun c => starts c = starts 0)

/-- Address map (R270). -/
def checkMap (b : List Byte) : Except Nat Unit :=
  let k := field b 1 1
  if 2 < field b 0 1 then .error 0
  else if k ≠ 0 ∧ k ≠ 8 ∧ k ≠ 16 then .error 1
  else if b.length ≠ 8 + field b 2 2 then .error 2
  else if !zeroAt b 4 4 then .error 4
  else need (steeringOk (field b 0 1) k ((b.drop 8).map (fun x => x.toNat))) 8

/-- Thermal section (R271). -/
def checkThermal (b classes : List Byte) : Except Nat Unit :=
  let n := field b 1 1
  if 2 < field b 0 1 then .error 0
  else if 15 < n || b.length ≠ 4 + 2 * n then .error 1
  else if !zeroAt b 2 2 then .error 2
  else allOk ((List.range n).map (fun i => need (classUsed classes (field b (4 + 2 * i) 1) && decide (field b (5 + 2 * i) 1 ≤ 7)) (4 + 2 * i)))

/-- Scrub section (R272). -/
def checkScrub (b : List Byte) : Except Nat Unit :=
  if b.length ≠ 4 || field b 0 1 < 1 || 168 < field b 0 1 then .error 0
  else if field b 1 1 < 8 || 16 < field b 1 1 then .error 1 else need (zeroAt b 2 2) 2

/-- Calibration section (R273). -/
def checkCalibration (b : List Byte) : Except Nat Unit :=
  if b.length ≠ 4 || field b 0 1 < 2 || 20 < field b 0 1 then .error 0
  else if !zeroAt b 1 1 then .error 1 else need (decide (120 ≤ field b 2 2) && decide (field b 2 2 ≤ 300)) 2

/-- Chain options (R274). -/
def checkChain (b : List Byte) : Except Nat Unit :=
  if b.length ≠ 4 || 3 < field b 0 1 then .error 0
  else if 7 < field b 1 1 then .error 1 else need (decide (1 ≤ field b 2 2) && decide (field b 2 2 ≤ 10000)) 2

/-- The identity binding body (R261). -/
def checkIdentity (b : List Byte) : Except Nat Unit :=
  if b.length ≠ 32 then .error 0 else need (zeroAt b 30 2) 30

/-- The tenants that a tenants body names. -/
def tenantIndexes (b : List Byte) : List Nat := (List.range (field b 0 2)).map (fun i => (readTenant b i).index)

/-- Check 12 section by section, in type order; an error gives the bank offset (R275). -/
def checkContents (l sub : List Section) : Except Nat Unit :=
  let body := bodyOf l sub
  let at_ (t : Nat) (r : Except Nat Unit) : Except Nat Unit :=
    match r with
    | .ok () => .ok ()
    | .error o => .error (((resolved l sub t).map (fun x => x.off)).getD 0 + o)
  allOk [at_ 1 (checkIdentity (body 1)), at_ 3 (checkIfaces (body 3) (body 4)), at_ 4 (checkModes (body 4)),
    at_ 5 (checkTenants (body 5) (body 7)), at_ 6 (checkRegions (body 6) (tenantIndexes (body 5)) (field (body 10) 1 1)),
    at_ 7 (checkClasses (body 7) (field (body 9) 0 2)), at_ 8 (checkCalendars (body 8) (body 7)), at_ 9 (checkTables (body 9)),
    at_ 10 (checkMap (body 10)), at_ 11 (checkThermal (body 11) (body 7)), at_ 12 (checkScrub (body 12)),
    at_ 13 (checkCalibration (body 13)), at_ 14 (checkChain (body 14))]

/-- The plan that the resolved sections give. -/
def readPlan (s : State) (b : Bank) (l sub : List Section) : Plan :=
  let body := bodyOf l sub
  let id := body 1
  let t := body 5
  let nt := field t 0 2
  let m := body 10
  let th := body 11
  let cal := body 8
  { bank := b, seq := BitVec.ofNat 32 (bankWord s b 8), adoptAt := BitVec.ofNat 32 (bankWord s b 0x10),
    idValue := BitVec.ofNat 64 (field id 0 8), idMask := BitVec.ofNat 64 (field id 8 8), epoch := BitVec.ofNat 64 (field id 16 8),
    autoStart := BitVec.ofNat 32 (field id 24 4),
    ifaces := (List.range 4).map (fun q => readIface ((body 3).drop (96 * q) |>.take 96)),
    modes := (List.range 4).map (fun q => (field (body 4) (2 * q) 1, field (body 4) (2 * q + 1) 1)),
    tenants := (List.range nt).map (readTenant t),
    prefixes := (List.range (field t 2 2)).map (fun j => readPrefix t (4 + 24 * nt + 20 * j)),
    regions := (readRegions (body 6) (field (body 6) 0 4) 4).map (fun x => x.2),
    classes := (List.range 16).map (readClass (body 7)),
    calMap := (List.range 64).map (fun c => field cal c 1),
    calendars := (List.range (field cal 64 2)).map (fun i => (cal.drop (72 + 4096 * i)).take 4096),
    escTables := (List.range (field (body 9) 0 2)).map (fun i => BitVec.ofNat 32 (field (body 9) (4 + 4 * i) 4)),
    order := field m 0 1, k := field m 1 1, steering := (m.drop 8).map (fun x => x.toNat), band := field th 0 1,
    cuts := (List.range (field th 1 1)).map (fun i => (field th (4 + 2 * i) 1, field th (5 + 2 * i) 1)),
    scrubHours := field (body 12) 0 1, log2N := field (body 12) 1 1, deltaT := field (body 13) 0 1,
    snrFloor := field (body 13) 2 2, chainFlags := BitVec.ofNat 8 (field (body 14) 0 1),
    eventClasses := BitVec.ofNat 8 (field (body 14) 1 1), eventLimit := field (body 14) 2 2, rawMap := m, rawIfaces := body 3,
    rawModes := body 4 }

/-- Checks 11 and 12, for this unit's address (R257). The spec names no byte for a missing section: its detail is free. -/
def checkBankContents (s : State) (b : Bank) (l : List Section) : Except (Nat × Nat) Plan :=
  let sub := subsection l s.tank.addr.toNat
  if requiredTypes.any (fun t => (resolved l sub t).isNone) then .error (0x0C, (Config.statusDetail s.free).toNat)
  else match checkContents l sub with
    | .error o => .error (0x0B, o)
    | .ok () => .ok (readPlan s b l sub)

/-- Checks 1 to 12 of R257. -/
def checkBank (s : State) (b : Bank) : Except (Nat × Nat) Plan :=
  match checkBankForm s b with
  | .error e => .error e
  | .ok l => checkBankContents s b l

end Sys2Proof.Machine
end

