-- ==== Sys2Proof/Machine/Adopt.lean ====
section
/-! DEFINITION. Plan banks in the staging window (R276 to R281, R396), the preparation of an adoption, the adoption itself and
its refusal (R282 to R285), and reloads from the bank in force (R286). -/

namespace Sys2Proof.Machine

/-! ### Banks -/

/-- The number of a bank: 0 A, 1 B. -/
def bankCode : Bank → Nat
  | .a => 0
  | .b => 1

/-- The other bank. -/
def otherBank : Bank → Bank
  | .a => .b
  | .b => .a

/-- The bank that a payload byte names. -/
def bankOf (n : Nat) : Bank := if n = 0 then .a else .b

/-- A bank's header state. -/
def getBS (s : State) : Bank → BankState
  | .a => s.plans.bankA
  | .b => s.plans.bankB

/-- Writes a bank's header state. -/
def putBS (k : Bank) (v : BankState) (s : State) : State :=
  match k with
  | .a => { s with plans := { s.plans with bankA := v } }
  | .b => { s with plans := { s.plans with bankB := v } }

/-- A bank takes a state, reason and detail; its header fields are read from flash (R276). -/
def setBS (k : Bank) (st : Nat) (reason : Nat) (det : Nat) (s : State) : State :=
  putBS k { state := BitVec.ofNat 4 st, reason := BitVec.ofNat 8 reason, seq := BitVec.ofNat 32 (bankWord s k 8),
            adoptAt := BitVec.ofNat 32 (bankWord s k 0x10), detail := BitVec.ofNat 32 det } s

/-- Programs a bank's arm word (R259). -/
def programArm (k : Bank) (w : Nat) (s : State) : State := flashProgram (bankBase k + 0x3C) (beBytes 4 w) s

/-- Programs a bank's magic to zero: the bank is empty (R277). -/
def killMagic (k : Bank) (s : State) : State := flashProgram (bankBase k) [0, 0, 0, 0] s

/-- The pending bank. -/
def pendingBank (s : State) : Option Bank :=
  if s.plans.bankA.state = 4 then some .a else if s.plans.bankB.state = 4 then some .b else none

/-- A preparation made or under way is given up. -/
def dropPreparation (s : State) : State := { s with plans := { s.plans with prepared := false, preparing := none, buffer := none } }

/-- Last result of the header. -/
def setLast (r : Nat) (s : State) : State := { s with plans := { s.plans with lastResult := BitVec.ofNat 8 r } }

/-- No staging is open. -/
def closeStaging (s : State) : State :=
  { s with plans := { s.plans with target := none, operation := 0, declared := 0, erased := 0, written := 0, progBuf := [], progAt := 0 } }

/-! ### Compatibility (R284) -/

/-- The leases of region i that a revoke pending for minute m or earlier ends: the one named and its follow-ons. -/
def endedByRevoke (s : State) (i m : Nat) : List (BitVec 32) :=
  let r := getRegion s i
  if !r.inUse ∨ r.revokeMinute = 0xFFFFFFFF ∨ m < r.revokeMinute.toNat then []
  else match (regionRec s i).bind (fun p => (p.leases.find? (fun l => l.id = r.revokeId)).map (fun l => (p.leases, l))) with
    | some (ls, l) => (leaseChain ls ls.length l).map (fun x => x.id)
    | none => [r.revokeId]

/-- A lease of region i has been or will have been ended by a revoke at minute m. -/
def revokedBy (s : State) (i m : Nat) (l : Lease) : Bool :=
  s.records.revokedLeases.contains l.id.toNat || (endedByRevoke s i m).contains l.id ||
    s.records.laterRevokes.any (fun e => e.1 = l.id.toNat && decide (e.2 ≤ m))

/-- A lease is in progress at minute m by its dates and revokes (R284). -/
def inProgress (s : State) (i m : Nat) (l : Lease) : Bool :=
  decide (l.start.toNat < m) && decide (m < l.stop.toNat) && !revokedBy s i m l

/-- A lease is in progress at minute m by its region's lease-state record, as a warm start takes it: the record names the lease and its
revoke (R284). -/
def recordedLease (s : State) (i m : Nat) (l : Lease) : Bool :=
  let e := getRec s i
  e.leaseId = l.id && decide (l.start.toNat < m) && decide (m < l.stop.toNat) &&
    !(e.revoked && !e.byFollowOn && decide (e.revokeMinute.toNat ≤ m))

/-- Two lease records name the same lease (condition 8). -/
def sameLease (l m : Lease) : Bool := l.id = m.id && l.start = m.start && l.stop = m.stop && l.flags = m.flags

/-- Condition 8 for one region of the plan in force; `recs` says that the lease-state records tell which leases are in progress. -/
def keepsLeases (s : State) (new : Plan) (m : Nat) (recs : Bool) (r : RegionRec) : Bool :=
  (r.leases.filter (fun l => if recs then recordedLease s r.index m l else inProgress s r.index m l)).all (fun l =>
    new.regions.any (fun n => n.index = r.index && n.tenant = r.tenant && n.vbase = r.vbase && n.slab = r.slab && n.slabs = r.slabs &&
      n.leases.any (sameLease l)))

/-- Condition 9 for one region of the new plan; `recs` as in condition 8. A lease that a revoke has ended is over, and is ignored like one
whose end has passed (DEDUCED, notes/assumptions/85.md). -/
def startsLater (s : State) (old : Plan) (m : Nat) (recs : Bool) (n : RegionRec) : Bool :=
  n.leases.all (fun l => decide (l.stop.toNat ≤ m) || decide (m ≤ l.start.toNat) || revokedBy s n.index m l ||
    old.regions.any (fun r => r.index = n.index && r.leases.any (fun x =>
      sameLease x l && (if recs then recordedLease s r.index m x else inProgress s r.index m x))))

/-- Condition 10 for one entry. -/
def keepsPlace (new : Plan) (i : Nat) (r : Region) : Bool :=
  !(r.erasePending || r.rekeying) ||
    new.regions.any (fun n => n.index = i && n.tenant = r.tenant && n.slab = r.slab && n.slabs = r.slabs)

/-- The first compatibility condition that a new plan fails at minute m, 5 to 10; none before a plan has been in force. -/
def compat (s : State) (new : Plan) (m : Nat) (atStart : Bool) : Option Nat :=
  match s.plans.plan with
  | none => none
  | some old =>
    if new.rawMap ≠ old.rawMap then some 5
    else if new.epoch ≠ old.epoch then some 6
    else if !atStart && (new.rawIfaces ≠ old.rawIfaces || new.rawModes ≠ old.rawModes) then some 7
    else if !old.regions.all (keepsLeases s new m atStart) then some 8
    else if !new.regions.all (startsLater s old m atStart) then some 9
    else if !s.regions.all (fun e => keepsPlace new e.1 e.2) then some 10
    else none

/-! ### Refusal (R282, R285) -/

/-- A message whose event is journaled under a type of its own (R322). -/
def raiseOwn (cls : BitVec 2) (src : Nat) (kind : Byte) (addr : Nat) (s : State) : State :=
  pushMsg { source := BitVec.ofNat 12 src, kind := kind, cls := cls, severity := kindSeverity kind, addr := BitVec.ofNat 36 addr,
            ownEntry := true, detail := 0 } s

/-- The type 0x24 entry (R323): `place` 0 preparation, 1 boundary, 2 start. -/
def journalRefusal (k : Bank) (place reason det : Nat) (s : State) : State :=
  journalEvent 0x080 0x24 reason
    ([BitVec.ofNat 8 (bankCode k), BitVec.ofNat 8 place, 0, 0] ++ beBytes 4 (bankWord s k 8) ++ beBytes 4 det) s

/-- A bank is refused: disarmed, with its reason, and never tried again (R282, R285). -/
def refuseBank (k : Bank) (place reason det : Nat) (s : State) : State :=
  let s1 := setBS k 7 reason det (programArm k 0 s)
  let s2 := setLast reason (if s.plans.preparing = some k || s.plans.prepared then dropPreparation s1 else s1)
  journalRefusal k place reason det s2

/-- Refused for a compatibility condition. -/
def refuseCompat (k : Bank) (place c : Nat) (s : State) : State :=
  refuseBank k place (if place = 1 then 0x12 else 0x11) c (raise 0x080 0x31 c s)

/-- Refused for an admission condition on a channel (R200). -/
def refuseAdmission (k : Bank) (place ch c : Nat) (s : State) : State :=
  refuseBank k place (if place = 1 then 0x12 else 0x10) c (raise 0x087 0x31 (ch * 1024 + c) s)

/-! ### Preparation (R282) -/

/-- The preparation of a bank: checks, compatibility at its adopt-at minute, admission; then Prepared, or a refusal. -/
def prepareBank (k : Bank) (s : State) : State :=
  match checkBank s k with
  | .error e => refuseBank k 0 e.1 e.2 (raiseOwn 1 0x080 0x30 (bankCode k + 1) (drawn s))
  | .ok p =>
    match compat s p p.adoptAt.toNat false with
    | some c => refuseCompat k 0 c s
    | none =>
      match admission p s.retired with
      | some (ch, c) => refuseAdmission k 0 ch c s
      | none => { s with plans := { s.plans with prepared := true, preparing := none, buffer := some p } }

/-- ADOPTION_PREPARED (R282): the preparation under way ends. -/
def execAdoptionPrepared (s : State) : Host.Outcome State Fault Refusal :=
  match s.plans.preparing with
  | some k => .next (prepareBank k s)
  | none => .next s

/-! ### Adoption (R283) -/

/-- The tenant record of a plan. -/
def tenantRec (p : Plan) (t : Nat) : Option TenantRec := p.tenants.find? (fun r => r.index = t)

/-- QPs of a tenant that the plan takes out of use enter error, with no NAK; the others take their tenant's class (R191,
R283). -/
def adoptQp (p : Plan) (qpn : Nat) (s : State) : State :=
  let n := BitVec.ofNat 24 qpn
  let q := getQp s n
  match tenantRec p q.tenant with
  | some r => setQp n { q with cls := r.cls } s
  | none =>
    if q.state = .established || q.state = .connecting then
      let s1 := enterError n q.ops.length s
      setQp n { getQp s1 n with outOfUse := true } s1
    else s

/-- The class tables of a new plan: E of a class whose target changes takes the new one (R198), and every level is looked up
again (R199). -/
def adoptClasses (old : Option Plan) (s : State) : State :=
  let target (p : Option Plan) (c : Nat) : Option Nat := (p.bind (fun x => x.classes[c]?)).map (fun r => r.target)
  forEach (upTo 64) (fun ch t => forEach (upTo 16) (fun c u =>
    match classRec u c with
    | some r => setLatency ch c (if target old c = some r.target then (getCls u ch c).e else r.target) u
    | none => setCls ch c { getCls u ch c with e := 0, level := 0 } u) t) s

/-- Every channel's calendar is due to change at its next slot 0 (R205). -/
def dueCalendars (s : State) : State :=
  forEach (upTo 64) (fun ch t => setParlour ch { getParlour t ch with planCal := [] } t) s

/-- The lease-state record follows a change of the revoke that the entry shows (R112). -/
def keepRecord (i : Nat) (s0 : State) : State :=
  let e := (readRec i s0).1
  let s := (readRec i s0).2
  let n := recOf (getRegion s i)
  if n.revoked = e.revoked && n.revokeMinute = e.revokeMinute && n.byFollowOn = e.byFollowOn then s
  else putRec i { n with active := e.active } s

/-- The follow-on and class of an active region's lease, as the new plan gives them. -/
def adoptRegion (i : Nat) (s : State) : State :=
  let r := getRegion s i
  if !r.active then s
  else match regionRec s i with
    | none => setRegion i { r with foEnd := 0, foId := 0 } s
    | some p =>
      match (openLeases s p).find? (fun l => l.id = r.leaseId) with
      | some l => keepRecord i (setRegion i (seatLease s.records.laterRevokes (openLeases s p) l r) s)
      | none => setRegion i { r with foEnd := 0, foId := 0 } s

/-- The entry of a region with a lease in progress or an erase under way, from its lease-state record and the rest from the plan (R112). A
revoke held against the lease or its follow-on stays held (R124); what the Round keeps of an erase or a re-key stays. -/
def reseat (i : Nat) (s0 : State) : State :=
  let e := (readRec i s0).1
  let s := (readRec i s0).2
  let g := getRegion s i
  match regionRec s i with
  | none => s
  | some p =>
    let r := { g with tenant := p.tenant, vbase := p.vbase, slab := p.slab, slabs := p.slabs, revokeMinute := 0xFFFFFFFF }
    let r1 := match p.leases.find? (fun l => l.id = e.leaseId) with
      | some l => seatLease s.records.laterRevokes p.leases l r
      | none => r
    let r2 := fromRec e r1
    let r3 := if !r1.revoked then r2 else { r2 with revoked := true, revokeId := r1.revokeId,
                                                    revokeMinute := if e.revoked then e.revokeMinute else r1.revokeMinute }
    keepRecord i (setRegion i (if g.erasePending then { r3 with active := false } else r3) s)

/-- At a warm start the entries of regions with a lease in progress or an erase under way are taken from their records (R112). -/
def recallRegion (i : Nat) (s : State) : State :=
  if (getRegion s i).active || (getRegion s i).erasePending then reseat i s else s

/-- The revokes held now hold against every later plan (R124). -/
def keepRevokes (s : State) : State :=
  let held := (s.regions.filter (fun e => e.2.inUse && e.2.revokeMinute ≠ 0xFFFFFFFF)).map (fun e => (e.2.revokeId.toNat, e.2.revokeMinute.toNat))
  { s with records := { s.records with laterRevokes := s.records.laterRevokes ++ held.filter (fun e => !s.records.laterRevokes.contains e) } }

/-- A region that the new plan starts at minute m gets its entry now. -/
def startsAt (m : Nat) (p : RegionRec) : Bool := p.leases.any (fun l => l.start.toNat = m)

/-- Steps 2 to 4 of R283. -/
def adoptPlan (k : Bank) (p : Plan) (m : Nat) (s0 : State) : State :=
  let s := keepRevokes s0
  let old := s.plans.plan
  let s1 := { s with plans := { s.plans with plan := some p, inForce := some k, prepared := false, preparing := none, buffer := none,
                                             rewritePending := true, reloadFailed := [] } }
  let s2 := forEach (s1.qps.map (fun e => e.1)) (adoptQp p) s1
  let s3 := dueCalendars (adoptClasses old s2)
  let s4 := forEach (s3.regions.map (fun e => e.1)) adoptRegion s3
  let s5 := forEach (p.regions.filter (startsAt m)) (fun r t =>
    if (getRegion t r.index).active || (getRegion t r.index).erasePending then t else loadEntry r.index t) s4
  let o := otherBank k
  let s6 := if (getBS s5 o).state = 5 then setBS o 6 0 0 s5 else s5
  journalEvent 0x081 0x23 0
    ([BitVec.ofNat 8 (bankCode k), 0, 0, 0] ++ beBytes 4 p.seq.toNat ++ beBytes 4 m ++ beBytes 4 ((old.map (fun x => x.seq.toNat)).getD 0))
    (setLast 0 (setBS k 5 0 0 s6))

/-- Step 2 of R119 at minute m (R283, R285): a pending bank whose adopt-at minute this is; prepared here when it has not been. -/
def adoptAtBoundary (m : Nat) (s : State) : State :=
  match pendingBank s with
  | none => s
  | some k =>
    if (getBS s k).adoptAt.toNat ≠ m then s
    else
      let was := s.plans.prepared
      let s1 := if was then s else prepareBank k s
      match s1.plans.buffer with
      | none => s1
      | some p =>
        match (if was then compat s1 p m false else none) with
        | some c => refuseCompat k 1 c s1
        | none =>
          match (if was then admission p s1.retired else none) with
          | some (ch, c) => refuseAdmission k 1 ch c s1
          | none => adoptPlan k p m s1

/-- The preparation of a pending bank begins at the tick of adopt-at − 1 (R282). -/
def beginPreparation (m : Nat) (s : State) : State :=
  match pendingBank s with
  | none => s
  | some k =>
    if (getBS s k).adoptAt.toNat = m + 1 && !s.plans.prepared then { s with plans := { s.plans with preparing := some k } } else s

/-- REGION_TABLE_REWRITE (R283): every entry that is neither active nor erase-pending is rewritten from the new plan; from then on an entry
never used reads as all zeros too. -/
def execRegionTableRewrite (s : State) : Host.Outcome State Fault Refusal :=
  if !s.plans.rewritePending then .next s
  else
    let ids := (planOf s).regions.foldl (fun t r => NSet.add r.index t) (s.regions.map (fun e => e.1))
    .next (forEach ids (fun i t => if (getRegion t i).active || (getRegion t i).erasePending then t else loadEntry i t)
      { s with plans := { s.plans with rewritePending := false, tableWritten := true } })

/-! ### Staging (R277 to R280, R396) -/

/-- A STAGE or ADOPT payload: operation, bank, two zero bytes. -/
def stagePrefix (f : ChainFrame) (n : Nat) (s : State) : Option Reply :=
  let op := field f.payload 0 1
  if op = 0 || n < op then some (malformed 0 s)
  else if 1 < field f.payload 1 1 then some (malformed 1 s)
  else if field f.payload 2 2 ≠ 0 then some (malformed 2 s)
  else none

/-- STAGE open (R277). -/
def stageOpenRule (f : ChainFrame) (s : State) : Reply :=
  let k := bankOf (field f.payload 1 1)
  let n := field f.payload 4 4
  match stagePrefix f 3 s with
  | some r => r
  | none =>
    if n < 72 || 0x01800000 < n then malformed 4 s
    else if s.plans.target ≠ none then refuse 0x20 s
    else if s.tank.phase = 0x08 && s.plans.inForce = some k then refuse 0x21 s
    else if s.plans.preparing = some k then refuse 0x22 s
    else
      let s1 := if (getBS s k).state = 4 then
          dropPreparation (journalEvent 0x080 0x21 0 ([BitVec.ofNat 8 (bankCode k), 0, 0, 0] ++ beBytes 4 (bankWord s k 8)) s)
        else s
      let s2 := setBS k 2 0 0 (killMagic k s1)
      done [] { s2 with plans := { s2.plans with target := some k, operation := 1, declared := n, erased := 0, written := 0, progBuf := [],
                                                 progAt := 0 } }

/-- STAGE_OPEN: COMMAND 0x03 with any operation but commit and abort. -/
def execStageOpen (p : ChainPort) (f : ChainFrame) (s : State) : Host.Outcome State Fault Refusal :=
  if field f.payload 0 1 = 2 || field f.payload 0 1 = 3 then .next s else .next (runCommand 0x03 p f (stageOpenRule f) s)

/-- SECTOR_ERASE_COMPLETE (R277): one 64 KiB sector of the open staging is erased. -/
def execSectorEraseComplete (s : State) : Host.Outcome State Fault Refusal :=
  match s.plans.target with
  | none => .next s
  | some k =>
    if s.plans.operation ≠ 1 then .next s
    else
      let e := s.plans.erased + 65536
      let s1 := flashErase (bankBase k + s.plans.erased) 65536 s
      .next { s1 with plans := { s1.plans with erased := e, operation := if s.plans.declared ≤ e then 2 else 1 } }

/-- The bank offset that an object address of the staging window names, with its bank (R276). -/
def windowBank (a : Nat) : Option (Bank × Nat) :=
  if 0x11000000 ≤ a ∧ a < 0x12800000 then some (.a, a - 0x11000000)
  else if 0x12800000 ≤ a ∧ a < 0x14000000 then some (.b, a - 0x12800000)
  else none

/-- Bytes 0x3C to 0x3F of the header are programmed as 0xFF (R278). -/
def unarmBytes (o : Nat) : List Byte → List Byte
  | [] => []
  | x :: t => (if 0x3C ≤ o ∧ o < 0x40 then 0xFF else x) :: unarmBytes (o + 1) t

/-- A WRITE to a bank of the window: status and state (R276, R278). -/
def stagingWrite (k : Bank) (o : Nat) (bs : List Byte) (s : State) : Byte × State :=
  let p := s.plans
  if p.target ≠ some k then (0x11, s)
  else if p.operation = 3 || o ≠ p.written || bs = [] || decide (1024 < bs.length) || decide (p.erased < o + bs.length) ||
      decide (p.declared < o + bs.length) || decide (65536 < p.progBuf.length + bs.length) then (0x10, s)
  else (0x00, { s with plans := { p with written := p.written + bs.length, progBuf := p.progBuf ++ unarmBytes o bs } })

/-- A WRITE frame for a bank of the staging window; one that runs past the window's end draws status 0x16 (R306). -/
def stagingBody (p : ChainPort) (f : ChainFrame) (k : Bank) (o : Nat) (s : State) : State :=
  if !coreRuns s then answer p f 0x21 [] true s
  else if !(ordinaryPhase s.tank.phase) then answer p f 0x10 [] false s
  else if 0x14000000 < f.addr.toNat + f.payload.length then answer p f 0x16 [] false s
  else
    let r := stagingWrite k o f.payload s
    if r.1 = 0x11 then answer p f 0x11 (detail (Config.statusDetail s.free).toNat) false (drawn r.2)
    else answer p f r.1 [] false r.2

/-- STAGING_WRITE (R278). -/
def execStagingWrite (p : ChainPort) (f : ChainFrame) (s : State) : Host.Outcome State Fault Refusal :=
  match windowBank f.addr.toNat with
  | some (k, o) => if f.ftype = 2 && actedOn s f then .next (runRequest p f (stagingBody p f k o) s) else .next s
  | none => .next s

/-- Programs the first n bytes of the program buffer. -/
def programPage (k : Bank) (n : Nat) (s : State) : State :=
  let p := s.plans
  flashProgram (bankBase k + p.progAt) (p.progBuf.take n)
    { s with plans := { p with progBuf := p.progBuf.drop n, progAt := p.progAt + n } }

/-- PAGE_PROGRAM_COMPLETE (R278): one 256-byte page, or the last part of one, goes from the buffer to flash. -/
def execPageProgramComplete (s : State) : Host.Outcome State Fault Refusal :=
  match s.plans.target with
  | none => .next s
  | some k =>
    let p := s.plans
    let n := 256 - p.progAt % 256
    if p.progBuf = [] || (decide (p.progBuf.length < n) && decide (p.written < p.declared)) then .next s
    else .next (programPage k n s)

/-- STAGE commit (R279). -/
def stageCommitRule (f : ChainFrame) (s : State) : Reply :=
  match stagePrefix f 3 s with
  | some r => r
  | none =>
    if field f.payload 4 4 ≠ 0 then malformed 4 s
    else if s.plans.target ≠ some (bankOf (field f.payload 1 1)) then refuse 0x23 s
    else if s.plans.written < s.plans.declared then refuse 0x24 s
    else accepted [] { s with plans := { s.plans with operation := 3 } }

/-- STAGE_COMMIT: COMMAND 0x03 with operation commit. -/
def execStageCommit (p : ChainPort) (f : ChainFrame) (s : State) : Host.Outcome State Fault Refusal :=
  if field f.payload 0 1 = 2 then .next (runCommand 0x03 p f (stageCommitRule f) s) else .next s

/-- The type 0x20 entry (R323). -/
def journalStaging (k : Bank) (op reason det : Nat) (s : State) : State :=
  journalEvent 0x080 0x20 reason
    ([BitVec.ofNat 8 (bankCode k), BitVec.ofNat 8 op, 0, 0] ++ beBytes 4 (bankWord s k 8) ++ beBytes 4 (bankWord s k 0x10) ++ beBytes 4 det) s

/-- The outcome of a commit: reason and detail, 0 for a bank that is staged (R279). -/
def commitResult (s : State) (k : Bank) : Nat × Nat :=
  match checkBank s k with
  | .error e => e
  | .ok p =>
    match admission p s.retired with
    | some (_, c) => (0x10, c)
    | none =>
      match s.plans.inForce.bind (fun _ => s.plans.plan) with
      | some q => if newerSeq p.seq q.seq then (0, 0) else (0x0D, 0)
      | none => (0, 0)

/-- STAGE_COMMIT_END (R279): what is left in the buffer is programmed, and the bank is checked. -/
def execStageCommitEnd (s : State) : Host.Outcome State Fault Refusal :=
  match s.plans.target with
  | none => .next s
  | some k =>
    if s.plans.operation ≠ 3 then .next s
    else
      let s1 := drawn (programPage k s.plans.progBuf.length s)
      let r := commitResult s1 k
      let s2 := if r.1 = 0 then setBS k 3 0 0 s1 else setBS k 0 r.1 r.2 (killMagic k s1)
      .next (journalStaging k 2 r.1 r.2 (setLast r.1 (closeStaging s2)))

/-- STAGE abort (R280). -/
def stageAbortRule (f : ChainFrame) (s : State) : Reply :=
  let k := bankOf (field f.payload 1 1)
  match stagePrefix f 3 s with
  | some r => r
  | none =>
    if field f.payload 4 4 ≠ 0 then malformed 4 s
    else if s.plans.target ≠ some k then refuse 0x23 s
    else done [] (journalStaging k 3 0 0 (setBS k 0 0 0 (killMagic k (closeStaging s))))

/-- STAGE_ABORT: COMMAND 0x03 with operation abort. -/
def execStageAbort (p : ChainPort) (f : ChainFrame) (s : State) : Host.Outcome State Fault Refusal :=
  if field f.payload 0 1 = 3 then .next (runCommand 0x03 p f (stageAbortRule f) s) else .next s

/-! ### ADOPT (R281) -/

/-- ADOPT cancel. -/
def adoptCancelRule (f : ChainFrame) (s : State) : Reply :=
  let k := bankOf (field f.payload 1 1)
  match stagePrefix f 2 s with
  | some r => r
  | none =>
    if (getBS s k).state ≠ 4 then refuse 0x27 s
    else if (getBS s k).adoptAt.toNat ≤ s.tank.roundMinute.toNat && s.tank.phase = 0x08 then refuse 0x28 s
    else
      let s1 := setBS k 7 0 0 (programArm k 0 (dropPreparation s))
      done [] { s1 with plans := { s1.plans with forced := if s1.plans.forced = some k then none else s1.plans.forced } }

/-- ADOPT_CANCEL: COMMAND 0x04 with operation cancel. -/
def execAdoptCancel (p : ChainPort) (f : ChainFrame) (s : State) : Host.Outcome State Fault Refusal :=
  if field f.payload 0 1 = 2 then .next (runCommand 0x04 p f (adoptCancelRule f) s) else .next s

/-- The conditions of ADOPT adopt in their order, and then the arming. -/
def adoptArm (k : Bank) (s : State) : Reply :=
  if s.tank.phase = 0x08 && s.plans.inForce = some k then refuse 0x21 s
  else if (getBS s k).state ≠ 3 then refuse 0x25 s
  else if s.tank.phase ≠ 0x08 then done [] (setLast 0 (setBS k 4 0 0 (programArm k 0x5A5A5A5A s)))
  else if !((s.plans.plan.map (fun q => newerSeq (getBS s k).seq q.seq)).getD true) then refuse 0x0D (setLast 0x0D s)
  else if (getBS s k).adoptAt.toNat < s.tank.minute.toNat + 2 then refuse 0x26 s
  else done [] (setLast 0 (setBS k 4 0 0 (programArm k 0x5A5A5A5A s)))

/-! ### Reloads from the bank in force (R286) -/

/-- The sections of a run with whether each body's CRC is right; framing is followed as far as it goes. -/
def scanSections : Nat → List Byte → List (Nat × List Byte × Bool)
  | 0, _ => []
  | fuel + 1, a =>
    if a.length < 16 then []
    else
      let body := (a.drop 16).take (field a 4 4)
      (field a 0 1, body, decide (field a 8 4 = (crc32c body).toNat)) :: scanSections fuel (a.drop (align8 (16 + field a 4 4)))

/-- The body CRC of the section of a type, as resolved for this unit, is right in a bank. -/
def sectionIntact (s : State) (k : Bank) (ty : Nat) : Bool :=
  let area := flashRead s (bankBase k + 0x40) (bankWord s k 0x0C)
  let l := scanSections 16 area
  let sub := match l.find? (fun x => x.1 = 2) with
    | none => []
    | some x =>
      match (List.range (field x.2.1 0 2)).find? (fun i => (indexEntry x.2.1 i).1 = s.tank.addr.toNat) with
      | none => []
      | some i => scanSections 16 ((x.2.1.drop (indexEntry x.2.1 i).2.1).take (indexEntry x.2.1 i).2.2)
  match (sub.find? (fun x => x.1 = ty)).orElse (fun _ => l.find? (fun x => x.1 = ty)) with
  | some x => x.2.2
  | none => false

/-- The section type, the entry number journaled, and the key under which a failed reload is remembered. -/
def reloadKey : ReloadItem → Nat × Nat × Nat
  | .region i => (6, i.val, i.val)
  | .classTable c => (7, c.val, classKey c.val)
  | .escalation c => (9, c.val, tableKey c.val)

/-- The level of every class on every channel is looked up again. -/
def relevel (s : State) : State :=
  forEach (upTo 64) (fun ch t => forEach (upTo 16) (fun c u =>
    setCls ch c { getCls u ch c with level := levelOf u c (getCls u ch c).e } u) t) s

/-- An entry whose section is intact is loaded again (R112, R286). -/
def reloadGood (item : ReloadItem) (s : State) : State :=
  let s1 := { s with plans := { s.plans with reloadFailed := NSet.del (waitKey (reloadKey item).2.2) s.plans.reloadFailed } }
  match item with
  | .region i => if (getRegion s i.val).active || (getRegion s i.val).erasePending then reseat i.val s1 else loadEntry i.val s1
  | .classTable _ => relevel s1
  | .escalation _ => relevel s1

/-- The outcome of a reload from a damaged section (R286). -/
def reloadBad (item : ReloadItem) (k : Bank) (s : State) : State :=
  let key := reloadKey item
  let s1 := raiseOwn 1 0x080 0x30 (bankCode k + 1) (putBS k { getBS s k with reason := 0x0A } s)
  let s2 := journalEvent 0x080 0x25 0x0A
    ([BitVec.ofNat 8 (bankCode k), BitVec.ofNat 8 key.1, 0, 0] ++ beBytes 4 key.2.1)
    { s1 with plans := { s1.plans with reloadFailed := NSet.add key.2.2 s1.plans.reloadFailed } }
  match item with
  | .region i => if (getRegion s2 i.val).active then endLease i.val s2.tank.minute.toNat 2 s2 else s2
  | .classTable _ => relevel s2
  | .escalation _ => relevel s2

/-- A reload of an entry from the bank in force (R286). -/
def reloadItem (item : ReloadItem) (s : State) : State :=
  match s.plans.inForce with
  | none => s
  | some k => if sectionIntact s k (reloadKey item).1 then reloadGood item s else reloadBad item k s

/-- SECTION_RELOAD (R286). -/
def execSectionReload (item : ReloadItem) (s : State) : Host.Outcome State Fault Refusal := .next (reloadItem item s)

end Sys2Proof.Machine
end

