-- ==== Sys2Proof/Machine/Rekey.lean ====
section
/-! DEFINITION. The re-key of a region (R148 to R153) with the draw of its keys, and the commands of the on-die generator (R132). -/

namespace Sys2Proof.Machine

/-! ### DRAW -/

/-- KEY_DRAW (R149, R151): a free slot and a key for the next key of a region; waits while none can be had. -/
def execKeyDraw (region : Fin 131072) (s : State) : Host.Outcome State Fault Refusal :=
  let i := region.val
  match rekeyOf s i with
  | none => .next s
  | some k =>
    if k.state ≠ .draw || !upkeepRuns s then .next s
    else match drawKey i .next s with
      | none => .next s
      | some (slot, t) =>
        .next (saveLease i (setRegion i { getRegion t i with nextSlot := slot, nextValid := true }
          (changeRekey i (fun x => { x with state := .move, newSlot := slot }) t)))

/-! ### MOVE (R150, R151) -/

/-- The page is being initialised, rewritten or moved: another move of it waits. -/
def pageBusy (s : State) (page : Nat) : Bool := (initOf s page).isSome || (rewriteOf s page).isSome

/-- A page still holds the current key: its Generation equals Current bit. -/
def unmoved (s : State) (i page : Nat) : Bool := pwGen (pageWord s page) = (getRegion s i).curBit

/-- The page word of a page that has moved: Generation inverted, Major 0 (R150). The page leaves the region's lists. -/
def writeMoved (i page : Nat) (fresh : Bool) (s : State) : State :=
  let s1 := writePageWord page (mkPageWord (!(getRegion s i).curBit) fresh 0) s
  let s2 := changeRekey i (fun k => { k with moved := k.moved + 1, lost := k.lost.filter (· ≠ page),
                                             exhausted := k.exhausted.filter (· ≠ page) }) s1
  setRegion i { getRegion s2 i with pagesRemaining := (getRegion s2 i).pagesRemaining - 1 } s2

/-- The move of a page ends: its lines have moved, its page word is written (R150). -/
def endMove (x : Rewrite) (s : State) : State := startDue (writeMoved x.region x.page false (dropRewrite x.page s))

/-- The move of a page begins: the Separator records it and opens a moved mask; a fresh page's word alone is written (R150). -/
def beginMove (i page : Nat) (lost : Bool) (s : State) : State :=
  if !lost && pwFresh (pageWord s page) then writeMoved i page true s
  else { s with sep := { s.sep with rewrites := s.sep.rewrites ++
    [{ page := page, region := i, major := pwMajor (pageWord s page), moved := 0, move := true, recover := false, heldReqs := [] }] } }

/-- The move of a page done whole, as a drain completes it (R52): writes that have passed their ordering points go first. -/
def finishMove (x : Rewrite) (s : State) : State :=
  if pageInEngines s x.page then s else retryWaiting (endMove x (carryPage x s))

/-- MOVE ends when the sweep has passed the last page and no page holds the current key: the old slot is retiring (R149). -/
def maybeFlush (i : Nat) (s : State) : State :=
  let r := getRegion s i
  match rekeyOf s i with
  | none => s
  | some k =>
    if k.state = .move && decide (regionPages r ≤ k.sweep) && k.lost = [] &&
        (List.range (regionPages r)).all (fun j => !unmoved s i (r.slab * 16 + j)) then
      setKey r.curSlot { getKey s r.curSlot with state := .retiring } (changeRekey i (fun x => { x with state := .flush }) s)
    else s

/-- The page that the list moves next: lost pages first, then exhausted ones that still hold the current key (R149, R152). -/
def nextListed (s : State) (k : Rekey) : Option (Nat × Bool) :=
  match k.lost with
  | p :: _ => some (p, true)
  | [] => (k.exhausted.find? (unmoved s k.region)).map (fun p => (p, false))

/-- The move of a page has moved every line and can end. -/
def moveReady (s : State) (i : Nat) (x : Rewrite) : Bool := x.move && x.region = i && pageOpen s x.page && carryReady s x

/-- PAGE_MOVE (R150, R151): the move of a page ends, once its lines have moved; or the move of the page whose turn it is on the region's
list begins. A page whose word was lost moves also during the flush. -/
def execPageMove (region : Fin 131072) (page : Nat) (s : State) : Host.Outcome State Fault Refusal :=
  let i := region.val
  if pageCount ≤ page then .fault .noSuchObject
  else match rekeyOf s i with
    | none => .next s
    | some k =>
      match rewriteOf s page with
      | some x => if moveReady s i x then .next (maybeFlush i (endMove x s)) else .next s
      | none =>
        match nextListed s k with
        | some (p, lost) =>
          if (k.state = .move || (lost && k.state = .flush)) && p = page && !pageBusy s page && pageOpen s page then
            .next (maybeFlush i (beginMove i page lost s))
          else .next s
        | none => .next s

/-- The moves of a region's pages that can end. -/
def endMoves (i : Nat) (s : State) : State := forEach (s.sep.rewrites.filter (moveReady s i)) endMove s

/-- The sweep visits its next page: one that still holds the current key begins its move, unless it is on the list of lost pages or moves
already; a page that is being initialised or rewritten keeps the sweep waiting. -/
def sweepPage (i : Nat) (k : Rekey) (s : State) : State :=
  let page := (getRegion s i).slab * 16 + k.sweep
  let s1 := changeRekey i (fun x => { x with sweep := k.sweep + 1 }) s
  if !unmoved s i page || k.lost.contains page || (rewriteOf s page).any (fun x => x.move) then s1
  else if pageBusy s page || !pageOpen s page then s
  else beginMove i page false s1

/-- REKEY_SWEEP_STEP (R149, R151): the moves that are done end, and the sweep visits the next page. -/
def execRekeySweepStep (region : Fin 131072) (s0 : State) : Host.Outcome State Fault Refusal :=
  let i := region.val
  let s := endMoves i s0
  match rekeyOf s i with
  | none => .next s
  | some k =>
    if k.state ≠ .move || !upkeepRuns s then .next s
    else if regionPages (getRegion s i) ≤ k.sweep then .next (maybeFlush i s)
    else .next (maybeFlush i (sweepPage i k s))

/-! ### FLUSH, SWAP and DONE (R149, R153) -/

/-- A request bears a key ID. -/
def bearsSlot (k : Nat) (l : List LineReq) : Bool := l.any (fun r => r.slot = k)

/-- No request checked under a key ID remains in a queue, at its ordering point, in an engine, a crypto lane or read staging (R153). -/
def slotQuiet (s : State) (k : Nat) : Bool :=
  !(bearsSlot k s.path.backlog || bearsSlot k (heldWrites s) || s.path.classQ.any (fun e => bearsSlot k e.2) || anyInEngines s (fun r => r.slot = k) ||
    s.path.inFlight.any (fun e => e.2.any (fun x => x.slot = k)) || s.path.inCrypto.any (fun e => e.2.any (fun x => x.slot = k)) ||
    s.qps.any (fun e => e.2.ops.any (fun o => o.staged.any (fun x => x.slot = k))))

/-- The next key becomes the current one, and the re-key ends (R149). -/
def swapKeys (i : Nat) (k : Rekey) (s : State) : State :=
  let r := getRegion s i
  let s1 := setKey r.nextSlot { getKey s r.nextSlot with state := .current } (freeKey r.curSlot s)
  let s2 := saveLease i (setRegion i { r with curSlot := r.nextSlot, nextSlot := 0, nextValid := false, curBit := !r.curBit,
                                              rekeying := false, pagesRemaining := 0 } s1)
  journalRekeyEnd k r.tenant 0 { s2 with sep := { s2.sep with rekeys := s2.sep.rekeys.filter (fun x => x.region ≠ i) } }

/-- KEY_RETIREMENT (R149, R152, R153): the flush ends, the slot is zeroised, the keys swap; a page that has exhausted under the next
key starts the next re-key, the page first. A lost page is moved before. -/
def execKeyRetirement (region : Fin 131072) (s : State) : Host.Outcome State Fault Refusal :=
  let i := region.val
  match rekeyOf s i with
  | none => .next s
  | some k =>
    if k.state ≠ .flush || k.lost ≠ [] || !upkeepRuns s || !slotQuiet s (getRegion s i).curSlot then .next s
    else .next (forEach k.again (fun p t => startRekey i p 0 t) (swapKeys i k s))

/-! ### The DRBG and its entropy source (R132) -/

/-- DRBG_RESEED (R132): a reseed from the entropy source. -/
def execDrbgReseed (s : State) : Host.Outcome State Fault Refusal :=
  if s.drbg.instantiated && s.drbg.entropyOk then .next (reseed s) else .next s

/-- The health tests take a sample in: one that fails either is discarded and counted, another is good. -/
def takeSample (x : Byte) (s : State) : State :=
  let d := testedSample x s.drbg
  if sampleFails x s.drbg then
    { s with drbg := { d with entropyOk := false }, stats := { s.stats with entropyDiscards := satAdd max32 s.stats.entropyDiscards 1 } }
  else { s with drbg := { d with entropyOk := true, lastGoodUs := s.tank.clockUs } }

/-- ENTROPY_SAMPLE (R132): a sample of the entropy source, and those that follow it at once, go through the health tests. -/
def execEntropySample (x : Byte) (later : List Byte) (s : State) : Host.Outcome State Fault Refusal :=
  if !porHigh s then .next s else .next ((x :: later).foldl (fun t y => takeSample y t) s)

/-- ENTROPY_FAILURE (R132): no good sample for 10 ms; kind 0x35. -/
def execEntropyFailure (s : State) : Host.Outcome State Fault Refusal :=
  if porHigh s then .next (raise 0x084 0x35 0x10000 { s with drbg := { s.drbg with entropyOk := false } }) else .next s

end Sys2Proof.Machine
end

