-- ==== Sys2Proof/Machine/CeLog.lean ====
section
/-! DEFINITION. The CE log as bytes (R217), its copy in the system rows of channel 0 (R218), and an entry restored from that
copy (R213). -/

namespace Sys2Proof.Machine

/-- The 64 bytes of a CE log entry (R217). -/
def ceBytes (e : CeEntry) : List Byte :=
  let lane (i : Nat) : Nat := (e.lanes[i]?).getD 0xFF
  beBytes 8 (e.addr.toNat * 2 ^ 28 + e.syndrome * 2 ^ 24 + e.source * 2 ^ 22 + 2 ^ 21 + bit e.repeated 20 + bit e.retired 19 +
      bit (saturated max32 e.count) 18) ++
    beBytes 8 (e.count * 2 ^ 32 + lane 0 * 2 ^ 24 + lane 1 * 2 ^ 16 + lane 2 * 2 ^ 8) ++
    beBytes 4 e.firstMinute.toNat ++ beBytes 4 e.firstUs ++ beBytes 4 e.lastMinute.toNat ++ beBytes 4 e.lastUs ++
    beBytes 4 e.lastPass ++ List.replicate 28 0

/-- An empty CE log entry as it reads (R217): no lane named. -/
def ceEmpty : List Byte := List.replicate 12 0 ++ [0xFF, 0xFF, 0xFF, 0] ++ List.replicate 48 0

/-- The bytes of slot i of the CE log. -/
def ceSlot (l : List (Option CeEntry)) (i : Nat) : List Byte :=
  match ceAt l i with
  | some e => ceBytes e
  | none => ceEmpty

/-- An entry read back from its bytes; none when they hold no valid entry. -/
def ceParse (b : List Byte) : Option CeEntry :=
  let w := field b 0 8
  if bits w 21 21 = 0 then none
  else
    let lanes := ((List.range 3).map (fun i => field b (12 + i) 1)).filter (· ≠ 0xFF)
    some { addr := BitVec.ofNat 36 (bits w 63 28), syndrome := bits w 27 24, source := bits w 23 22, repeated := w.testBit 20,
           retired := w.testBit 19, count := field b 8 4, lanes := lanes, firstMinute := BitVec.ofNat 32 (field b 16 4),
           firstUs := field b 20 4, lastMinute := BitVec.ofNat 32 (field b 24 4), lastUs := field b 28 4,
           lastPass := field b 32 4, patrolPasses := if field b 36 1 = 1 then [field b 32 4] else [] }

/-- The line of the CE log copy that holds slot i (R158, R186, R218). -/
def ceCopyLine (s : State) (i : Nat) : Nat := systemHome s 0 (0x4300 + i)

/-- The bytes of slot i in the copy: as it reads, with byte 36 set for an entry that a patrol has corrected, which its Last pass alone does
not tell (R217, R218; DESIGN CHOICE, notes/assumptions/111.md). -/
def ceCopyBytes (l : List (Option CeEntry)) (i : Nat) : List Byte :=
  (ceSlot l i).set 36 (if (ceAt l i).any (fun e => e.patrolPasses ≠ []) then 1 else 0)

/-- The CE log copy's line of slot i is written from the SRAM log (R224). -/
def rewriteCe (i : Nat) (s : State) : State := writeSystem (ceCopyLine s i) 0 (ceCopyBytes s.ctr.ce i) s

/-- The Skimmer control writes the 256 entries to the copy, while it runs (R218). -/
def copyCeLog (s : State) : State := if s.skim.running && upkeepRuns s then forEach (upTo 256) rewriteCe s else s

/-- Slot i takes an entry, or is free. -/
def setCe (i : Nat) (e : Option CeEntry) (s : State) : State := { s with ctr := { s.ctr with ce := s.ctr.ce.set i e } }

/-- Slot i is restored from the copy, whose line is decoded; an entry that the copy does not hold, or that its line has lost, is lost, and
its slot is free (R213, R218, R224). -/
def restoreCe (i : Nat) (s : State) : State :=
  let line := ceCopyLine s i
  match ceAt s.ctr.ce i with
  | none => s
  | some _ =>
    let d := readSystem line 0 s
    match d.1 with
    | some bs => setCe i (ceParse bs) d.2
    | none => rewriteCe i (setCe i none d.2)

end Sys2Proof.Machine
end

