-- ==== Sys2Proof/Machine/Upkeep.lean ====
section
/-! DEFINITION. The upkeep of the stored data: lane spares and channel retirement (R183 to R187), the Skimmer's walk and
visits (R219 to R224), page retirement (R227 to R233). -/

namespace Sys2Proof.Machine

/-! ### Lane spares (R183 to R185) -/

/-- The spares 0 to 3 that are neither in use nor bad. -/
def freeSpare (c : Chan) : Option Nat :=
  (upTo 4).find? (fun i => !c.spares.any (fun e => e.2 = i) && !c.badSpares.contains i)

/-- A lane fails: the lowest free spare takes its place (kind 0x09); with no spare left, a second unreplaced lane retires the
channel. A lane that a spare already carries takes that spare out of use. -/
def failLane (ch l : Nat) (s : State) : State :=
  let c0 := getChan s ch
  let c := match c0.spares.find? (fun e => e.1 = l) with
    | some e => { c0 with spares := c0.spares.filter (fun x => x ≠ e), badSpares := NSet.add e.2 c0.badSpares }
    | none => c0
  if (erasedLanes c0).contains l then s
  else
    let c1 := { c with failedLanes := NSet.add l c.failedLanes }
    match freeSpare c1 with
    | some i => raise ch 0x09 (engineAddr ch l) (setChan ch { c1 with spares := c1.spares ++ [(l, i)] } s)
    | none =>
      let s1 := setChan ch c1 s
      if 2 ≤ (erasedLanes c1).length then startRetirement ch s1 else s1

/-- LANE_ERROR_WINDOW (R183): a window of 4,096 bursts closes; each lane counted 64 times in it is failed. -/
def execLaneErrorWindow (ch : Fin 64) (s : State) : Host.Outcome State Fault Refusal :=
  let c := getChan s ch.val
  let bad := (c.laneErrors.filter (fun e => decide (64 ≤ e.2))).map (fun e => e.1)
  if isRetired s ch.val || (decide (c.windowBursts < 4096) && bad = []) then .next s
  else .next (forEach bad (failLane ch.val) (setChan ch.val { c with windowBursts := 0, laneErrors := [] } s))

/-! ### System lines written again from what the device holds (R224) -/

/-- The page remap table line from the channel engine's directory (R224, R231). -/
def remapWord (e : Remap) : Nat :=
  bit e.valid 63 + bit e.committed 62 + bit e.bad 61 + e.page % 2 ^ 24 * 2 ^ 32 + e.unit % 2 ^ 18

/-- Writes the system line that holds entry i of a channel's remap table (R229). -/
def writeRemapLine (ch i : Nat) (s : State) : State :=
  writeSystem (systemHome s ch (0x4200 + i / 8)) 0
    (((upTo 8).map (fun j => beBytes 8 (remapWord (getRemap s ch (i / 8 * 8 + j))))).flatten) s

/-- A lost line of lease-state records is built again from the region entries, which are then reloaded from the plan (R224). -/
def rebuildLeases (ch sl : Nat) (s : State) : State :=
  let i0 := (sl - 0x4000) * 256 + ch
  forEach ((recordGroup i0).filter (fun i => (getRegion s i).inUse)) (fun i t => reloadItem (.region (Fin.ofNat 131072 i)) t) (rebuildRecs i0 s)

/-- A line of the areas that a relief serves is lost: page words, lease-state records, remap table, CE log copy (R186, R224). -/
def loseServed (ch sl : Nat) (s : State) : State :=
  if sl < 0x3720 then losePageWords ch sl s
  else if sl < 0x4200 then rebuildLeases ch sl s
  else if sl < 0x4300 then writeRemapLine ch ((sl - 0x4200) * 8) s
  else rewriteCe (sl - 0x4300) s

/-! ### Relief (R186, R187) -/

/-- The relief channel of a channel: from c + 32 upward, the first not retired whose relief area is empty; one whose own
retirement is under way is passed over (DESIGN CHOICE, notes/assumptions/105.md). -/
def reliefChannel (s : State) (ch : Nat) : Option Nat :=
  ((upTo 64).map (fun i => (ch + 32 + i) % 64)).find? (fun r =>
    r ≠ ch && !isRetired s r && !s.retiring.contains r && !s.relief.any (fun e => e.2 = r))

/-- No request of a channel is still under way in its engine. -/
def engineIdle (s : State) (ch : Nat) : Bool :=
  engineReqs s ch = [] && arrivedVisits s ch = []

/-- The system lines that a relief copy carries: 14,880, and 256 more on channel 0 (R186). -/
def reliefLines (ch : Nat) : List Nat := (List.range 0x4400).filter (reliefServes ch)

/-- A line that a relief copy may find changed: it holds data, or errors stand in it. -/
def touchedLines (s : State) (ch : Nat) : List Nat :=
  let own (l : Nat) : Bool := lineChannel l = ch && isSystemLine l && reliefServes ch (systemIndex l)
  ((s.dram.data.map (fun (e : Nat × Byte) => e.1 / 64) ++ s.dram.upsets.map (fun (e : Nat × Byte) => e.1 / 72)).filter own).dedup

/-- One line of the relief copy: decoded, and written at the same offset of the relief area; whether it failed. -/
def copyReliefLine (ch r line : Nat) (acc : List Nat × State) : List Nat × State :=
  let s := acc.2
  let sl := systemIndex line
  let d := decodeLine s line []
  match d.1 with
  | .clean bs => (acc.1, writeLine (systemLine r (0x38000 + sl)) bs d.2)
  | .corrected bs lanes nb er =>
    (acc.1, writeLine (systemLine r (0x38000 + sl)) bs (noteCorrection ch (physAddr line) 3 false lanes nb er d.2))
  | _ => (acc.1 ++ [sl], raise ch 0x04 (physAddr line) (chanCount ch 3 1 d.2))

/-- Units of a retirement that lie on a channel just retired are skipped (R227). -/
def skipUnits (ch : Nat) (r : Retirement) : Retirement :=
  { r with units := r.units.filter (fun u => u.1 ≠ ch), skipped := r.skipped + (r.units.filter (fun u => u.1 = ch)).length }

/-- The type 0x50 entry of a retirement whose units have all committed (R323). -/
def journalRetired (r : Retirement) (s : State) : State :=
  journalEvent 0x082 0x50 0
    (beBytes 4 r.page ++ beBytes 1 r.placed ++ beBytes 1 r.skipped ++ [0, 0] ++ beBytes 8 r.mask.toNat) s

/-- Retirements with no unit left to copy are journaled and end. -/
def endRetirements (s : State) : State :=
  let done := s.retirements.filter (fun r => r.units = [])
  forEach done journalRetired { s with retirements := s.retirements.filter (fun r => r.units ≠ []) }

/-- Measured latency, level, outstanding and queued of each class on a channel as they stand (R206). -/
def frozenClasses (s : State) (ch : Nat) : List (Nat × Nat × Nat × Nat) :=
  (upTo 16).map (fun c => let v := getCls s ch c; (v.e, v.level, v.outstanding, (classQ s ch c).length))

/-- A channel is recorded as retired with its relief channel, and what stood on it is left (R187): no Skimmer visit, no BIST, no
calendar, journal sequences that pass over it. -/
def leaveChannel (ch : Nat) (r : Option Nat) (s : State) : State :=
  let c := getChan s ch
  let s1 := setParlour ch { getParlour s ch with frozen := frozenClasses s ch, declared := (planOf s).band } (setChan ch { c with visits := [], early := [] } s)
  let y := Map.get BistCh.zero ch s.bist.chans
  renumberJournal (endRetirements
    { s1 with
      retired := s.retired ||| (1#64 <<< ch), retiring := NSet.del ch s.retiring,
      relief := s.relief ++ (r.map (fun x => (ch, x))).toList,
      bist := { s.bist with chans := Map.set BistCh.zero ch { y with marker := none } s.bist.chans },
      retirements := s.retirements.map (skipUnits ch) })

/-- The relief copy and its record (R186 steps 3 to 5): type 0x54. Lines that fail to decode are handled once the relief channel
serves them. -/
def reliefCopy (ch r : Nat) (s : State) : State :=
  let n := (reliefLines ch).length
  let c := (touchedLines s ch).foldl (fun acc l => copyReliefLine ch r l acc) ([], systemBursts r n (systemBursts ch n s))
  let s1 := forEach c.1 (loseServed ch) (leaveChannel ch (some r) c.2)
  journalEvent ch 0x54 0 ([BitVec.ofNat 8 ch, BitVec.ofNat 8 r, 0, 0] ++ beBytes 4 n ++ beBytes 4 c.1.length) s1

/-- RELIEF_COPY_COMPLETE (R186, R187): once the channel's own requests are done, its system data stand on the relief channel
and it is recorded as retired. -/
def execReliefCopyComplete (ch : Fin 64) (s : State) : Host.Outcome State Fault Refusal :=
  if !s.retiring.contains ch.val || !engineIdle s ch.val || !upkeepRuns s then .next s
  else match reliefChannel s ch.val with
    | some r => .next (reliefCopy ch.val r s)
    | none => .next s

/-! ### The Skimmer's walk (R220, R221) -/

/-- Steps of a pass that visit tenant lines: data and metadata lines (R220). -/
def tenantSteps : Nat := 1056964608

/-- The visit of the next step, with its channel; none where the step visits nothing, as on a row under test (R367). -/
def stepVisit (s : State) : Nat × Option Visit :=
  let k := s.skim
  if tenantSteps ≤ k.position then
    let n := k.position - tenantSteps
    let ch := n / 262144 % 64
    let sl := n % 262144
    let spare := decide (0x14000 ≤ sl) && decide (sl < 0x34000) && (getRemap s ch ((sl - 0x14000) / 64)).committed
    (ch, if isRetired s ch || spare || markedRow s (systemLine ch sl) then none else some { line := systemLine ch sl, dma := none, since := 0 })
  else
    let dma := 64 * (if k.metaDue then k.dmaLine - 1 else k.dmaLine)
    let h := homeOf s dma
    (h.1, if isRetired s h.1 || markedRow s (if k.metaDue then tenantMeta h.1 h.2 else dataHome s h.1 h.2) then none
          else if k.metaDue then some { line := tenantMeta h.1 h.2, dma := none, since := 0 }
          else some { line := dataHome s h.1 h.2, dma := some dma, since := 0 })

/-- The walk moves on by one step; after the last, the next pass begins (R220). -/
def advanceSkim (s : State) : Skim :=
  let k := s.skim
  if k.position + 1 = 2 ^ 30 then
    { k with position := 0, dmaLine := 0, metaDue := false, passCount := satAdd max32 k.passCount 1, lastPassEnd := (stamp s).1,
             passStart := (stamp s).1 }
  else if tenantSteps ≤ k.position then { k with position := k.position + 1 }
  else if k.metaDue then { k with position := k.position + 1, metaDue := false }
  else
    { k with position := k.position + 1, dmaLine := k.dmaLine + 1, metaDue := decide ((homeOf s (64 * k.dmaLine)).2 % 14 % 7 = 6) }

/-- Issues up to `n` overdue steps, while the next one's channel holds fewer than 16 visits (R221). -/
def issueSteps : Nat → State → State
  | 0, s => { s with skim := { s.skim with behind := 0 } }
  | n + 1, s =>
    let v := stepVisit s
    let c := getChan s v.1
    if v.2.isSome && decide (16 ≤ c.visits.length) then { s with skim := { s.skim with behind := min max16 (n + 1) } }
    else
      let s1 := match v.2 with
        | some x => setChan v.1 { c with visits := c.visits ++ [{ x with since := cycleOf s v.1 }] } s
        | none => s
      issueSteps n { s1 with skim := advanceSkim s }

/-- SKIMMER_STEP (R220, R221): a step falls due, and with it the overdue ones. -/
def execSkimmerStep (s : State) : Host.Outcome State Fault Refusal :=
  if s.skim.running && upkeepRuns s then .next (issueSteps (s.skim.behind + 1) s) else .next s

/-! ### Visits (R222 to R224) -/

/-- The journal slot that a system line of a channel holds shows its latest sequence; its line becomes an invalid entry
(R224, R324). -/
def loseJournalLine (ch sl : Nat) (s : State) : State :=
  let slot := (sl - 0xC000) * 64 + ch
  let w := s.journal.written.toNat
  if slot < w then invalidateSlot (slot + (w - 1 - slot) / 1048576 * 1048576) s
  else writeLine (systemLine ch sl) [] s

/-- The slot of minute-record sequence q: channel and system line (R127, R159). -/
def recordSlot (q : Nat) : Nat × Nat := (q % 524288 % 64, 0x8000 + q % 524288 / 64)

/-- A minute record that is lost is rewritten as invalid: its sequence kept, all else zero (R127, R224). -/
def loseRecordLine (ch sl : Nat) (s : State) : State :=
  let old := lineData s (systemLine ch sl)
  writeLine (systemLine ch sl) (old.take 4) s

/-- A line of the journal ring or the minute-record ring that is lost becomes an invalid entry (R127, R224, R324). -/
def loseRing (line : Nat) (s : State) : State :=
  if systemIndex line < 0xA000 then loseRecordLine (lineChannel line) (systemIndex line) s
  else loseJournalLine (lineChannel line) (systemIndex line) s

/-- What the entry of a lost system line names: the sequence of a journal line, the minute of a minute-record line (R323). -/
def lostDetail (s : State) (ch line : Nat) : Nat :=
  let sl := systemIndex line
  if 0x8000 ≤ sl ∧ sl < 0xA000 then field (lineData s line) 4 4
  else if 0xC000 ≤ sl ∧ sl < 0x10000 then
    let slot := (sl - 0xC000) * 64 + ch
    slot + (s.journal.written.toNat - 1 - slot) / 1048576 * 1048576
  else 0

/-- The system line of a retired channel that a line of a relief area serves (R186). -/
def servedLine (s : State) (ch sl : Nat) : Option (Nat × Nat) :=
  if sl < 0x38000 then none
  else ((s.relief.find? (fun e => e.2 = ch)).map (fun e => (e.1, sl - 0x38000))).filter (fun e => reliefServes e.1 e.2)

/-- An uncorrectable system line found by a visit (R224). -/
def loseSystem (ch line : Nat) (s0 : State) : State :=
  let sl := systemIndex line
  let s := raiseDetail (lostDetail s0 ch line) ch 0x04 (physAddr line) (chanCount ch 3 1 s0)
  if reliefServes ch sl then loseServed ch sl s
  else if 0x8000 ≤ sl ∧ sl < 0xA000 then loseRecordLine ch sl s
  else if 0xC000 ≤ sl ∧ sl < 0x10000 then loseJournalLine ch sl s
  else if 0x10000 ≤ sl ∧ sl < 0x14000 then poisonLine line s
  else match servedLine s ch sl with
    | some e => loseServed e.1 e.2 s
    | none => writeLine line [] s

/-- A visited line is a metadata line of a tenant row, or of the spare pool. -/
def isMetaLine (line : Nat) : Bool :=
  if isSystemLine line then decide (0x34000 ≤ systemIndex line) && decide (systemIndex line < 0x38000) else decide (14 ≤ linePos line)

/-- A spare page's metadata line with no committed unit is free. -/
def metaInUse (s : State) (ch line : Nat) : Bool :=
  !isSystemLine line || (getRemap s ch ((systemIndex line - 0x34000) / 8)).committed

/-- A visit counts for its layer; a retention correction is remembered by the number of its visit: class 0x1, on a lane neither failed
nor replaced (R238). -/
def countVisit (ch : Nat) (d : Decoded) (s : State) : State :=
  let y := getLayer s (ch / 4)
  let c := getChan s ch
  let retention : Bool := match d with
    | .corrected _ lanes nb er =>
      syndromeClass lanes nb er = 1 && !lanes.any (fun l => c.failedLanes.contains l || c.spares.any (fun e => e.1 = l))
    | _ => false
  setLayer (ch / 4) { y with visits := y.visits + 1, retAt := if retention then (y.visits + 1) :: y.retAt else y.retAt } s

/-- What a visit does with a line (R222): nothing, the corrected symbols back, or the outcome of R223 and R224. -/
def visitLine (ch line : Nat) (dma : Option Nat) (path : Errors) (s0 : State) : State :=
  let d := decodeLine s0 line path
  let s := countVisit ch d.1 d.2
  match d.1 with
  | .clean _ => s
  | .poisoned => s
  | .corrected bs lanes nb er =>
    noteCorrection ch (dma.getD (physAddr line)) 1 dma.isSome lanes nb er (systemBursts ch 1 (writeLine line bs s))
  | .uncorrectable =>
    let s1 := systemBursts ch 1 s
    match dma with
    | some a => raise ch 0x04 a (chanCount ch 3 1 (poisonFound ch (homeOf s a).2 a s1))
    | none => if isMetaLine line && metaInUse s ch line then loseMeta ch line 4 s1 else loseSystem ch line s1

/-- SKIMMER_VISIT (R222 to R224): the oldest visit whose burst has arrived is decoded and ends; its lock is released. An engine whose messages
find their buffer full decodes none (R335). `upsets` have come to
stand in the line's cells, `path` are the errors of this burst alone. -/
def execSkimmerVisit (ch : Fin 64) (upsets path : Errors) (s : State) : Host.Outcome State Fault Refusal :=
  match if stalls s ch.val then [] else arrivedVisits s ch.val with
  | [] => .next s
  | r :: rest =>
    let line := reqLine s ch.val r
    let s1 := addUpsets line upsets (unlockVisit r (setArrivedVisits ch.val rest s))
    .next (visitLine ch.val line (r.target.bind (fun v => v.dma)) path s1)

/-! ### Page retirement (R227 to R232) -/

/-- The units that hold a line of page P: channel and unit, each once, in the order of the page's lines (R228). -/
def pageUnits (s : State) (page : Nat) : List (Nat × Nat) :=
  (((upTo 64).map (fun i => homeOf s (page * 4096 + 64 * i))).map (fun h => (h.1, h.2 / 64))).dedup

/-- The lowest spare page of a channel with neither Valid nor Bad set, of those not in `taken` (R229). -/
def lowestSpare (s : State) (ch : Nat) (taken : List (Nat × Nat)) : Option Nat :=
  (upTo 2048).find? (fun i => !(getRemap s ch i).valid && !(getRemap s ch i).bad && !taken.contains (ch, i))

/-- Each unit with a spare page; none when a channel has no free one (R227). -/
def assignSpares (s : State) : List (Nat × Nat) → List (Nat × Nat × Nat) → Option (List (Nat × Nat × Nat))
  | [], acc => some acc
  | (ch, u) :: t, acc =>
    match lowestSpare s ch (acc.map (fun x => (x.1, x.2.2))) with
    | some i => assignSpares s t (acc ++ [(ch, u, i)])
    | none => none

/-- Writes a remap entry, in the directory and in the system row. -/
def setRemap (ch i : Nat) (e : Remap) (s : State) : State :=
  writeRemapLine ch i { s with remap := Map.set Remap.zero (ch * 2048 + i) e s.remap }

/-- The conditions of R227 in their order, and otherwise the units accepted and skipped. -/
def retirePageRule (page : Nat) (s : State) : Sum Nat (List (Nat × Nat × Nat) × Nat) :=
  if pageCount ≤ page then .inl 1
  else
    let units := (pageUnits s page).filter (fun u => !isRetired s u.1)
    match assignSpares s units [] with
    | none => .inl 2
    | some l =>
      if s.retirements.any (fun r => r.all.any (fun x => units.contains x)) then .inl 3
      else if 16 ≤ s.retirements.length then .inl 4
      else .inr (l, (pageUnits s page).length - units.length)

/-- A retirement starts: each unit's entry is written with Valid 1 and Committed 0 (R230). -/
def startPage (page : Nat) (units : List (Nat × Nat × Nat)) (skipped : Nat) (s : State) : State :=
  let s1 := forEach units (fun x t => setRemap x.1 x.2.2 { Remap.zero with valid := true, page := page, unit := x.2.1 } t) s
  { s1 with retirements := s1.retirements ++ [{ page := page, all := units.map (fun x => (x.1, x.2.1)), units := units, placed := 0, skipped := skipped, mask := 0 }] }

/-- CE log entries of lines inside a unit get Retired set (chapter 10, worked example). -/
def retireCe (ch u : Nat) (s : State) : State :=
  { s with ctr := { s.ctr with ce := s.ctr.ce.map (fun x => x.map (fun e =>
      if decide (e.addr.toNat / 4096 < pageCount) && decide ((homeOf s e.addr.toNat).1 = ch) &&
          decide ((homeOf s e.addr.toNat).2 / 64 = u) then { e with retired := true } else e)) } }

/-- The commit of a unit's entry; a spare page that held the unit before becomes Bad (R230, R232). -/
def commitUnit (ch u i page : Nat) (s : State) : State :=
  let old := committedSpare s ch u
  let s1 := match old with
    | some o => setRemap ch o { Remap.zero with bad := true, page := (getRemap s ch o).page, unit := u } s
    | none => s
  retireCe ch u (setRemap ch i { valid := true, committed := true, bad := false, page := page, unit := u, copied := 0 } s1)

/-- The copy of a unit ends: its entry is committed; the retirement is journaled with its last unit. -/
def endCopy (ch u i : Nat) (r : Retirement) (s : State) : State :=
  let r1 := { r with units := r.units.filter (· ≠ (ch, u, i)), placed := r.placed + 1, mask := r.mask ||| (1#64 <<< ch) }
  let s1 := commitUnit ch u i r.page s
  endRetirements { s1 with retirements := s1.retirements.map (fun y => if y.page = r.page then r1 else y) }

/-- UNIT_COPY (R230 to R232): a unit under retirement whose 64 lines have been copied is committed. -/
def execUnitCopy (ch : Fin 64) (u : Nat) (s : State) : Host.Outcome State Fault Refusal :=
  if unitCount ≤ u then .fault .noSuchObject
  else match s.retirements.findSome? (fun r => (r.units.find? (fun x => x.1 = ch.val && x.2.1 = u)).map (fun x => (r, x.2.2))) with
    | none => .next s
    | some (r, i) => if ownOpen s ch.val && decide (64 ≤ (getRemap s ch.val i).copied) then .next (endCopy ch.val u i r s) else .next s

end Sys2Proof.Machine
end

