-- ==== Sys2Proof/Machine/Drain.lean ====
section
/-! DEFINITION. Stopping the data path: the drain of a warm reset or a stop (R51 to R54), and the entry of safe state (R340,
R342). -/

namespace Sys2Proof.Machine

/-! ### Ports and reads -/

/-- Changes every entry of a table. -/
def mapTable {β : Type} [DecidableEq β] (d : β) (f : β → β) (t : Table β) : Table β :=
  t.foldl (fun u (e : Nat × β) => Map.set d e.1 (f e.2) u) []

/-- A data port in electrical idle: its link is down and nothing is queued on it. -/
def idlePort (r : Port) : Port :=
  { r with up := false, heldOut := false, draining := false, paused := 0, pausing := 0, discarding := 0, queue := [], use := [],
           trained := false, training := false, fec13 := none }

/-- Parsing stops, transmitters go to electrical idle, and an attempt at recalibration is abandoned (R53, R340). -/
def idlePorts (s : State) : State := abandonRecal (upTo 16) { s with ports := mapTable Port.zero idlePort s.ports }

/-- The writes of a list of requests. -/
def writesOf (l : List LineReq) : List LineReq := l.filter (fun r => keptByDrain r.kind)

/-- The Skimmer visits under way on a channel. -/
def visitsOn (s : State) (ch : Nat) : List LineReq := (engineReqs s ch).filter (fun r => r.kind = .visit) ++ arrivedVisits s ch

/-- A channel drops its reads and visits, wherever they stand in its engine (R52). -/
def dropReads (ch : Nat) (s : State) : State :=
  let c := getChan s ch
  let s1 := setChan ch { c with second := c.second.filter (fun x => keptByDrain x.entry.req.kind) } s
  setArrivedVisits ch [] (forEach (visitsOn s ch) unlockVisit s1)

/-- What waits in packet buffers is discarded, and every read is dropped (R52). -/
def stopTraffic (s0 : State) : State :=
  let s := forEach (upTo 64) dropReads s0
  let p := s.path
  let p1 : Path :=
    { p with backlog := [], classQ := mapTable [] writesOf p.classQ,
             bankQ := mapTable [] (fun l => l.filter (fun e => keptByDrain e.req.kind)) p.bankQ,
             inFlight := mapTable [] (fun l => l.filter (fun e => keptByDrain e.req.kind)) p.inFlight,
             inCrypto := mapTable [] (fun l => l.filter (fun e => keptByDrain e.req.kind)) p.inCrypto }
  idlePorts { s with path := p1, slow := { s.slow with reserve := [] } }

/-! ### Channels in self-refresh -/

/-- A channel's banks are precharged and its DRAM enters self-refresh, at the band in force or a faster one (R176). -/
def enterSelfRefresh (ch : Nat) (s : State) : State :=
  let s1 := forEach (upTo 32) (fun b t => setBank ch b { getBank t ch b with openRow := none, reserved := false } t) s
  let s2 := setChan ch { getChan s1 ch with selfRefresh := true, second := none, colBusy := 0 } s1
  { s2 with thermal := { s2.thermal with refreshFloor := Map.modify 0 (ch / 4) (max (getLayer s (ch / 4)).band) s2.thermal.refreshFloor } }

/-- A channel takes no part in a drain: its layer is not initialised, or its DRAM is in self-refresh. -/
def asleep (s : State) (ch : Nat) : Bool := !(getChan s ch).initialised || (getChan s ch).selfRefresh

/-- The channels that a drain finds with nothing to do. -/
def sleepMask (s : State) : BitVec 64 := (upTo 64).foldl (fun m ch => if asleep s ch then m ||| (1#64 <<< ch) else m) 0

/-! ### Drains -/

/-- The drain of a warm reset (R51, R53): the phase, Last reset and Warm count, the stop of traffic. Last reset: 1 WRST_N, 2 the
command. -/
def warmDrain (cause : DrainCause) (s : State) : State :=
  let s1 := stopTraffic s
  let t := s1.tank
  { s1 with tank := { t with
      phase := 0x10, lastReset := if cause = .wrst then 1 else 2, warmCount := BitVec.ofNat 8 (satAdd 255 t.warmCount.toNat 1),
      drain := some { cause := cause, acked := sleepMask s1, timedOut := false, stopAfter := false, wrstAfter := false },
      drainAt := stamp s, warmPending := false } }

/-- The drain of a stop ends; a fall of WRST_N during it takes effect (R340). -/
def endStopDrain (s : State) : State :=
  match s.tank.drain with
  | none => s
  | some d =>
    let s1 := { s with tank := { s.tank with drain := none } }
    if d.wrstAfter then warmDrain .wrst s1 else s1

/-- The stop order of R340: traffic stops, and the channels drain. A WARM_RESET already accepted keeps its drain to come (DESIGN CHOICE,
notes/assumptions/87.md). -/
def stopDrain (s : State) : State :=
  let s1 := stopTraffic s
  let m := sleepMask s1
  let d : Drain := { cause := .stop, acked := m, timedOut := false, stopAfter := false, wrstAfter := false }
  let s2 := { s1 with tank := { s1.tank with drain := some d } }
  if m = BitVec.allOnes 64 then endStopDrain s2 else s2

/-- The drain in progress has every acknowledgement, or its 2.0 µs have passed. -/
def drainOver (d : Drain) : Bool := d.timedOut || d.acked = BitVec.allOnes 64

/-! ### Completing a channel's writes (R52) -/

/-- The write halves that wait. -/
def finishHalves (ch : Nat) (s : State) : State :=
  forEach (halves s ch) (fun h t => finishHalf ch h.req h.plain t) (setHalves ch [] s)

/-- A read half in the crypto lane ends its check, and is written. -/
def finishChecked (ch : Nat) (e : CryptoEntry) (s : State) : State :=
  if tagOk s e then finishHalf ch e.req (plainOf s e) (verifiedHalf e.req (plainOf s e) s)
  else if e.req.kind = .carry then dropReq ch e.req (tagFailure ch (homeOf s e.req.dma).2 e.req.dma s)
  else dropReq ch e.req (countRefusal e.req (tagFailure ch (homeOf s e.req.dma).2 e.req.dma s))

/-- The read halves in the crypto lane. -/
def finishCrypto (ch : Nat) (s : State) : State := forEach (inCrypto s ch) (finishChecked ch) (setInCrypto ch [] s)

/-- The line of a page under rewrite or move, carried whole. -/
def carryWhole (ch : Nat) (r : LineReq) (s : State) : State :=
  match rewriteOf s (r.dma / 4096) with
  | none => s
  | some x =>
    if lineMoved s x r.dma then s
    else countWork ch r (served ch r.cls (markMoved x.page (r.dma / 64 % 64) (carryLine r.dma (oldKey s x) (newKey s x) s)))

/-- A request that has passed its ordering point, completed whole: a client's write, or the device's own work (R52). -/
def finishPassed (ch : Nat) (r : LineReq) (s : State) : State :=
  match r.kind with
  | .carry => carryWhole ch r (unlockVisit r s)
  | .zero => countWork ch r (served ch r.cls (initLine r.dma s))
  | .erase => countWork ch r (served ch r.cls (unlockVisit r (eraseWords r.region (reqLine s ch r) s)))
  | .copy => systemBursts ch 2 (copyLine ch r [] [] s)
  | _ => applyWhole ch r true s

/-- The requests that have passed their ordering points and wait in the engine. -/
def finishEngine (ch : Nat) (s : State) : State :=
  let c := getChan s ch
  let next := (c.second.map (fun x => x.entry.req)).toList
  let fly := (inFlight s ch).map (fun b => b.req)
  let queued := ((upTo 32).map (fun b => (bankQ s ch b).map (fun e => e.req))).flatten
  let s1 := forEach (upTo 32) (fun b t => setBankQ ch b [] t) (setInFlight ch [] (setChan ch { c with second := none } s))
  forEach (next ++ fly ++ queued) (finishPassed ch) s1

/-- The preparation of a page that writes wait for: its initialisation, its rewrite, or the move of an exhausted page. -/
def finishPage (page : Nat) (s : State) : State :=
  if pageAsleep s page then s
  else if (initOf s page).isSome then finishInit page s
  else match rewriteOf s page with
    | some x => if x.move then maybeFlush x.region (finishMove x s) else finishRewrite page s
    | none =>
      match (leasedAt s (page * 4096)).bind (fun e => (rekeyOf s e.1).map (fun k => (e.1, k))) with
      | some (i, k) =>
        if s.sep.waiting.any (fun r => r.dma / 4096 = page) && k.state = .move && (k.lost.contains page || unmoved s i page) then
          let t := beginMove i page (k.lost.contains page) s
          maybeFlush i (match rewriteOf t page with
            | some x => finishMove x t
            | none => retryWaiting t)
        else retryWaiting s
      | none => retryWaiting s

/-- The pages with a line on a channel that writes wait for. -/
def heldPages (s : State) (ch : Nat) : List Nat :=
  (((heldWrites s).map (fun r => r.dma / 4096)).dedup).filter (fun p => (pageChannels s p).contains ch)

/-- Completes what writes of a channel wait for; a rewrite may end in the need of a move. -/
def finishPages (ch : Nat) (s : State) : State := forEach (heldPages s ch) (fun p t => finishPage p (finishPage p t)) s

/-- The Separator's oldest work is completed, to make room. -/
def makeRoom (s : State) : State :=
  match s.sep.inits, s.sep.rewrites with
  | x :: _, _ => finishPage x.page s
  | [], x :: _ => finishPage x.page s
  | [], [] => s

/-- A write that waits in its class queue passes its ordering point without regard to caps or calendars, and is completed with
the page preparation it waits for; it stays where no room can be made. -/
def drainWrite (ch : Nat) (r : LineReq) (s : State) : State :=
  let page := r.dma / 4096
  let stay (t : State) : State := setClassQ ch r.cls (classQ t ch r.cls ++ [r]) t
  let pass (t : State) : Option State :=
    match gateWrite ch r t with
    | .go u => some (applyWhole ch r false u)
    | .parked u => some (finishPage page (finishPage page u))
    | .blocked => none
  if isRetired s ch then failOp r (writeSettled r s)
  else if isLocked s r.dma || heldBefore s r || (classQ s ch r.cls).any (fun x => x.dma / 64 = r.dma / 64) then stay s
  else
    let w := readPageWord r [] [] s
    if w.1 then stay w.2
    else match pass w.2 with
      | some t => t
      | none => (pass (makeRoom (finishPage page w.2))).getD (stay w.2)

/-- The writes in a channel's class queues, in the order they entered. -/
def queuedWrites (s : State) (ch : Nat) : List LineReq :=
  (((upTo 16).map (fun c => writesOf (classQ s ch c))).flatten).insertionSort (fun a b => a.enq ≤ b.enq)

/-- Completes the writes in the class queues. -/
def finishQueues (ch : Nat) (s : State) : State :=
  forEach (queuedWrites s ch) (drainWrite ch) (forEach (upTo 16) (fun c t => setClassQ ch c [] t) s)

/-- All of a channel's writes are completed (R52). -/
def finishChannel (ch : Nat) (s : State) : State :=
  finishQueues ch (finishPages ch (finishEngine ch (finishCrypto ch (finishHalves ch s))))

/-- Writes, wherever they wait, for whose pages work has still to be done before they can pass. -/
def unprepared (s : State) : List LineReq :=
  heldWrites s ++ ((s.path.classQ.map (fun e => e.2)).flatten).filter (fun r =>
    match gateWrite (homeOf s r.dma).1 r s with
    | .go _ => false
    | _ => true)

/-- Addresses of a channel stand on its pending-write list, or writes of other channels wait for work on its lines (R53). -/
def writesLeft (s : State) (ch : Nat) : Bool :=
  s.tank.pendingWrites.any (fun e => e.1 = ch) || (unprepared s).any (fun r => (pageChannels s (r.dma / 4096)).contains ch)

/-- A channel acknowledges self-refresh; the last acknowledgement ends the drain of a stop. -/
def acknowledge (ch : Nat) (d : Drain) (s : State) : State :=
  let d1 : Drain := { d with acked := d.acked ||| (1#64 <<< ch) }
  let s1 := enterSelfRefresh ch { s with tank := { s.tank with drain := some d1 } }
  if d1.cause = .stop && drainOver d1 then endStopDrain s1 else s1

/-- CHANNEL_SELF_REFRESH_ACK (R52, R53): a channel completes its writes and enters self-refresh. One that cannot complete them
does not acknowledge. -/
def execChannelSelfRefreshAck (ch : Fin 64) (s : State) : Host.Outcome State Fault Refusal :=
  match s.tank.drain with
  | none => .next s
  | some d =>
    if d.timedOut || d.acked.getLsbD ch.val then .next s
    else
      let s1 := finishChannel ch.val s
      if writesLeft s1 ch.val then .next s1 else .next (acknowledge ch.val d s1)

/-! ### The end of the 2.0 µs (R53, R340) -/

/-- The full-line write whose data burst a channel has written and whose metadata burst is still to come (R54, R171). -/
def cutWrite (s : State) (ch : Nat) : List Nat :=
  ((getChan s ch).second.filter (fun x => x.entry.req.kind = .fullWrite)).toList.map (fun x => x.entry.req.dma)

/-- The minute-record lines of a channel that the Round writes in the first 10 ms of a minute: the last of them (R54, R126). -/
def lastRecordLine (s : State) (ch : Nat) : Option Nat :=
  let r := s.records
  if 10000 ≤ s.tank.usec then none
  else ((upTo r.count).reverse.map (fun i => r.first.toNat + i)).find? (fun q => q % 64 = ch) |>.map
    (fun q => systemLine (recordSlot q).1 (recordSlot q).2)

/-- The write of a journal line, or else of a minute-record line, that is under way when a channel is forced: whether there is one is a free
value (DESIGN CHOICE, notes/assumptions/110.md). The line is torn, and its entry is lost (R54, R324). -/
def tearSystem (ch : Nat) (s : State) : State :=
  let torn (line : Nat) (t : State) : State := { t with tank := { t.tank with tornSystem := NSet.add line t.tank.tornSystem } }
  if !Config.writeCut s.free then drawn s
  else
    match s.journal.queue with
    | { seq := some q, .. } :: rest =>
      if q.toNat % 64 = ch then torn (journalLine q.toNat) { drawn s with journal := { s.journal with queue := rest, written := q + 1 } }
      else ((lastRecordLine s ch).map (fun l => torn l (drawn s))).getD (drawn s)
    | _ => ((lastRecordLine s ch).map (fun l => torn l (drawn s))).getD (drawn s)

/-- A channel is forced into self-refresh; its pending-write list is frozen as torn. -/
def forceChannel (ch : Nat) (s : State) : State :=
  let s1 := enterSelfRefresh ch (tearSystem ch s)
  let t := { s1.tank with tornMeta := s1.tank.tornMeta ++ cutWrite s ch }
  { s1 with tank := { t with forcedMask := t.forcedMask ||| (1#64 <<< ch), torn := t.torn ++ t.pendingWrites.filter (fun e => e.1 = ch),
                             pendingWrites := t.pendingWrites.filter (fun e => e.1 ≠ ch) } }

/-- The channels that have not acknowledged. -/
def lateChannels (d : Drain) : List Nat := (upTo 64).filter (fun ch => !d.acked.getLsbD ch)

/-- What the 2.0 µs end: the queues of the engines are lost, the Tank keeps the frozen lists. -/
def forceChannels (d : Drain) (s : State) : State :=
  let s1 := forEach (lateChannels d) forceChannel s
  { s1 with path := .empty,
            sep := { s1.sep with inits := s1.sep.inits.map (fun x => { x with heldReqs := x.heldReqs.take 1 }), waiting := [],
                                 rewrites := s1.sep.rewrites.map (fun w => { w with heldReqs := [] }) } }

/-- DRAIN_TIMEOUT (R53, R340): 2.0 µs after the drain began. Every island but the Tank and the chain ports is then reset for a
warm reset. -/
def execDrainTimeout (s : State) : Host.Outcome State Fault Refusal :=
  match s.tank.drain with
  | none => .next s
  | some d =>
    if d.timedOut then .next s
    else
      let s1 := forceChannels d s
      let d1 : Drain := { d with timedOut := true }
      if d.cause = .stop then .next (endStopDrain s1)
      else .next { s1 with tank := { s1.tank with drain := some d1, coreRunning := false } }

/-! ### WRST_N and WARM_RESET (R51) -/

/-- A warm start runs: Last reset shows a warm reset in phases 0x02 to 0x07. -/
def inWarmStart (s : State) : Bool := startPhase s.tank.phase && s.tank.phase ≠ 0x01 && s.tank.lastReset ≠ 0

/-- A recognised low of WRST_N: absorbed by a warm drain in progress, remembered during the entry of a stop, and otherwise the
start of a warm reset where R51 allows one. -/
def wrstRecognised (s : State) : State :=
  let p := s.tank.phase
  match s.tank.drain with
  | some d =>
    if d.cause = .stop then { s with tank := { s.tank with drain := some { d with wrstAfter := true } } } else s
  | none =>
    if p = 0x08 || p = 0xE0 || p = 0xE1 || p = 0xF0 || p = 0x11 || inWarmStart s then warmDrain .wrst s else s

/-- What keeps a low of WRST_N from starting a warm reset (R33, R35, R51, R347). -/
def wrstIgnored (s : State) : Bool := !s.pins.porN || s.pins.powerFail || s.pins.refclkHold || s.tank.phase = 0xF1

/-- WRST_N_FALL (R33, R51, R347): WRST_N goes low for `lowNs`. Pulses below 20 ns are ignored, those up to 50 ns may be. A longer low is
the pin's level until it ends. -/
def execWrstNFall (lowNs : Nat) (s : State) : Host.Outcome State Fault Refusal :=
  if lowNs < 20 then .next s
  else if lowNs < 50 then
    if wrstIgnored s then .next s else .next (if Config.shortWrst s.free then wrstRecognised (drawn s) else drawn s)
  else
    let s1 := { s with pins := { s.pins with wrstUntil := max s.pins.wrstUntil (s.tank.clockUs + (lowNs + 999) / 1000) } }
    .next (if wrstIgnored s then s1 else wrstRecognised s1)

/-- A warm reset that the device starts itself, recorded as commanded (R350, R363); safe state is not left by it (R347). -/
def ownReset (s : State) : State :=
  if s.tank.drain = none && !safePhase s.tank.phase && !s.pins.powerFail && commandPhase s.tank.phase 0x08 then warmDrain .command s else s

/-- A halt or the opening of service ends a cold start: a WRST_N that is low then starts a warm reset (R33). -/
def endColdStart (s : State) : State :=
  if s.tank.clockUs < s.pins.wrstUntil && s.tank.lastReset = 0 && s.tank.drain = none && !wrstIgnored s then warmDrain .wrst s else s

/-- WARM_RESET's rule (R51, R311). -/
def warmResetRule (f : ChainFrame) (s : State) : Reply :=
  if field f.payload 0 4 ≠ 0x57525354 then malformed 0 s
  else done [] { s with tank := { s.tank with warmPending := true } }

/-- WARM_RESET: COMMAND 0x08. The drain begins 20 µs after the RESPONSE (DRAIN_BEGIN). -/
def execWarmReset (p : ChainPort) (f : ChainFrame) (s : State) : Host.Outcome State Fault Refusal :=
  .next (runCommand 0x08 p f (warmResetRule f) s)

/-- DRAIN_BEGIN (R51): the drain of an accepted WARM_RESET begins. -/
def execDrainBegin (s : State) : Host.Outcome State Fault Refusal :=
  if s.tank.warmPending && s.tank.drain = none && !s.pins.powerFail && commandPhase s.tank.phase 0x08 then .next (warmDrain .command s)
  else .next s

/-! ### Safe state (R340, R342) -/

/-- Stop-severity safe state as R340 gives, from any phase but a drain's: in phase 0x10 the drain goes on and ends here. A
device in lock-severity safe state stays there (R342). -/
def enterStop (s : State) : State :=
  let s1 := { s with tank := { s.tank with stopLatch := 7 }, churn := { s.churn with safe := if s.churn.safe = 2 then 2 else 1 } }
  match s1.tank.drain with
  | some d =>
    if s1.tank.phase = 0x10 then { s1 with tank := { s1.tank with drain := some { d with stopAfter := true } } } else s1
  | none =>
    if s1.tank.phase = 0xF0 || s1.tank.phase = 0xF1 then s1 else stopDrain { s1 with tank := { s1.tank with phase := 0xF0 } }

/-- The lock latch is set (R342): every key slot is zeroised, every initialised layer is forced into self-refresh, the ports
idle, the core held; requests in flight are lost and no torn line is recorded. -/
def enterLock (s : State) : State :=
  let s1 := idlePorts (forEach (upTo 64) (fun ch t => if (getChan t ch).initialised then enterSelfRefresh ch t else t) s)
  { s1 with
    tank := { s1.tank with stopLatch := 7, lockLatch := 7, phase := 0xF1, coreHeld := true, pendingWrites := [], torn := [], tornMeta := [], tornSystem := [],
                           forcedMask := 0, drain := none, warmPending := false },
    churn := { s1.churn with safe := 2 },
    keys := [], path := .empty, slow := { s1.slow with reserve := [] },
    sep := { s1.sep with inits := [], rewrites := s1.sep.rewrites.map (fun w => { w with heldReqs := [] }), waiting := [] } }

end Sys2Proof.Machine
end

