-- ==== Sys2Proof/Machine/Bist.lean ====
section
/-! DEFINITION. The BIST engine (R361, R363 to R369): batches with their save and restore, soft repairs, and BIST_CONTROL. A batch
takes four BIST_BATCH commands: its marker is written and its rows are saved; the march runs; soft repairs are assigned; the rows are
restored and the marker is cleared. -/

namespace Sys2Proof.Machine

/-! ### Records -/

/-- A channel's BIST record. -/
def getBist (s : State) (ch : Nat) : BistCh := Map.get BistCh.zero ch s.bist.chans

/-- Writes a channel's BIST record. -/
def setBist (ch : Nat) (v : BistCh) (s : State) : State :=
  { s with bist := { s.bist with chans := Map.set BistCh.zero ch v s.bist.chans } }

/-- A failing element is counted: in the header, for the test, which fails, and on its channel where it was found on one (R371). -/
def countFailure (ch : Option Nat) (repaired : Bool) (s : State) : State :=
  let b := s.bist
  let b1 : Bist :=
    { b with failures := satAdd max32 b.failures 1, testFailures := satAdd max32 b.testFailures 1, result := 1,
             repaired := if repaired then satAdd max32 b.repaired 1 else b.repaired,
             testRepaired := if repaired then satAdd max32 b.testRepaired 1 else b.testRepaired,
             unrepairable := if repaired then b.unrepairable else satAdd max32 b.unrepairable 1 }
  let s1 := { s with bist := b1 }
  match ch with
  | some c => setBist c { getBist s c with failures := satAdd max32 (getBist s c).failures 1 } s1
  | none => s1

/-- Kind 0x71 for a repaired element, kind 0x72 for one that cannot be repaired (R361, R369). -/
def reportElement (ch : Option Nat) (src addr : Nat) (repaired : Bool) (s : State) : State :=
  raise src (if repaired then 0x71 else 0x72) addr (countFailure ch repaired s)

/-! ### Rows (R365, R366) -/

/-- Slabs of a region that R154 protects. -/
def isProtected (s : State) (e : Nat × Region) : Bool :=
  e.2.inUse && (e.2.active || e.2.erasePending || e.2.rekeying || isHeld s e.1)

/-- A slab lies in no protected range. -/
def slabFree (s : State) (slab : Nat) : Bool :=
  !s.regions.any (fun e => isProtected s e && decide (e.2.slab ≤ slab) && decide (slab < e.2.slab + e.2.slabs))

/-- The local lines of a tenant row. -/
def rowLines (bank row : Nat) : List Nat := (upTo 14).map (fun j => 14 * (row * 32 + bank) + j)

/-- A spare page is neither in use nor bad. -/
def spareFree (s : State) (ch i : Nat) : Bool := !(getRemap s ch i).valid && !(getRemap s ch i).bad

/-- A row is eligible in FIELD (R365). -/
def eligible (s : State) (ch bank row : Nat) : Bool :=
  if row < 32256 then
    (rowLines bank row).all (fun loc => slabFree s (unsteer (planOf s) ch loc / 65536) && committedSpare s ch (loc / 64) = none)
  else
    let sl := ((row - 32256) * 32 + bank) * 16
    if 0x14000 ≤ sl ∧ sl < 0x34000 then spareFree s ch ((sl - 0x14000) / 64)
    else if 0x34000 ≤ sl ∧ sl < 0x38000 then spareFree s ch ((sl - 0x34000) / 8) && spareFree s ch ((sl - 0x34000) / 8 + 1)
    else false

/-- Up to 64 eligible rows from a sweep position on, over at most `fuel` positions, with the number of positions passed. -/
def collectRows (s : State) (ch : Nat) : Nat → Nat → List (Nat × Nat) → List (Nat × Nat) × Nat
  | 0, _, acc => (acc, 0)
  | fuel + 1, p, acc =>
    if 64 ≤ acc.length then (acc, 0)
    else
      let q := p % 2 ^ 20
      let r := collectRows s ch fuel (p + 1) (if eligible s ch (q / 32768) (q % 32768) then acc ++ [(q / 32768, q % 32768)] else acc)
      (r.1, r.2 + 1)

/-- Rows are tested in FIELD without disturbing what the device holds; in MANUFACTURE and RETURN all rows are (R363). -/
def inField (s : State) : Bool := s.otp.life = 2

/-- The run of step n in MANUFACTURE and RETURN: 1,008 runs of tenant rows, 15 of system rows, and the save area last (R366). -/
def runOf (n : Nat) : Nat × List (Nat × Nat) :=
  if n < 1008 then (2, (upTo 1024).map (fun j => ((1024 * n + j) / 32256, (1024 * n + j) % 32256)))
  else
    let r := if n = 1023 then 4 else if n - 1008 < 4 then n - 1008 else n - 1007
    (1, (upTo 1024).map (fun j => ((1024 * r + j) % 32, 32256 + (1024 * r + j) / 32)))

/-- The next batch of a channel: form, rows, and the steps that it takes. -/
def nextBatch (s : State) (ch : Nat) : Nat × List (Nat × Nat) × Nat :=
  let y := getBist s ch
  if inField s then
    let r := collectRows s ch (2 ^ 20 - y.step) y.sweep []
    (0, r.1, r.2)
  else if y.step < 1024 then ((runOf y.step).1, (runOf y.step).2, 1) else (0, [], 0)

/-! ### Save and restore (R366) -/

/-- The run is the save area itself, which is not saved. -/
def isSaveArea (rows : List (Nat × Nat)) : Bool := rows.head? = some (0, 32256 + 128)

/-- Position j of a row, saved through the decoder into its slot. -/
def saveLine (ch k bank row j : Nat) (s : State) : State :=
  let slot := systemLine ch (0x10000 + 16 * k + j)
  let d := decodeLine s (physLine ch bank row j) []
  match d.1 with
  | .clean bs => writeLine slot bs d.2
  | .corrected bs _ _ _ => writeLine slot bs d.2
  | _ => putPoison slot d.2

/-- Saves the rows of a batch, in order. -/
def saveRows (ch : Nat) (form : Nat) (rows : List (Nat × Nat)) (s : State) : State :=
  if form = 2 || isSaveArea rows then s
  else systemBursts ch (32 * rows.length) (forEach rows.zipIdx (fun x t => forEach (upTo 16) (fun j u => saveLine ch x.2 x.1.1 x.1.2 j u) t) s)

/-- A line back from its slot, decoded, with fresh check symbols; poison where the slot holds it or cannot be decoded. -/
def restoreLine (ch k bank row j : Nat) (s : State) : State :=
  let d := decodeLine s (systemLine ch (0x10000 + 16 * k + j)) []
  match d.1 with
  | .clean bs => writeLine (physLine ch bank row j) bs d.2
  | .corrected bs _ _ _ => writeLine (physLine ch bank row j) bs d.2
  | _ => putPoison (physLine ch bank row j) d.2

/-- A line refilled with the values of R46. -/
def refillLine (line : Nat) (s : State) : State := writeLine line ((upTo 64).map (fun o => fillByte (line * 64 + o))) s

/-- The rows that a marker names are written back, or refilled, whatever its phase. -/
def restoreRows (ch : Nat) (m : Marker) (s : State) : State :=
  if m.form = 2 || isSaveArea m.rows then
    systemBursts ch (16 * m.rows.length) (forEach m.rows (fun x t => forEach (upTo 16) (fun j u => refillLine (physLine ch x.1 x.2 j) u) t) s)
  else
    systemBursts ch (32 * m.rows.length)
      (forEach m.rows.zipIdx (fun x t => forEach (upTo 16) (fun j u => restoreLine ch x.2 x.1.1 x.1.2 j u) t) s)

/-- The writes that have waited for a channel's rows under test are made (R367). -/
def writeWaiting (ch : Nat) (s : State) : State :=
  forEach (s.dram.waits.filter (fun e => lineChannel e.1 = ch)) (fun e t => writeBytes e.1 e.2.1 e.2.2 t)
    { s with dram := { s.dram with waits := s.dram.waits.filter (fun e => lineChannel e.1 ≠ ch) } }

/-- Restores a channel's batch, whatever its phase, and clears its marker. -/
def endMarker (ch : Nat) (s : State) : State :=
  match (getBist s ch).marker with
  | none => s
  | some m =>
    let s1 := restoreRows ch m s
    writeWaiting ch (setBist ch { getBist s1 ch with marker := none } s1)

/-- The channels that hold a marker. -/
def markedChannels (s : State) : List Nat := (s.bist.chans.filter (fun (e : Nat × BistCh) => e.2.marker.isSome)).map (fun e => e.1)

/-- A batch of a channel that names a row meeting a test is aborted: restored, with no result (R365, R367). -/
def abortIf (p : Nat → Nat → Nat → Bool) (s : State) : State :=
  forEach (markedChannels s) (fun ch t =>
    match (getBist t ch).marker with
    | some m => if m.rows.any (fun x => p ch x.1 x.2) then endMarker ch t else t
    | none => t) s

/-- A tenant row holds a line of a slab. -/
def rowInSlabs (s : State) (r : RegionRec) (ch bank row : Nat) : Bool :=
  decide (row < 32256) && (rowLines bank row).any (fun loc =>
    let slab := unsteer (planOf s) ch loc / 65536
    decide (r.slab ≤ slab) && decide (slab < r.slab + r.slabs))

/-- At a minute tick, batches with a row in a slab that a lease will start on at the next boundary are aborted, for the plan in
force and a bank being prepared (R365). -/
def abortForLeases (s : State) : State :=
  if s.bist.state ≠ 1 then s
  else
    let next := s.tank.minute.toNat + 1
    let soon (p : Plan) : List RegionRec := p.regions.filter (fun r => r.leases.any (fun l => l.start.toNat = next))
    let prepared := match s.plans.buffer, s.plans.preparing with
      | some p, _ => soon p
      | none, some k => (match checkBank s k with | .ok p => soon p | .error _ => [])
      | none, none => []
    let l := soon (planOf s) ++ prepared
    abortIf (fun ch bank row => l.any (fun r => rowInSlabs s r ch bank row)) s

/-- A retirement that takes a spare page aborts the batch that holds it (R367). -/
def abortForSpare (ch i : Nat) (s : State) : State :=
  abortIf (fun c bank row =>
    let sl := ((row - 32256) * 32 + bank) * 16
    c = ch && decide (32256 ≤ row) &&
      ((decide (0x14000 ≤ sl) && decide (sl < 0x34000) && (sl - 0x14000) / 64 = i) ||
        (decide (0x34000 ≤ sl) && decide (sl < 0x38000) && (sl - 0x34000) / 16 = i / 2))) s

/-! ### Soft repairs (R361) -/

/-- A spare row of a bank that no repair holds. -/
def freeRow (s : State) (ch bank : Nat) : Option Nat :=
  let hard := s.otp.repairs.map (fun e => e.toNat)
  (upTo 16).find? (fun i => !(getBist s ch).softRows.any (fun e => e.1 = bank && e.2.2 = i) &&
    !hard.any (fun e => (repairElement e).1 = 1 && (repairElement e).2.1 = ch && (repairElement e).2.2.1 = bank && repairSpare e = i))

/-- A spare column group of a bank that no repair holds. -/
def freeCol (s : State) (ch bank : Nat) : Option Nat :=
  let hard := s.otp.repairs.map (fun e => e.toNat)
  (upTo 8).find? (fun i => !(getBist s ch).softCols.any (fun e => e.1 = bank && e.2.2.2 = i) &&
    !hard.any (fun e => (repairElement e).1 = 2 && (repairElement e).2.1 = ch && (repairElement e).2.2.1 = bank && repairSpare e = i))

/-- The address of a failing cell (R211, R369). -/
def cellAddr (ch : Nat) (f : BistFail) : Nat := physAddr (physLine ch f.bank.val f.row.val f.pos.val)

/-- The source of a row or column-group failure: the layer (R369). -/
def layerSource (ch : Nat) : Nat := 0x0A0 + ch / 4

/-- The rows of failing cells, each once. -/
def failRows (l : List BistFail) : List Nat := (l.map (fun f => f.row.val)).dedup

/-- The column groups of failing cells, each once. -/
def failCols (l : List BistFail) : List (Nat × Nat) := (l.map (fun f => (f.pos.val, f.lane.val))).dedup

/-- The cells of a column group. -/
def inCol (g : Nat × Nat) (f : BistFail) : Bool := f.pos.val = g.1 && f.lane.val = g.2

/-- One column group gets a spare, if one is left: the cells still failing, and the state. -/
def repairCol (ch bank : Nat) (g : Nat × Nat) (acc : List BistFail × State) : List BistFail × State :=
  match freeCol acc.2 ch bank, acc.1.find? (inCol g) with
  | some i, some f =>
    let y := getBist acc.2 ch
    (acc.1.filter (fun x => !inCol g x),
     reportElement (some ch) (layerSource ch) (cellAddr ch f) true (setBist ch { y with softCols := y.softCols ++ [(bank, g.1, g.2, i)] } acc.2))
  | _, _ => acc

/-- One row that still fails gets a spare row; a spare column group when no row is left and one group holds its failures; and is
otherwise unrepairable: its cells stay. -/
def repairRow (ch bank row : Nat) (acc : List BistFail × State) : List BistFail × State :=
  let mine := acc.1.filter (fun f => f.row.val = row)
  match mine with
  | [] => acc
  | f :: _ =>
    match freeRow acc.2 ch bank with
    | some i =>
      let y := getBist acc.2 ch
      (acc.1.filter (fun f => f.row.val ≠ row),
       reportElement (some ch) (layerSource ch) (cellAddr ch f) true (setBist ch { y with softRows := y.softRows ++ [(bank, row, i)] } acc.2))
    | none =>
      match failCols mine, freeCol acc.2 ch bank with
      | [g], some _ => repairCol ch bank g acc
      | _, _ => (acc.1, reportElement (some ch) (layerSource ch) (cellAddr ch f) false acc.2)

/-- The soft repairs of a batch in one bank (R361): the cells that stay, and the state. -/
def repairBank (ch : Nat) (fails : List BistFail) (bank : Nat) (acc : List BistFail × State) : List BistFail × State :=
  let mine := fails.filter (fun f => f.bank.val = bank)
  let cols := (failCols mine).filter (fun g => decide (2 ≤ (failRows (mine.filter (inCol g))).length))
  let a := cols.foldl (fun acc g => repairCol ch bank g acc) (mine, acc.2)
  let b := (failRows a.1).foldl (fun acc r => repairRow ch bank r acc) a
  (acc.1 ++ b.1, b.2)

/-- Two cells lie in one row. -/
def sameRow (f g : BistFail) : Bool := f.bank = g.bank && f.row = g.row

/-- After a march: failures in the rows of the batch are repaired or reported; repaired rows that still fail in the pass made over them
once more are unrepairable (R361). -/
def judgeBatch (ch : Nat) (fails still : List BistFail) (s : State) : State :=
  let a := (upTo 32).foldl (fun acc b => repairBank ch fails b acc) ([], s)
  let repaired := fails.filter (fun f => !a.1.any (sameRow f))
  let bad := still.filter (fun f => repaired.any (sameRow f))
  let first (l : List BistFail) : List BistFail := l.foldl (fun l f => if l.any (sameRow f) then l else l ++ [f]) []
  let t := systemBursts ch (160 * (first repaired).length) a.2
  forEach (first bad) (fun f u => reportElement (some ch) (layerSource ch) (cellAddr ch f) false u) t

/-! ### The march (R364) -/

/-- An operation of a march element at one position: the background, or its complement, read or written. -/
inductive MarchOp where
  | read (inverted : Bool)
  | write (inverted : Bool)
  deriving DecidableEq, Repr

/-- The elements of March C−: whether the positions come in descending order, and the operations at each. -/
def marchElements : List (Bool × List MarchOp) :=
  [(false, [.write false]), (false, [.read false, .write true]), (false, [.read true, .write false]),
   (true, [.read false, .write true]), (true, [.read true, .write false]), (false, [.read false])]

/-- The background of a row: 0x00 in the first run; in the second 0x55 in even rows and 0xAA in odd ones. -/
def background (second : Bool) (row : Nat) : Byte := if !second then 0x00 else if row % 2 = 0 then 0x55 else 0xAA

/-- The column commands of one run over a row: every operation at each of 16 positions. -/
def marchBursts : Nat := 16 * ((marchElements.map (fun e => e.2.length)).sum)

/-- Where a cell stands in the ascending order of (bank, physical row, position). -/
def cellOrder (f : BistFail) : Nat := f.bank.val * 2 ^ 19 + f.row.val * 16 + f.pos.val

/-- A read of the march at one position records the cells there that read wrongly, each once. -/
def recordReads (fails : List BistFail) (seen : List BistFail) (at' : BistFail) : List BistFail :=
  seen ++ fails.filter (fun f => cellOrder f = cellOrder at' && !seen.contains f)

/-- One element: its reads over the positions that hold failing cells, in its order. -/
def runElement (fails seen : List BistFail) (e : Bool × List MarchOp) : List BistFail :=
  let asc := fails.insertionSort (fun a b => cellOrder a ≤ cellOrder b)
  (if e.1 then asc.reverse else asc).foldl (fun l f =>
    e.2.foldl (fun k op => match op with | .read _ => recordReads fails k f | .write _ => k) l) seen

/-- The failing cells in the order in which the two runs of the march record them. -/
def marchFails (fails : List BistFail) : List BistFail :=
  [false, true].foldl (fun l _ => marchElements.foldl (runElement fails) l) []

/-- What the march leaves in a row: the background of its second run in all 72 symbols, raw (R364). The check symbols are not held (DESIGN
CHOICE, notes/assumptions/112.md). -/
def marchRow (ch : Nat) (x : Nat × Nat) (s : State) : State :=
  forEach (upTo 16) (fun j t => writeLine (physLine ch x.1 x.2 j) (List.replicate 64 (background true x.2)) t) s

/-! ### The tests (R363) -/

/-- A channel has nothing more to do in the running test. -/
def markDone (ch : Nat) (s : State) : State := setBist ch { getBist s ch with done := true } s

/-- A request that has passed its ordering point, or a visit, is still at work on a row of a batch. -/
def rowsBusy (s : State) (ch : Nat) (rows : List (Nat × Nat)) : Bool :=
  (engineReqs s ch ++ arrivedVisits s ch).any (fun r => rows.contains (reqBank s ch r, rowOf s ch r))

/-- Steps 1 and 2 of a batch (R366): its marker is written with Phase saving, and its rows are saved, once no request is at work on them;
with no row left the channel is done. -/
def beginBatch (ch : Nat) (s : State) : State :=
  let b := nextBatch s ch
  let y := getBist s ch
  let y1 : BistCh := { y with step := y.step + b.2.2, sweep := if inField s then (y.sweep + b.2.2) % 2 ^ 20 else y.sweep }
  if b.2.1 = [] then markDone ch (setBist ch y1 s)
  else if rowsBusy s ch b.2.1 then s
  else saveRows ch b.1 b.2.1 (setBist ch { y1 with marker := some { form := b.1, phase := .saving, count := b.2.1.length, rows := b.2.1 } } s)

/-- A batch's marker takes the next phase. -/
def setBatchPhase (ch : Nat) (m : Marker) (p : BistPhase) (s : State) : State :=
  setBist ch { getBist s ch with marker := some { m with phase := p } } s

/-- Steps 3 to 6 of a batch (R366): the march runs; soft repairs are assigned; the rows are restored, and the marker cleared. -/
def nextPhase (ch : Nat) (m : Marker) (fails still : List BistFail) (s : State) : State :=
  let own (l : List BistFail) : List BistFail := l.filter (fun f => m.rows.contains (f.bank.val, f.row.val))
  match m.phase with
  | .saving => systemBursts ch (2 * marchBursts * m.rows.length) (forEach m.rows (marchRow ch) (setBatchPhase ch m .testing s))
  | .testing => setBatchPhase ch m .restoring (judgeBatch ch (marchFails (own fails)) (own still) s)
  | .restoring =>
    let s1 := endMarker ch s
    { s1 with bist := { s1.bist with rows := satAdd max32 s1.bist.rows m.rows.length } }

/-- One failing path of the lane test: lanes take spares under R184; in FIELD only unused spare lanes are tested; the other
paths retire the channel (R185, R363). A lane that a spare already carries has been found before. -/
def lanePath (ch p : Nat) (s : State) : State :=
  let c := getChan s ch
  let bad (t : State) : State := reportElement (some ch) ch (engineAddr ch p) false t
  if 72 ≤ p ∧ p < 76 then
    match c.spares.find? (fun e => e.2 = p - 72) with
    | some e => if inField s then s else bad (failLane ch e.1 s)
    | none => bad (setChan ch { c with badSpares := NSet.add (p - 72) c.badSpares } s)
  else if inField s then s
  else if p < 72 then
    if c.spares.any (fun e => e.1 = p) then s
    else reportElement (some ch) ch (engineAddr ch p) (!(erasedLanes c).contains p && (freeSpare c).isSome) (failLane ch p s)
  else bad (startRetirement ch s)

/-- The lane test of a channel. -/
def laneTest (ch : Nat) (items : List Nat) (s : State) : State :=
  markDone ch (forEach (items.filter (fun p => decide (p < 92))).dedup (fun p t => lanePath ch p t) s)

/-- An area of the SRAM fabric that the march tests: neither the management core memory nor the key store in the Tank (R213, R363). -/
def marched (a : Nat) : Bool := decide (a < 10) && a ≠ 6 && a ≠ 8

/-- The SRAM march: failing words by area; every masked channel is done with it. -/
def sramTest (items : List Nat) (s : State) : State :=
  let s1 := forEach (items.filter marched) (fun a t => reportElement none 0x080 a false t) s
  forEach (upTo 64) (fun ch t => markDone ch t) s1

/-- The SerDes test of lane n. -/
def serdesTest (n : Nat) (items : List Nat) (s : State) : State :=
  markDone n (if items.contains n then reportElement none (0x060 + n) n false s else s)

/-- The channels, or lanes for test 0x04, that the running test names. -/
def masked (s : State) (n : Nat) : Bool :=
  s.bist.mask.getLsbD n && (if s.bist.test = 4 then decide (n < 16) && portPresent s (lanePort s n) else !isRetired s n)

/-- BIST_BATCH (R361, R363 to R366): one channel's next step of the running test, while BIST runs (R341); `fails` are the cells that the march reads
wrongly, `stillFailing` those of the retest, `badItems` the failing paths, SRAM areas or lanes of the other tests. -/
def execBistBatch (ch : Fin 64) (fails stillFailing : List BistFail) (badItems : List Nat) (s : State) :
    Host.Outcome State Fault Refusal :=
  let n := ch.val
  if s.bist.state ≠ 1 || !upkeepRuns s || !masked s n || (getBist s n).done || (s.bist.test.toNat ≤ 2 && ((getChan s n).selfRefresh || s.retiring.contains n)) ||
      (s.bist.test = 1 && !s.tank.filled) then .next s
  else if s.bist.test = 1 then
    match (getBist s n).marker with
    | some m => .next (nextPhase n m fails stillFailing s)
    | none => .next (beginBatch n s)
  else if s.bist.test = 2 then .next (laneTest n badItems s)
  else if s.bist.test = 3 then .next (sramTest badItems s)
  else .next (serdesTest n badItems s)

/-- Ports whose lanes the SerDes test names. -/
def serdesPorts (s : State) : List Nat :=
  ((upTo 16).filter (fun l => s.bist.mask.getLsbD l && portPresent s (lanePort s l))).map (lanePort s) |>.dedup

/-- The type 0x55 entry (R323). -/
def journalBist (s : State) : State :=
  let b := s.bist
  journalEvent 0x080 0x55 b.result.toNat
    ([b.test, 0, 0, 0, 0, 0, 0, 0] ++ beBytes 8 b.mask.toNat ++ beBytes 4 b.testFailures ++ beBytes 4 b.testRepaired) s

/-- The end of a test, completed (2) or aborted (3): the entry; the SRAM march ends with a warm reset recorded as commanded;
ports of a SerDes test retrain. -/
def endTest (st : BitVec 2) (s : State) : State :=
  let s1 := journalBist { s with bist := { s.bist with state := st } }
  if s.bist.test = 3 then ownReset s1
  else if s.bist.test = 4 then
    forEach (serdesPorts s) (fun p t => setPort p { getPort t p with training := true, trained := false } t) s1
  else s1

/-- BIST_END (R368): every masked channel or lane is done. -/
def execBistEnd (s : State) : Host.Outcome State Fault Refusal :=
  if s.bist.state ≠ 1 || !upkeepRuns s || (upTo 64).any (fun n => masked s n && !(getBist s n).done) then .next s else .next (endTest 2 s)

/-! ### BIST_CONTROL (R311, R313, R368) -/

/-- The fields of a BIST_CONTROL payload. -/
def bistPrefix (f : ChainFrame) (s : State) : Option Reply :=
  let op := field f.payload 0 1
  let test := field f.payload 1 1
  if op = 0 ∨ 2 < op then some (malformed 0 s)
  else if test = 0 ∨ 4 < test then some (malformed 1 s)
  else if field f.payload 2 6 ≠ 0 then some (malformed 2 s)
  else none

/-- OTP work that excludes a test (R368). -/
def otpBusy (s : State) : Bool := s.otp.op = 1 || s.otp.advance.isSome

/-- The mask names something that can be tested (R368). -/
def maskUsable (s : State) (test : Nat) (mask : BitVec 64) : Bool :=
  if test = 4 then (upTo 16).any (fun l => mask.getLsbD l && portPresent s (lanePort s l))
  else (upTo 64).any (fun ch => mask.getLsbD ch && !isRetired s ch)

/-- A test starts. The ports of a SerDes test leave service; an attempt at recalibration on their lanes is abandoned (R77, R80). -/
def startTest (test : Nat) (mask : BitVec 64) (s : State) : State :=
  let b := s.bist
  let chans := mapTable BistCh.zero (fun y => { y with step := 0, done := false }) b.chans
  let b1 : Bist :=
    { b with state := 1, test := BitVec.ofNat 8 test, result := 0, started := (stamp s).1, mask := mask, testFailures := 0,
             testRepaired := 0, chans := chans }
  let s1 := { s with bist := b1 }
  if test = 4 then
    forEach (serdesPorts s1) (fun p t => changePort p (fun r => { r with up := false, training := false }) (abandonRecal (portLanes (quadMode s1 (p / 4)).1 p) t)) s1
  else s1

/-- BIST_CONTROL start. Tests 0x03 and 0x04 are not allowed in FIELD (R363). -/
def bistStartRule (f : ChainFrame) (s : State) : Reply :=
  let test := field f.payload 1 1
  let mask : BitVec 64 := BitVec.ofNat 64 (field f.payload 8 8)
  match bistPrefix f s with
  | some r => r
  | none =>
    if inField s && decide (3 ≤ test) then
      { status := 0x14, payload := detail (Config.statusDetail s.free).toNat, st := drawn s }
    else if s.bist.state = 1 || otpBusy s then refuse 1 s
    else if !maskUsable s test mask then refuse 2 s
    else accepted [] (startTest test mask s)

/-- BIST_START: COMMAND 0x0A with any operation but abort. -/
def execBistStart (p : ChainPort) (f : ChainFrame) (s : State) : Host.Outcome State Fault Refusal :=
  if field f.payload 0 1 = 2 then .next s else .next (runCommand 0x0A p f (bistStartRule f) s)

/-- All batches are restored. -/
def endMarkers (s : State) : State := forEach (markedChannels s) endMarker s

/-- BIST_CONTROL abort: each batch is restored, and the test ends. -/
def bistAbortRule (f : ChainFrame) (s : State) : Reply :=
  match bistPrefix f s with
  | some r => r
  | none => accepted [] (if s.bist.state = 1 then endTest 3 (endMarkers s) else s)

/-- BIST_ABORT: COMMAND 0x0A with operation abort. -/
def execBistAbort (p : ChainPort) (f : ChainFrame) (s : State) : Host.Outcome State Fault Refusal :=
  if field f.payload 0 1 = 2 then .next (runCommand 0x0A p f (bistAbortRule f) s) else .next s

end Sys2Proof.Machine
end

