-- ==== Sys2Proof/Machine/Round.lean ====
section
/-! DEFINITION. The Round: minute boundaries in the order of R119 with their minute records (R126 to R129), device time set and
trimmed by ANCHOR and TRIM (R115 to R117), starts that have waited (R121, R123), and REVOKE_LEASE (R124). -/

namespace Sys2Proof.Machine

/-! ### Closing a minute (R125, R126, R129) -/

/-- The slab-minutes of minute c, for each lease of the plan that covers it and no revoke has ended (R125). -/
def countSlabs (c : Nat) (s : State) : State :=
  forEach (planOf s).regions (fun r t =>
    if (openLeases t r).any (fun l => covers l c) then tenantCount r.tenant 9 r.slabs t else t) s

/-- The live accumulators are swapped out: they join those of the span, field by field (R126, R129). -/
def swapBuffers (s : State) : State :=
  let r := s.records
  { s with records := { r with
      old := r.live.foldl (fun t (e : Nat × Nat) => Map.modify 0 e.1 (fun v => satAdd (fieldLimit (e.1 % 16)) v e.2) t) r.old,
      live := [], closedLeased := r.leased.foldl (fun t x => NSet.add x t) r.closedLeased, leased := [] } }

/-- Minutes that the run in progress has closed. -/
def runLength (s : State) : Nat := s.tank.roundMinute.toNat - s.records.openMinute - 65535 * s.records.runs.length

/-- A run of 65,535 minutes is closed when a further boundary follows: it takes the slab-minutes so far (R129). -/
def closeRun (s : State) : State :=
  let r := s.records
  if runLength s < 65535 then s
  else
    let run : RecordRun := { minute := s.tank.roundMinute.toNat - 1, slabs := r.old.filter (fun (e : Nat × Nat) => e.1 % 16 = 0),
                             leased := r.closedLeased, ended := r.revokeEnded }
    { s with records := { r with runs := r.runs ++ [run], old := r.old.filter (fun (e : Nat × Nat) => e.1 % 16 ≠ 0),
                                 closedLeased := [], revokeEnded := [] } }

/-! ### Minute records (R126 to R129) -/

/-- The 64 bytes of a minute record (R127). `flags` are bits 15 to 12. -/
def minuteRecord (seq : BitVec 32) (minute tenant flags span : Nat) (v : Nat → Nat) : List Byte :=
  beBytes 4 seq.toNat ++ beBytes 4 minute ++ beBytes 2 (flags * 4096 + tenant) ++ beBytes 2 span ++ beBytes 4 (v 0) ++
    ((List.range 6).map (fun i => beBytes 6 (v (i + 1)))).flatten ++ ((List.range 5).map (fun i => beBytes 2 (v (i + 7)))).flatten ++
    beBytes 2 (((List.range 12).map (fun f => bit (v f = fieldLimit f) f)).sum)

/-- A running counter of a tenant is saturated (R127). -/
def tenantSaturated (s : State) (t : Nat) : Bool := (upTo 26).any (fun n => Map.get 0 (t * 32 + n) s.ctr.tenant = max64)

/-- The next record sequence, past those whose slot lies on a retired channel (R187). -/
def nextRecordSeq (mask : BitVec 64) : Nat → BitVec 32 → BitVec 32
  | 0, q => q
  | n + 1, q => if mask.getLsbD (q.toNat % 64) then nextRecordSeq mask n (q + 1) else q

/-- Writes one record into its slot of the ring (R127). -/
def putRecord (minute tenant span : Nat) (stepped ended : Bool) (v : Nat → Nat) (s : State) : State :=
  let q := nextRecordSeq s.retired 64 s.records.next
  let flags := 8 + bit (tenantSaturated s tenant) 2 + bit stepped 1 + bit ended 0
  let s1 := systemBursts (recordSlot q.toNat).1 1
    (writeSystem (systemLine (recordSlot q.toNat).1 (recordSlot q.toNat).2) 0 (minuteRecord q minute tenant flags span v) s)
  { s1 with records := { s1.records with
      next := q + 1,
      oldest := if decide (524288 ≤ (q - s1.records.oldest).toNat) then q - 524287 else s1.records.oldest } }

/-- The tenants that a run's accumulators name. -/
def accTenants (t : Table Nat) : NatSet := t.foldl (fun l (e : Nat × Nat) => NSet.add (e.1 / 16) l) []

/-- The records of one earlier run: slab-minutes only, for the tenants with a lease or slab-minutes in that run (R129; which tenants have one
is DEDUCED, notes/assumptions/94.md). -/
def writeRun (r : RecordRun) (s : State) : State :=
  forEach (r.leased.foldl (fun t x => NSet.add x t) (accTenants r.slabs)) (fun n t =>
    putRecord r.minute n 65535 true (r.ended.contains n) (fun f => if f = 0 then Map.get 0 (n * 16) r.slabs else 0) t) s

/-- Step 6 of R119: the records of the minutes closed since the last ones, oldest run first, in ascending tenant order; a span
of more than one boundary is journaled (R129). -/
def writeRecords (s : State) : State :=
  let r := s.records
  let last := s.tank.roundMinute.toNat - 1
  let stepped := decide (1 < s.tank.roundMinute.toNat - r.openMinute)
  let s1 := if stepped then journalEvent 0x081 0x33 0 (beBytes 4 (r.openMinute + 1) ++ beBytes 4 (last + 1)) s else s
  let s2 := forEach r.runs writeRun s1
  let first := nextRecordSeq s.retired 64 s2.records.next
  let tenants := r.closedLeased.foldl (fun t x => NSet.add x t) (accTenants r.old)
  let s3 := forEach tenants (fun n t =>
    putRecord last n (runLength s) stepped (r.revokeEnded.contains n) (fun f => Map.get 0 (n * 16 + f) r.old) t) s2
  { s3 with records := { s3.records with
      lastMinute := BitVec.ofNat 32 last, first := first, count := tenants.length, old := [], closedLeased := [],
      revokeEnded := [], runs := [], openMinute := s.tank.roundMinute.toNat } }

/-! ### The steps of a boundary (R119) -/

/-- Step 3 for one region: a revoke whose minute this is, then a lease end with nothing to continue it (R122, R124). -/
def endStep (m : Nat) (i : Nat) (s : State) : State :=
  let r := getRegion s i
  let s1 :=
    if !r.inUse || r.revokeMinute.toNat ≠ m || r.revokeMinute = 0xFFFFFFFF then s
    else if r.leaseId = r.revokeId then (if r.active then endLease i m 1 s else dropHold i (dropChain i r.revokeId s))
    else saveLease i (setRegion i { r with foEnd := 0, foId := 0, revoked := false, revokeMinute := 0xFFFFFFFF, revokeId := 0 }
      (dropChain i r.revokeId s))
  let r1 := getRegion s1 i
  if r1.active && r1.leaseEnd.toNat = m && r1.foId = 0 then endLease i m 0 s1 else s1

/-- A revoke held since an earlier plan comes due: the lease it names is ended or kept from beginning, in this plan and every later one
(R124). -/
def lapseRevoke (id : Nat) (s : State) : State :=
  match (planOf s).regions.find? (fun p => p.leases.any (fun l => l.id.toNat = id)) with
  | some p => dropChain p.index (BitVec.ofNat 32 id) s
  | none => { s with records := { s.records with revokedLeases := NSet.add id s.records.revokedLeases } }

/-- The revokes held since earlier plans whose minute this is. -/
def lapseRevokes (m : Nat) (s : State) : State :=
  let s1 := forEach (s.records.laterRevokes.filter (fun e => e.2 = m)) (fun e t => lapseRevoke e.1 t) s
  { s1 with records := { s1.records with laterRevokes := s1.records.laterRevokes.filter (fun e => e.2 ≠ m) } }

/-- Step 4 for one region (R118). -/
def continueStep (m : Nat) (i : Nat) (s : State) : State :=
  let r := getRegion s i
  if r.active && r.leaseEnd.toNat = m && r.foId ≠ 0 then continueLease i s else s

/-- Step 5 for one region of the plan: a lease whose start is minute m (R120, R121, R123, R129). -/
def startStep (m : Nat) (p : RegionRec) (s : State) : State :=
  let r := getRegion s p.index
  if r.active || !(openLeases s p).any (fun l => l.start.toNat = m) then s
  else if r.erasePending then (if s.otp.life = 2 then holdStart p.index true s else s)
  else startLease p.index (loadEntry p.index s)

/-- An inactive entry whose lease is over shows the next one. -/
def showNext (m : Nat) (i : Nat) (s : State) : State :=
  let r := getRegion s i
  if r.inUse && !r.active && !r.erasePending && decide (r.leaseEnd.toNat ≤ m) then loadEntry i s else s

/-- Tenants with an active lease hold one in the minute that has begun (R126). -/
def noteActive (s : State) : State :=
  { s with records := { s.records with leased := s.regions.foldl (fun t (e : Nat × Region) =>
      if e.2.active then NSet.add e.2.tenant t else t) s.records.leased } }

/-- The indexes of all region entries, ascending. -/
def regionIds (s : State) : List Nat := s.regions.map (fun e => e.1)

/-- Starts that have waited beyond the end of their lease are given up. -/
def pruneHeld (m : Nat) (s : State) : State := { s with held := s.held.filter (fun h => (leaseAt s h.1 m).isSome) }

/-- One boundary: steps 1 to 5 of R119 for minute m, and the preparation that falls due (R282). -/
def boundary (m : Nat) (s : State) : State :=
  let s0 := closeRun s
  let s1 := swapBuffers (countSlabs (m - 1) { s0 with tank := { s0.tank with roundMinute := BitVec.ofNat 32 m } })
  let s2 := adoptAtBoundary m s1
  let s3 := lapseRevokes m (forEach (regionIds s2) (endStep m) s2)
  let s4 := forEach (regionIds s3) (continueStep m) s3
  let s5 := forEach (planOf s4).regions (startStep m) s4
  let s6 := noteActive (pruneHeld m (forEach (regionIds s5) (showNext m) s5))
  beginPreparation m s6

/-- The lease whose start waits in a region ends at the next boundary, by the plan or by a revoke. -/
def endsNext (s : State) (i : Nat) : Bool :=
  let n := s.tank.roundMinute.toNat + 1
  (leaseAt s i s.tank.roundMinute.toNat).any (fun l => decide (l.stop.toNat ≤ n)) || (getRegion s i).revokeMinute.toNat = n

/-- A start that waits for an erase holds up the boundaries that follow; one that waits for a slot or a key holds up the end of its own
lease, which is started in full (R129). -/
def boundariesHeld (s : State) : Bool := s.held.any (fun h => h.2 || endsNext s h.1)

/-- Processes the boundaries up to the device minute, one at a time, in order; `n` bounds their number. -/
def runBoundaries : Nat → State → State
  | 0, s => s
  | n + 1, s =>
    if boundariesHeld s || decide (s.tank.minute.toNat ≤ s.tank.roundMinute.toNat) then s
    else runBoundaries n (boundary (s.tank.roundMinute.toNat + 1) s)

/-- The Round acts in service and while links train, under a plan (R44, R341). -/
def roundRuns (s : State) : Bool := !s.pins.powerFail && (s.tank.phase = 0x07 || s.tank.phase = 0x08) && s.plans.plan.isSome

/-- The boundaries that are due, and the records of the minutes they close once none is left. -/
def settleBoundaries (s : State) : State :=
  let s1 := runBoundaries (s.tank.minute.toNat - s.tank.roundMinute.toNat) s
  if s1.tank.roundMinute = s1.tank.minute ∧ s1.records.openMinute < s1.tank.roundMinute.toNat then writeRecords s1 else s1

/-- As far as the Round runs. -/
def settleRound (s : State) : State := if roundRuns s then settleBoundaries s else s

/-- MINUTE_BOUNDARY (R119, R365): the Tank's minute tick. Time that stands still or is not anchored has none. -/
def execMinuteBoundary (s : State) : Host.Outcome State Fault Refusal :=
  if !s.pins.porN || !s.tank.anchored || decide (0 < s.tank.holdUs) then .next s
  else .next (copyCeLog (abortForLeases (settleRound { s with tank := { s.tank with minute := s.tank.minute + 1, usec := 0 } })))

/-- HELD_LEASE_START (R121, R123): a start that has waited is made, and the boundaries held up behind it follow. -/
def execHeldLeaseStart (region : Fin 131072) (s : State) : Host.Outcome State Fault Refusal :=
  let i := region.val
  if !isHeld s i || !roundRuns s || (getRegion s i).erasePending then .next s
  else match leaseAt s i s.tank.roundMinute.toNat with
    | none => .next (settleRound (dropHold i s))
    | some _ => .next (settleRound (startLease i (loadEntry i s)))

/-! ### ANCHOR and TRIM (R47, R115, R116) -/

/-- Device time as 8 bytes: minute, microsecond. -/
def timeBytes (s : State) : List Byte := beBytes 4 (stamp s).1.toNat ++ beBytes 4 (stamp s).2

/-- The first anchor since the cold start: no boundary is processed. Time unsynchronised is left to ANCHOR itself (R42). -/
def anchorFirst (m us : Nat) (auto : Bool) (s : State) : State :=
  let t := s.tank
  { s with tank := { t with anchored := true, timeSource := auto, minute := BitVec.ofNat 32 m, usec := us,
                            holdUs := 0, held := none, roundMinute := BitVec.ofNat 32 m },
           records := { s.records with openMinute := m } }

/-- Device time takes a later value: the boundaries between are processed at once. -/
def stepForward (us : Nat) (s : State) : State :=
  settleRound { s with tank := { s.tank with minute := BitVec.ofNat 32 (us / 60000000), usec := us % 60000000, holdUs := 0 } }

/-- ANCHOR (R115). -/
def anchorRule (f : ChainFrame) (s : State) : Reply :=
  let m := field f.payload 0 4
  let us := field f.payload 4 4
  let now := deviceUs s
  let new := m * 60000000 + us
  let sync (t : State) : State := { t with tank := { t.tank with unsync := false, timeSource := false } }
  if 60000000 ≤ us then malformed 4 s
  else if !s.tank.anchored then
    if s.tank.phase = 0x05 || s.tank.phase = 0x06 then done (timeBytes s) (anchorFirst m us false (sync s))
    else done (timeBytes s) { s with tank := { s.tank with held := some (BitVec.ofNat 32 m, us), unsync := false } }
  else if now ≤ new then done (timeBytes s) (stepForward new (sync s))
  else if s.tank.minute.toNat * 60000000 ≤ new + 3600000000 then
    done (timeBytes s) { sync s with tank := { (sync s).tank with holdUs := now - new } }
  else refuse 1 s

/-- ANCHOR: COMMAND 0x01. -/
def execAnchor (p : ChainPort) (f : ChainFrame) (s : State) : Host.Outcome State Fault Refusal :=
  .next (runCommand 0x01 p f (anchorRule f) s)

/-- A signed number of microseconds added to a time, not below zero. -/
def addUs (t : Nat) (d : Int) : Nat := ((t : Int) + d).toNat

/-- TRIM (R116). -/
def trimRule (f : ChainFrame) (s : State) : Reply :=
  let d := signedOf 32 (field f.payload 0 4)
  let us : Int := d * 1000
  if d = 0 ∨ 1000 < d.natAbs then malformed 0 s
  else if !s.tank.anchored then
    match s.tank.held with
    | none => refuse 1 s
    | some h =>
      let v := addUs (h.1.toNat * 60000000 + h.2) us
      done (timeBytes s) { s with tank := { s.tank with held := some (BitVec.ofNat 32 (v / 60000000), v % 60000000) } }
  else
    let now := deviceUs s
    let clock := addUs (now - s.tank.holdUs) us
    let s1 := if now ≤ clock then stepForward clock s else { s with tank := { s.tank with holdUs := now - clock } }
    done (timeBytes s1) s1

/-- TRIM: COMMAND 0x02. -/
def execTrim (p : ChainPort) (f : ChainFrame) (s : State) : Host.Outcome State Fault Refusal :=
  .next (runCommand 0x02 p f (trimRule f) s)

/-! ### REVOKE_LEASE (R124) -/

/-- The end of the lease that a revoke names. -/
def namedEnd (r : Region) (id : BitVec 32) : Nat := if r.leaseId = id then r.leaseEnd.toNat else r.foEnd.toNat

/-- REVOKE_LEASE: the four conditions in their order, then that of a second revoke. -/
def revokeRule (f : ChainFrame) (s : State) : Reply :=
  let w := field f.payload 0 4
  let id := BitVec.ofNat 32 (field f.payload 4 4)
  let m := BitVec.ofNat 32 (field f.payload 8 4)
  let r := getRegion s w
  if 131072 ≤ w then malformed 0 s
  else if !r.inUse then refuse 1 s
  else if id = 0 || (r.leaseId ≠ id && r.foId ≠ id) then refuse 2 s
  else if m.toNat ≤ s.tank.minute.toNat then refuse 3 s
  else if namedEnd r id < m.toNat then refuse 4 s
  else if r.revokeMinute ≠ 0xFFFFFFFF && decide (r.revokeMinute.toNat ≤ m.toNat) then refuse 5 s
  else
    let later := s.records.laterRevokes.filter (fun e => e.1 ≠ r.leaseId.toNat && e.1 ≠ r.foId.toNat)
    done [] (tenantCount r.tenant 12 1 (saveLease w (setRegion w { r with revoked := true, revokeMinute := m, revokeId := id }
      { s with records := { s.records with laterRevokes := later } })))

/-- REVOKE_LEASE: COMMAND 0x05. -/
def execRevokeLease (p : ChainPort) (f : ChainFrame) (s : State) : Host.Outcome State Fault Refusal :=
  .next (runCommand 0x05 p f (revokeRule f) s)

end Sys2Proof.Machine
end

