-- ==== Sys2Proof/Machine/Faults.lean ====
section
/-! DEFINITION. The Churn (R334 to R347): taking a fault message with all that R336 gives its class, safe state, the Churn's own
faults, and the watch over handshakes and the Bluyda core (R10, R341). -/

namespace Sys2Proof.Machine

/-! ### Taking a message (R334, R335) -/

/-- The oldest message of a class. -/
def firstOfClass (c : BitVec 2) (l : List FaultMsg) : Option FaultMsg := l.find? (fun m => m.cls = c)

/-- The message that the Churn takes next: fatal, then uncorrected, then corrected, each in order of arrival (R334). -/
def nextMessage (s : State) : Option FaultMsg :=
  (firstOfClass 2 s.churn.inbox).orElse (fun _ => (firstOfClass 1 s.churn.inbox).orElse (fun _ => s.churn.inbox.head?))

/-- A message leaves its source's buffer; a stalled message of the source takes the place (R335). -/
def dropMessage (m : FaultMsg) (s : State) : State :=
  let c := s.churn
  let left := c.inbox.erase m
  match c.stalled.find? (fun x => x.source = m.source) with
  | some x => { s with churn := { c with inbox := left ++ [x], stalled := c.stalled.erase x } }
  | none => { s with churn := { c with inbox := left } }

/-! ### Records (R336, R344 to R346) -/

/-- The fault-log record that a message gets when it is taken (R345). -/
def newRecord (s : State) (m : FaultMsg) : FaultRecord :=
  { msg := m, minute := (stamp s).1, usec := (stamp s).2, number := s.churn.next, phase := s.tank.phase, valid := true,
    journaled := false, eventSent := false, notAnchored := !s.tank.anchored, unsync := s.tank.unsync,
    journalSeq := 0xFFFFFFFFFFFFFFFF }

/-- The record enters the log, the header's counters and, for UC and FT, the black box; UC sets UC pending (R336, R344, R346). -/
def putFaultRecord (r : FaultRecord) (s : State) : State :=
  let c := s.churn
  let c1 : Churn :=
    { c with next := c.next + 1, records := Map.set FaultRecord.zero (r.number.toNat % 1024) r c.records,
             ceCount := if r.msg.cls = 0 then sat32 c.ceCount 1 else c.ceCount,
             ucCount := if r.msg.cls = 1 then sat32 c.ucCount 1 else c.ucCount,
             ftCount := if r.msg.cls = 2 then sat32 c.ftCount 1 else c.ftCount,
             ucPending := c.ucPending || r.msg.cls = 1 }
  if r.msg.cls = 0 then { s with churn := c1 }
  else
    { s with churn := { c1 with recent := Map.set FaultRecord.zero (c1.recentCount.toNat % 32) r c1.recent,
                                recentCount := c1.recentCount + 1,
                                firstFt := if r.msg.cls = 2 then c1.firstFt.orElse (fun _ => some r) else c1.firstFt } }

/-- EVENT frames are enabled for a class (R274, R314). -/
def eventWanted (s : State) (m : FaultMsg) : Bool :=
  match s.plans.plan with
  | some p => p.chainFlags.getLsbD 1 && p.eventClasses.getLsbD m.cls.toNat && (s.chain.chu.up || s.chain.chd.up)
  | none => false

/-- The second of the interval clock in which EVENTs are counted. -/
def eventSecond (s : State) : Nat := s.tank.clockUs / 1000000

/-- EVENTs already sent in this second. -/
def eventsSent (s : State) : Nat := if s.chain.eventSecond = eventSecond s then s.chain.eventCount else 0

/-- One EVENT frame with the record as payload, or one EVENT not sent when the second's limit is reached (R314). Whether the
record was carried, and the state. -/
def sendRecordEvent (r : FaultRecord) (s : State) : Bool × State :=
  if !eventWanted s r.msg then (false, s)
  else if (planOf s).eventLimit ≤ eventsSent s then (false, chainCount 0x0C 1 s)
  else
    let s1 := { s with chain := { s.chain with eventCount := eventsSent s + 1, eventSecond := eventSecond s } }
    let addr := 0x00028000 + r.number.toNat % 1024 * 0x20
    (true, sendEvent r.msg.kind (BitVec.ofNat 32 addr) (recordBytes { r with eventSent := true }) (r.msg.severity = 2) s1)

/-- A kind whose address is a DMA when it lies below the physical form (R211). -/
def carriesDma (m : FaultMsg) : Bool :=
  (m.kind = 0x70 || (decide (1 ≤ m.kind.toNat) && decide (m.kind.toNat ≤ 6))) && decide (m.addr.toNat < 0xE00000000)

/-- The region and tenant fields of a type 0x60 entry (R323). -/
def lineOwner (s : State) (m : FaultMsg) : List Byte :=
  match (if carriesDma m then regionOf s m.addr.toNat else none) with
  | some e => beBytes 4 e.1 ++ beBytes 2 e.2.tenant
  | none => List.replicate 6 0xFF

/-- The type 0x60 entry of a fault record (R323); a late entry keeps the record's own time (R322). -/
def faultEntry (s : State) (r : FaultRecord) (late : Bool) : JEntry :=
  { seq := none, minute := r.minute, usec := r.usec, source := r.msg.source, etype := 0x60,
    flags := BitVec.ofNat 8 (128 + bit late 6 + bit r.unsync 5 + bit r.notAnchored 4), result := BitVec.ofNat 32 r.msg.kind.toNat,
    args := padTo 40 (beBytes 8 (faultWord r.msg).toNat ++ beBytes 4 r.number.toNat ++ lineOwner s r.msg ++ [0, 0] ++
      beBytes 8 r.msg.detail.toNat),
    faultRecord := some r.number }

/-- A message is journaled when it is taken: UC messages, and kind 0x09; not where its event has a type of its own (R322). -/
def journaledAtOnce (m : FaultMsg) : Bool := !m.ownEntry && (m.cls = 1 || m.kind = 0x09)

/-! ### Safe state (R339 to R342) -/

/-- The message and record that caused the safe state in force (R344, R379). -/
def setCause (r : FaultRecord) (s : State) : State :=
  { s with churn := { s.churn with cause := r.number, causeMsg := some r.msg, causeMinute := r.minute, causeUsec := r.usec } }

/-- A handshake receiver inside the management island: the core and its engines (R333, R341). -/
def inManagement (addr : Nat) : Bool :=
  addr = 0x080 || addr = 0x081 || addr = 0x082 || addr = 0x083 || addr = 0x085 || addr = 0x086

/-- Kinds that leave the Bluyda core held in reset (R341). -/
def holdsCore (m : FaultMsg) : Bool := m.kind = 0x64 || (m.kind = 0x61 && inManagement m.addr.toNat)

/-- A fatal message of stop severity (R340, R341, R246). -/
def takeStop (r : FaultRecord) (s : State) : State :=
  let s1 := if s.churn.safe = 0 then setCause r s else s
  let s2 := enterStop s1
  { s2 with tank := { s2.tank with coreHeld := s2.tank.coreHeld || holdsCore r.msg },
            thermal := { s2.thermal with shutdown := s2.thermal.shutdown || (s.churn.safe = 0 && r.msg.kind = 0x22),
                                         recheck := s2.thermal.recheck || r.msg.kind = 0x22 } }

/-- A fatal message of lock severity (R342): the cause moves to it unless a lock is in force already. -/
def takeLock (r : FaultRecord) (s : State) : State :=
  enterLock (if s.churn.safe = 2 && s.churn.causeMsg.isSome then s else setCause r s)

/-- What a message does when the Churn takes it (R336). -/
def takeMessage (m : FaultMsg) (s : State) : State :=
  let s0 := dropMessage m s
  let e := sendRecordEvent (newRecord s0 m) s0
  let r := { newRecord s0 m with eventSent := e.1 }
  let s1 := putFaultRecord r e.2
  let s2 := if journaledAtOnce m then pushEntry (faultEntry s1 r false) s1 else s1
  if m.severity = 1 then takeStop r s2 else if m.severity = 2 then takeLock r s2 else s2

/-- The Churn takes a message, as it can once the Tank runs. -/
def takeNext (s : State) : State :=
  match nextMessage s with
  | some m => takeMessage m s
  | none => s

/-- The Churn runs while POR_N is high, and in lock-severity safe state (R347). A lock latched before that has been recorded by the supply monitor (R36). -/
def churnRuns (s : State) : Bool := porHigh s

/-- FAULT_MESSAGE (R334 to R346): the Churn takes one message. -/
def execFaultMessage (s : State) : Host.Outcome State Fault Refusal := if churnRuns s then .next (takeNext s) else .next s

/-- Takes the messages that wait, at most `n`, while the start word stays at the phase given. -/
def takeWaiting (phase : Byte) : Nat → State → State
  | 0, s => s
  | n + 1, s => if s.tank.phase = phase && nextMessage s ≠ none then takeWaiting phase n (takeNext s) else s

/-- All messages that wait are taken. -/
def settleChurn (s : State) : State :=
  takeWaiting s.tank.phase (s.churn.inbox.length + s.churn.stalled.length) s

/-! ### Faults in the Churn itself (R343) -/

/-- The register index in the address of kind 0x60; 0xFFF for a stalled crossing. -/
def churnAddress : ChurnCause → BitVec 36
  | .parity r => r.setWidth 36
  | .latch r => r.setWidth 36
  | .stalled => 0xFFF

/-- The kind 0x60 word that the Tank writes by its own path. -/
def churnMessage (c : ChurnCause) : FaultMsg :=
  { source := 0x0F0, kind := 0x60, cls := 2, severity := 2, addr := churnAddress c, ownEntry := true, detail := 0 }

/-- The lock that a fault of the Churn itself brings. Without a record the cause reads 0xFFFF_FFFF. -/
def churnLock (c : ChurnCause) (pointersOk : Bool) (s : State) : State :=
  let r := newRecord s (churnMessage c)
  if pointersOk then enterLock (setCause r (putFaultRecord r s))
  else
    let s1 := setCause r s
    enterLock { s1 with churn := { s1.churn with cause := 0xFFFFFFFF } }

/-- CHURN_FAULT (R343): a parity error, latches that disagree, or a crossing that has held a message for 10 µs. -/
def execChurnFault (cause : ChurnCause) (pointersOk : Bool) (s : State) : Host.Outcome State Fault Refusal :=
  if porHigh s then .next (churnLock cause pointersOk s) else .next s

/-! ### Handshakes and the core (R10, R341) -/

/-- HANDSHAKE_TIMEOUT (R10): a crossing has not moved for 10 µs; the sender raises kind 0x61 with the receiver's source ID. A
crossing into the Churn is governed by R343, and a source ID that is not assigned is never sent (R333). -/
def execHandshakeTimeout (sender receiver : BitVec 12) (s : State) : Host.Outcome State Fault Refusal :=
  if porHigh s && sourceAssigned sender && sourceAssigned receiver && receiver ≠ 0x0F0 then .next (raise sender.toNat 0x61 receiver.toNat s) else .next s

/-- HEARTBEAT (R341): the firmware writes the Tank's heartbeat. -/
def execHeartbeat (s : State) : Host.Outcome State Fault Refusal :=
  if coreRuns s then .next { s with tank := { s.tank with heartbeatUs := 0 } } else .next s

/-- The core is watched: it runs, its ROM has read the OTP, no warm drain is under way, and no lock holds it (R341). -/
def coreWatched (s : State) : Bool := coreRuns s && s.tank.phase ≠ 0x01 && s.tank.phase ≠ 0x10 && s.tank.phase ≠ 0xF1

/-- WATCHDOG_EXPIRY (R341): 100 ms have passed with no heartbeat; kind 0x64 with address 0x1, and the core is held in reset. -/
def execWatchdogExpiry (s : State) : Host.Outcome State Fault Refusal :=
  if coreWatched s then .next (raise 0x080 0x64 1 { s with tank := { s.tank with coreHeld := true } }) else .next s

end Sys2Proof.Machine
end

