-- ==== Sys2Proof/Machine/Supplies.lean ====
section
/-! DEFINITION. Supplies, POR_N and REFCLK (R27 to R38, R44 steps 1 and 2, R347): the supply and clock monitor, power-down, and the
cold reset. -/

namespace Sys2Proof.Machine

/-! ### The supply monitor (R36, R37) -/

/-- Rail code of R28. -/
def railCode : Rail → Nat
  | .vddc => 1
  | .vddm => 2
  | .vdda => 3
  | .vpp => 4
  | .vdds => 5
  | .vddt => 6
  | .vddio => 7
  | .vddk => 8

/-- The step of R31 at which a rail starts. -/
def railStep : Rail → Nat
  | .vddk => 1
  | .vddio => 1
  | .vpp => 2
  | .vdda => 3
  | .vddc => 4
  | .vddm => 4
  | .vdds => 5
  | .vddt => 6

/-- All rails. -/
def allRails : List Rail := [.vddc, .vddm, .vdda, .vpp, .vdds, .vddt, .vddio, .vddk]

/-- A rail's bit of a mask by rail code. -/
def railBit (mask : Byte) (r : Rail) : Bool := mask.getLsbD (railCode r - 1)

/-- Every rail of the steps before a rail's own is up (R31). -/
def earlierUp (up : Byte) (r : Rail) : Bool := allRails.all (fun x => decide (railStep r ≤ railStep x) || railBit up x)

/-- The address field of a monitor message (R37). -/
def monitorAddr (event layer rail : Nat) : Nat := event * 256 + layer * 16 + rail

/-- The event codes of R37 for kind 0x51. -/
def seqCode : SeqEvent → Nat
  | .order => 2
  | .skew => 3
  | .foundUp => 5

/-- A supply sequence violation: kind 0x51. Before POR_N rises it latches the lock itself (R36, R339). -/
def violate (e : SeqEvent) (r : Rail) (s : State) : State :=
  let s1 := raise 0x0FF 0x51 (monitorAddr (seqCode e) 0 (railCode r)) s
  if s.pins.porN then s1 else { s1 with tank := { s1.tank with lockLatch := 7 } }

/-- The condition of a sequence event holds: the monitor has its own supply, and an order event is a rail below 80 % of nominal while
PWR_OK is high, or a rail that has started before an earlier step is up (R35, R36). -/
def eventHolds (e : SeqEvent) (r : Rail) (s : State) : Bool :=
  railBit s.pins.up .vddk && (e ≠ .order || s.pins.pwrOk || (railBit s.pins.started r && !earlierUp s.pins.up r))

/-- SUPPLY_SEQUENCE_VIOLATION (R36): the monitor sees an order, skew or found-up event. -/
def execSupplySequenceViolation (event : SeqEvent) (rail : Rail) (s : State) : Host.Outcome State Fault Refusal :=
  .next (if eventHolds event rail s then violate event rail s else s)

/-- A rail goes down: it is neither up nor started any more. -/
def railFalls (r : Rail) (s : State) : State :=
  let up := clearBit8 s.pins.up (railCode r - 1)
  { s with pins := { s.pins with started := clearBit8 s.pins.started (railCode r - 1), up := up,
                                 coreUpAt := if railBit up .vddc || railBit up .vddm then s.pins.coreUpAt else none } }

/-- SUPPLY_OUT_OF_WINDOW (R30, R34, R36, R37): a rail leaves its window for `ns`; shorter than 20 ns nothing is seen, nor without VDDK. A
layer's VDDA or VPP below its window is reported at any time, the other events while PWR_OK is high; a rail that leaves its window downwards
with PWR_OK low goes down (DEDUCED, notes/assumptions/43.md). -/
def execSupplyOutOfWindow (rail : Rail) (layer : Option (Fin 16)) (high : Bool) (ns : Nat) (s : State) :
    Host.Outcome State Fault Refusal :=
  let a (l : Nat) : Nat := monitorAddr (if high then 1 else 0) l (railCode rail)
  if ns < 20 || !railBit s.pins.up .vddk then .next s
  else match layer with
    | some l =>
      if (rail = .vdda || rail = .vpp) && (!high || s.pins.pwrOk) then .next (raise 0x0FF 0x50 (a l.val) s) else .next s
    | none =>
      if s.pins.pwrOk then .next (raise 0x0FF 0x50 (a 0) s)
      else if high || rail = .vddk then .next s
      else .next (railFalls rail s)

/-- A rail passes 10 % of nominal: an order event when an earlier step is not up; the monitor runs from VDDK (R31, R36). -/
def railStarts (r : Rail) (s : State) : State :=
  let s1 := { s with pins := { s.pins with started := setBit8 s.pins.started (railCode r - 1) } }
  if railBit s.pins.started r || !railBit s.pins.up .vddk || earlierUp s.pins.up r then s1 else violate .order r s1

/-- VDDK is up: the rails that it finds started, VDDIO excepted (R36). -/
def foundRails (s : State) : List Rail :=
  allRails.filter (fun x => x ≠ .vddio && x ≠ .vddk && railBit s.pins.started x)

/-- The later of VDDC and VDDM came up more than 1 ms after the earlier (R36). -/
def skewed (s : State) : Bool := (s.pins.coreUpAt.map (fun t => decide (t + 1000 < s.tank.clockUs))).getD false

/-- A rail reaches 90 % of nominal (R31, R36). -/
def railFull (r : Rail) (s : State) : State :=
  if railBit s.pins.up r then s
  else
    let s1 := { s with pins := { s.pins with up := setBit8 s.pins.up (railCode r - 1) } }
    if r = .vddk then forEach (foundRails s1) (violate .foundUp) s1
    else if r = .vddc || r = .vddm then
      if s.pins.coreUpAt = none then { s1 with pins := { s1.pins with coreUpAt := some s.tank.clockUs } }
      else if skewed s && railBit s.pins.up .vddk then violate .skew r s1 else s1
    else s1

/-- RAIL_UP (R31, R36): a rail starts, or is up. -/
def execRailUp (rail : Rail) (full : Bool) (s : State) : Host.Outcome State Fault Refusal :=
  .next (if full then railFull rail (railStarts rail s) else railStarts rail s)

/-- PWR_OK_RISE (R36): the checks that apply while PWR_OK is high are armed. -/
def execPwrOkRise (s : State) : Host.Outcome State Fault Refusal := .next { s with pins := { s.pins with pwrOk := true } }

/-! ### PWR_OK falls (R35) -/

/-- Every initialised channel goes into self-refresh through the Tank's direct path; no request is admitted any more, and those admitted
are lost wherever they wait. -/
def sleepAll (s : State) : State :=
  forEach (upTo 64) (fun ch t => if (getChan t ch).initialised then enterSelfRefresh ch t else t)
    { s with path := .empty, slow := { s.slow with reserve := [] },
             sep := { s.sep with waiting := [], inits := s.sep.inits.map (fun x => { x with heldReqs := [] }),
                                 rewrites := s.sep.rewrites.map (fun x => { x with heldReqs := [] }) } }

/-- PWR_OK_FALL (R35): kind 0x50, the quiesced state that only a cold reset leaves, and, when the rails stay in window for 5 µs,
the type 0x03 entry with the rails in window, written with those before it while the DRAM still takes it. -/
def execPwrOkFall (railsIn : Byte) (stable : Bool) (s : State) : Host.Outcome State Fault Refusal :=
  if !s.pins.pwrOk then .next s
  else if !s.pins.porN then .next { s with pins := { s.pins with pwrOk := false } }
  else
    let s1 := raise 0x0FF 0x50 (monitorAddr 4 0 0xF) { s with pins := { s.pins with pwrOk := false, powerFail := true } }
    let s2 := idlePorts s1
    .next (sleepAll (if stable then flushJournal 512 (journalEvent 0x0FF 0x03 0 [railsIn] s2) else s2))

/-! ### REFCLK (R36, R38) -/

/-- A chain port loses its clock: its link is down and its hop broken. -/
def stopChainPort (p : ChainPort) (s : State) : State :=
  if !(getCPort s p).up then s
  else
    let s1 := breakHop p 0 s
    setCPort p { getCPort s1 p with up := false, quiet := false, driverOn := false, rx := .continuous, queue := [], awaiting := [],
                                    retryUs := s.tank.clockUs } s1

/-- REFCLK_STOPPED (R36): no edge for 200 ns; with POR_N high kind 0x52, once until it is restored. Without its clock nothing but the Tank
runs, and device time is unsynchronised. -/
def execRefclkStopped (s : State) : Host.Outcome State Fault Refusal :=
  if !s.pins.porN then .next { s with pins := { s.pins with refclkOk := false, pllLocked := false } }
  else if !s.pins.refclkOk && s.pins.refclkHold then .next s
  else
    let s1 := raise 0x0FF 0x52 (monitorAddr 6 0 0xC)
      { s with pins := { s.pins with refclkOk := false, refclkHold := true, pllLocked := false },
               tank := { s.tank with unsync := true, coreRunning := false } }
    .next (stopChainPort .chd (stopChainPort .chu s1))

/-- REFCLK_OFF_FREQUENCY (R36): kind 0x52. -/
def execRefclkOffFrequency (s : State) : Host.Outcome State Fault Refusal :=
  if !s.pins.porN || !s.pins.refclkOk then .next s
  else .next (raise 0x0FF 0x52 (monitorAddr 7 0 0xC) { s with pins := { s.pins with refclkHold := true } })

/-- REFCLK_RESTORED (R38, R347): REFCLK has met its requirements for 1 ms; after a stop that was reported the PLLs lock again, and WRST_N is
honoured, a low of it that lasts included. -/
def execRefclkRestored (s : State) : Host.Outcome State Fault Refusal :=
  if s.pins.refclkOk && !s.pins.refclkHold then .next s
  else if !s.pins.porN || !s.pins.refclkHold then .next { s with pins := { s.pins with refclkOk := true, refclkHold := false } }
  else
    let stopped := !s.pins.refclkOk
    let s1 := { s with pins := { s.pins with refclkOk := true, refclkHold := false, pllLocked := true },
                       tank := { s.tank with coreRunning := s.tank.coreRunning || stopped,
                                             heartbeatUs := if stopped then 0 else s.tank.heartbeatUs } }
    .next (if s.tank.clockUs < s.pins.wrstUntil && !wrstIgnored s1 then wrstRecognised s1 else s1)

/-! ### POR_N and the supplies (R44, R347) -/

/-- A cold reset: every field at its reset value but what the OTP and the flash hold, the pins, and what has left the ports (R57). -/
def coldReset (s : State) : State :=
  { State.reset with
    pending := s.pending, free := s.free, pins := s.pins, otp := { Otp.reset with cells := s.otp.cells }, flash := s.flash,
    tank := { Tank.reset with clockUs := s.tank.clockUs, lockLatch := s.tank.lockLatch },
    dataSent := s.dataSent, chainSent := s.chainSent }

/-- The device is in lock-severity safe state, or its latch is set. -/
def locked (s : State) : Bool := majority s.tank.lockLatch

/-- A low of POR_N is seen: the device is held in cold reset. In lock-severity safe state it has no effect but on the pins (R347). -/
def porFalls (s : State) : State :=
  let pins := { s.pins with porN := false }
  if locked s then { s with pins := pins }
  else coldReset { s with pins := { pins with powerFail := false, refclkHold := false, pllLocked := false } }

/-- POR_N_FALL (R44, R391): POR_N goes low for `lowUs`; pulses of 1 µs and less are ignored, those of 10 µs and more are seen. -/
def execPorNFall (lowUs : Nat) (s : State) : Host.Outcome State Fault Refusal :=
  if !s.pins.porN || lowUs ≤ 1 then .next s
  else if lowUs < 10 then .next (if Config.shortPor s.free then porFalls (drawn s) else drawn s)
  else .next (porFalls s)

/-- The QPN pointer takes a drawn value (R87). -/
def drawPointer (s : State) : State :=
  let d := generate 18 s
  { d.2 with qpnPtr := BitVec.ofNat 24 (0x100 + d.1.toNat) }

/-- What a start draws: the DRBG is instantiated, with a challenge and the QPN pointer (R87, R132, R313). The wait for a good sample of the
entropy source begins. -/
def startDraws (s : State) : State :=
  drawPointer (drawChallenge (instantiate { s with drbg := { s.drbg with lastGoodUs := s.tank.clockUs } }))

/-- Step 1 of R44: HEAD is sampled, the Tank starts; messages that the monitor raised before wait for the Churn. A lock latched
before POR_N ends the start in phase 0xF1. -/
def porRises (head : Bool) (s : State) : State :=
  let c := s.churn
  let s1 := coldReset { s with pins := { s.pins with porN := true, head := head, nvReleaseUs := s.tank.clockUs + 100 } }
  let s2 := { s1 with churn := { s1.churn with inbox := c.inbox, stalled := c.stalled } }
  if locked s then
    { s2 with tank := { s2.tank with phase := 0xF1, stopLatch := 7, lockLatch := 7, coreHeld := true },
              churn := { s2.churn with safe := 2 } }
  else startDraws s2

/-- POR_N_RISE (R27, R44): the cold start begins; in lock-severity safe state nothing does. -/
def execPorNRise (head : Bool) (s : State) : Host.Outcome State Fault Refusal :=
  if s.pins.porN then .next s
  else if s.tank.phase = 0xF1 then .next { s with pins := { s.pins with porN := true, nvReleaseUs := s.tank.clockUs + 100 } }
  else .next (porRises head s)

/-- ISLAND_PLL_LOCK (R44): the PLLs lock, and the core leaves reset and runs from ROM. -/
def execIslandPllLock (s : State) : Host.Outcome State Fault Refusal :=
  if !s.pins.porN || s.pins.pllLocked || !s.pins.refclkOk then .next s
  else .next { s with pins := { s.pins with pllLocked := true }, tank := { s.tank with coreRunning := true, heartbeatUs := 0 } }

/-- SUPPLY_REMOVAL (R34, R347): VDDK falls. Nothing is left but the OTP, the flash, and what has left the ports. The pins are taken as POR_N
and PWR_OK low and WRST_N high (DESIGN CHOICE, notes/assumptions/97.md). -/
def execSupplyRemoval (s : State) : Host.Outcome State Fault Refusal :=
  let s1 := coldReset { s with tank := { s.tank with lockLatch := 0 } }
  .next { s1 with pins := { s1.pins with started := 0, up := 0, coreUpAt := none, pwrOk := false, porN := false, wrstUntil := 0,
                                         head := false, nvReleaseUs := 0, refclkHold := false, powerFail := false,
                                         pllLocked := false } }

end Sys2Proof.Machine
end

