-- ==== Sys2Proof/Machine/Start.lean ====
section
/-! DEFINITION. The cold start (R43 to R50): the margin read, the layers, the factory area, the fill, the choice of a plan, and the
opening of service. A warm start takes the same steps again (R55, R56). -/

namespace Sys2Proof.Machine

/-- The phase and halt reason of the start word. -/
def setPhase (p halt : Byte) (s : State) : State := { s with tank := { s.tank with phase := p, haltReason := halt } }

/-- Every initialised channel goes into self-refresh. -/
def sleepChannels (s : State) : State :=
  forEach (upTo 64) (fun ch t => if (getChan t ch).initialised && !(getChan t ch).selfRefresh then enterSelfRefresh ch t else t) s

/-- A halt ends a start (R33, R49). A warm start that halts keeps DRAM in self-refresh (R285). -/
def haltStart (p halt : Byte) (s : State) : State :=
  endColdStart (setPhase p halt (if s.tank.lastReset ≠ 0 && s.tank.filled then sleepChannels s else s))

/-! ### Step 4: the margin read (R349, R353 to R355, R362) -/

/-- Kind 0x40 for each marginal word, kind 0x41 for each section that is sealed and incomplete (R354, R355). -/
def reportOtp (s : State) : State :=
  let s1 := forEach (s.otp.read.filter (fun (e : Nat × OtpRead) => e.2.marginal)) (fun e t => raise 0x085 0x40 e.1 t) s
  forEach (upTo 8) (fun k t => if sectionState s k = 2 then raise 0x085 0x41 (1953 + 2 * k) t else t) s1

/-- Kind 0x73 for a gap in the fuse groups or a foreign value (R349). -/
def reportFuses (s : State) : State :=
  if fuseGap s then raise 0x085 0x73 1 s else if foreignFuse s then raise 0x085 0x73 2 s else s

/-- The OTP as the margin read finds it: the life-cycle state, the ROM patches, and what is to be reported. -/
def readOtp (weak : List WeakWord) (s : State) : State :=
  let s1 := { s with otp := { s.otp with read := marginRead weak s.otp.cells, live := marginRead weak s.otp.cells } }
  let n := patchCounts s1
  reportFuses (reportOtp
    { s1 with otp := { s1.otp with life := BitVec.ofNat 8 (fuseState s1), patches := n.1, ignored := n.2, replaces := patchesOf s1 1, jumps := [] } })

/-- BLANK and END end a start (R49). -/
def lifeHalt (s : State) : Option Byte := if s.otp.life = 0 then some 2 else if s.otp.life = 4 then some 5 else none

/-- OTP_MARGIN_READ (R44 step 4, R353). -/
def execOtpMarginRead (weak : List WeakWord) (s : State) : Host.Outcome State Fault Refusal :=
  if s.tank.phase ≠ 0x01 || !coreRuns s then .next s
  else
    let s1 := readOtp weak s
    match lifeHalt s1 with
    | some r => .next (haltStart 0xE1 r s1)
    | none => .next (setPhase 0x02 0 s1)

/-! ### Step 6: the layers (R180, R182, R184, R360) -/

/-- A channel cannot be kept correct with its spares at a start: it is retired, with a relief channel and nothing to copy (R49, R186). -/
def retireAtStart (ch : Nat) (s : State) : State :=
  let s1 := startRetirement ch s
  leaveChannel ch (reliefChannel s1 ch) s1

/-- A failed vertical path found when a layer is initialised: a lane, unless a spare stands for it already, a spare lane, or one that no
spare can stand for (R183 to R185). -/
def badPath (ch p : Nat) (s : State) : State :=
  if isRetired s ch then s
  else if p < 72 then
    if (getChan s ch).spares.any (fun e => e.1 = p) then s
    else
      let s1 := failLane ch p s
      if s1.retiring.contains ch then retireAtStart ch s1 else s1
  else if p < 76 then
    let c := getChan s ch
    match c.spares.find? (fun e => e.2 = p - 72) with
    | some e =>
      let s1 := failLane ch e.1 s
      if s1.retiring.contains ch then retireAtStart ch s1 else s1
    | none => setChan ch { c with badSpares := NSet.add (p - 72) c.badSpares } s
  else retireAtStart ch s

/-- The repair entries in use, and how many are ignored with the patches skipped (R360, R362, R370). -/
def loadRepairs (s : State) : State :=
  let r := hardRepairs s
  { s with otp := { s.otp with repairs := r.1.map (BitVec.ofNat 32), ignored := (patchCounts s).2 + r.2 } }

/-- A lane entry of the OTP: its spare carries the lane (R184, R359, R360). A spare that a soft repair has taken is given up by the lane that
holds it, which takes another. -/
def repairLane (e : BitVec 32) (s : State) : State :=
  let el := repairElement e.toNat
  let ch := el.2.1
  let l := el.2.2.2
  let sp := repairSpare e.toNat
  let c := getChan s ch
  if el.1 ≠ 3 || isRetired s ch || c.spares.contains (l, sp) then s
  else
    let out := (c.spares.filter (fun x => x.2 = sp && x.1 ≠ l)).map (fun x => x.1)
    let c1 := { c with failedLanes := NSet.add l (c.failedLanes.filter (fun x => !out.contains x)),
                       spares := c.spares.filter (fun x => x.1 ≠ l && x.2 ≠ sp) ++ [(l, sp)] }
    forEach out (failLane ch) (setChan ch c1 s)

/-- All layers are initialised, hard repairs loaded, the row-disturb generators seeded (R177), and the paths that fail replaced where
spares allow. -/
def initLayers (bad : List (Nat × Nat)) (s : State) : State :=
  let s1 := forEach (upTo 64) (fun ch t => seedSampler ch (setChan ch { Chan.zero with initialised := true } t)) s
  let s2 := loadRepairs { s1 with banks := [] }
  let s3 := forEach s2.otp.repairs repairLane s2
  forEach (bad.filter (fun x => decide (x.2 < 72))) (fun x t => badPath x.1 x.2 t)
    (forEach (bad.filter (fun x => decide (72 ≤ x.2))) (fun x t => badPath x.1 x.2 t) s3)

/-- LAYER_INITIALISATION (R44 step 6, R49). -/
def execLayerInitialisation (badPaths : List (Fin 64 × Fin 92)) (s : State) : Host.Outcome State Fault Refusal :=
  if s.tank.phase ≠ 0x02 || (getChan s 0).initialised || s.pins.powerFail then .next s
  else .next (initLayers (badPaths.map (fun x => (x.1.val, x.2.val))) s)

/-! ### Step 7: the factory area (R181, R237, R251, R252) -/

/-- The 8 MiB of the factory area. -/
def factoryArea (s : State) : List Byte := flashRead s 0 8388608

/-- The area's SHA-384 equals the hash in OTP (R251). -/
def factoryMatches (s : State) : Bool := otpHash s 80 = some (sha384 (factoryArea s))

/-- Offset, length and version of a table of the factory directory (R252). -/
def factoryTable (s : State) (ty : Nat) : Option (Nat × Nat × Nat) :=
  let head := flashRead s 0 1032
  ((upTo (min 64 (field head 6 2))).find? (fun i => field head (8 + 16 * i) 1 = ty)).map (fun i =>
    (field head (12 + 16 * i) 4, field head (16 + 16 * i) 4, field head (20 + 16 * i) 2))

/-- The bytes of a table of a length, or zeros where the directory names none. -/
def tableBytes (s : State) (ty n : Nat) : List Byte :=
  match factoryTable s ty with
  | some t => flashRead s t.1 n
  | none => List.replicate n 0

/-- A thermal-model record (R237). -/
def readTherm (b : List Byte) : ThermRecord :=
  { kb := field b 0 2, ka := field b 2 2, kp := field b 4 2, k0 := signedOf 16 (field b 6 2),
    tau := if field b 8 2 = 0 then 1 else field b 8 2, tr := signedOf 16 (field b 10 2), rr := field b 12 2, slope := field b 14 1 }

/-- The tables of the factory area are read, the lane delays written to engines and layers, and the firmware loaded, from when on the jump
patches act (R182, R252, R362). -/
def loadFactory (s : State) : State :=
  let th := tableBytes s 2 256
  let sd := tableBytes s 3 448
  { s with
    factory := { checked := true, laneDelays := tableBytes s 1 12288,
                 therm := (upTo 16).map (fun i => readTherm ((th.drop (16 * i)).take 16)),
                 serdes := (upTo 16).map (fun i => (sd.drop (28 * i)).take 28) },
    otp := { s.otp with jumps := patchesOf s 2, fwVersion := BitVec.ofNat 16 (((factoryTable s 4).map (fun t => t.2.2)).getD 0) } }

/-- FACTORY_AREA_CHECK (R44 steps 7 and 8, R49, R251). -/
def execFactoryAreaCheck (s : State) : Host.Outcome State Fault Refusal :=
  if s.tank.phase ≠ 0x02 || !(getChan s 0).initialised then .next s
  else if factoryMatches s then .next (setPhase 0x03 0 (loadFactory s))
  else .next (haltStart 0xE1 1 (raise 0x086 0x30 0 s))

/-! ### Step 9: the fill (R46, R56, R214) -/

/-- Fault-log records of stop-severity faults that no entry has been written for yet, in order of number (R322). -/
def lateRecords (s : State) : List FaultRecord :=
  let waiting (r : FaultRecord) : Bool := s.journal.queue.any (fun e => e.faultRecord = some r.number)
  ((s.churn.records.map (fun (e : Nat × FaultRecord) => e.2)).filter (fun r =>
    r.valid && r.msg.severity = 1 && !r.journaled && !waiting r)).insertionSort (fun a b => a.number.toNat ≤ b.number.toNat)

/-- The late entries of fatal faults (R322). -/
def lateEntries (s : State) : List JEntry := (lateRecords s).map (fun r => faultEntry s r true)

/-- An entry recorded now, not yet queued. -/
def entryNow (s : State) (src : Nat) (ty : Byte) (args : List Byte) : JEntry :=
  { seq := none, minute := (stamp s).1, usec := (stamp s).2, source := BitVec.ofNat 12 src, etype := ty, flags := entryFlags false s,
    result := 0, args := padTo 40 args, faultRecord := none }

/-- The type 0x01 entry (R323). -/
def coldEntry (s : State) : JEntry :=
  let marginal := (s.otp.read.filter (fun (e : Nat × OtpRead) => e.2.marginal)).length
  entryNow s 0x084 0x01 (beBytes 8 s.journal.bootId.toNat ++ beBytes 8 s.retired.toNat ++ [s.otp.life, BitVec.ofNat 8 (bit s.pins.head 0)] ++
    beBytes 2 marginal)

/-- The type 0x02 entry (R323): torn lines, rows restored, and the work that resumes. -/
def warmEntry (torn rows resumed : Nat) (s : State) : JEntry :=
  let t := s.tank
  entryNow s 0x084 0x02 ([BitVec.ofNat 8 t.lastReset.toNat, t.warmCount, 0, 0] ++ beBytes 4 torn ++ beBytes 8 t.forcedMask.toNat ++
    beBytes 4 rows ++ beBytes 4 (resumed * 2 ^ 24) ++ beBytes 4 t.drainAt.1.toNat ++ beBytes 4 t.drainAt.2)

/-- The fill: memory in the form of R46, BIST markers empty, the journal's first entries, and those that have waited. -/
def fillMemory (s : State) : State :=
  let d := generate 64 s
  let s1 := { d.2 with journal := { d.2.journal with bootId := d.1, nextSeq := 0, written := 0 } }
  let warm := if s.tank.lastReset = 0 then [] else lateEntries s1 ++ [warmEntry 0 0 0 s1]
  let first := coldEntry s1 :: warm
  settleJournal
    { s1 with dram := { data := [], poison := [], upsets := [], waits := [] }, remap := [], retirements := [], metaCache := [], pageCache := [], misread := [],
              bist := { s1.bist with chans := mapTable BistCh.zero (fun y => { y with marker := none }) s1.bist.chans },
              tank := { s1.tank with filled := true, forcedMask := 0 },
              journal := { s1.journal with queue := first ++ s1.journal.queue },
              skim := { Skim.reset with running := true, passStart := (stamp s).1 } }

/-- MEMORY_FILL (R44 step 9, R46, R214). -/
def execMemoryFill (s : State) : Host.Outcome State Fault Refusal :=
  if s.tank.phase ≠ 0x03 || s.pins.powerFail then .next s else .next (setPhase 0x04 0 (fillMemory s))

/-! ### Step 10: the banks (R47, R49, R257, R259) -/

/-- The class of kind 0x30 for an invalid bank (R257). -/
def bankClass (otherOk : Bool) : BitVec 2 := if otherOk then 0 else 1

/-- The state of a bank that fails a check: empty without its magic, else invalid. -/
def failedBank (k : Bank) (e : Nat × Nat) (s : State) : State := setBS k (if e.1 = 1 then 0 else 1) e.1 e.2 s

/-- A bank that fails checks 1 to 12 at a start: its state and kind 0x30. -/
def invalidBank (k : Bank) (e : Nat × Nat) (otherOk : Bool) (s : State) : State :=
  raiseAs (bankClass otherOk) 0x080 0x30 (bankCode k + 1) (failedBank k e s)

/-- A bank that passes: armed, staged, or disarmed (R259). -/
def validBank (k : Bank) (s : State) : State :=
  let w := armWord s k
  if w = 0x5A5A5A5A then setBS k 6 0 0 s
  else if w = 0xFFFFFFFF then setBS k 3 0 0 s
  else setBS k 7 (if (getBS s k).state = 7 then (getBS s k).reason.toNat else 0) (if (getBS s k).state = 7 then (getBS s k).detail.toNat else 0) s

/-- The form of a bank passes. -/
def formOk (s : State) (k : Bank) : Bool :=
  match checkBankForm s k with
  | .ok _ => true
  | .error _ => false

/-- The bank passes checks 1 to 12. -/
def bankPasses (s : State) (k : Bank) : Bool :=
  match checkBank s k with
  | .ok _ => true
  | .error _ => false

/-- One bank's checks; a bank that is being staged is left alone. -/
def checkAtStart (k : Bank) (s : State) : State :=
  if s.plans.target = some k then s
  else match checkBankForm s k with
    | .error e => invalidBank k e (formOk s (otherBank k)) s
    | .ok _ => validBank k s

/-- A bank takes part in the selection: valid and armed (R259). -/
def armed (s : State) (k : Bank) : Bool := (getBS s k).state = 6

/-- The held clock becomes device time at phase 0x05, of a unit that the BMC has addressed (R47). -/
def takeHeld (s : State) : State :=
  match s.tank.held with
  | some h => if s.tank.anchored || s.tank.addr = 0 || !s.tank.addrFromBmc then s else anchorFirst h.1.toNat h.2 false s
  | none => s

/-- PLAN_BANK_CHECK (R44 step 10, R49, R257); with no armed bank left the halt reason is 0x03 (R42, notes/assumptions/48.md). -/
def execPlanBankCheck (s : State) : Host.Outcome State Fault Refusal :=
  if s.tank.phase ≠ 0x04 then .next s
  else
    let s1 := checkAtStart .b (checkAtStart .a s)
    if armed s1 .a || armed s1 .b then .next (setPhase 0x05 0 (takeHeld s1)) else .next (haltStart 0xE0 3 s1)

/-! ### Step 12: the plan (R47, R48, R281) -/

/-- The armed banks in the order they are tried: one adopted in a halt first, else the newer first, a tie to A (R48, R258). -/
def bankOrder (s : State) : List Bank :=
  let newer : List Bank := if newerSeq (getBS s .b).seq (getBS s .a).seq then [.b, .a] else [.a, .b]
  let l := newer.filter (armed s)
  match s.plans.forced with
  | some k => if l.contains k then k :: l.filter (· ≠ k) else l
  | none => l

/-- The set that a lane's training starts from: the last accepted one, or the default of the factory area (R80). -/
def startSet (s : State) (l : Nat) : List Byte :=
  let y := getLane s l
  if y.accepted = [] then (s.factory.serdes[l]?).getD [] else y.accepted

/-- The port modes are set, and link training begins on every port that the plan uses (R44 step 12, R60). -/
def beginTraining (s : State) : State :=
  let s1 := forEach (upTo 16) (fun p t =>
    let m := quadMode t (p / 4)
    let on := portPresent t p
    setPort p { Port.zero with present := on, mode := if on then BitVec.ofNat 4 m.1 else 0, training := on,
                               lossless := if on then ((ifaceOf t (p / 4)).map (fun i => i.lossless)).getD 0 else 0 } t) s
  forEach (upTo 16) (fun l t => if portPresent t (lanePort t l) then setLane l { getLane t l with coeffs := startSet t l } t else t) s1

/-- A plan's sections are loaded: tables, entries, calendars; type 0x22 (R44 step 12, R55 step 5). -/
def loadPlan (k : Bank) (p : Plan) (s : State) : State :=
  let s1 := { s with plans := { s.plans with plan := some p, inForce := some k, forced := none, prepared := false, preparing := none,
                                             buffer := none, reloadFailed := [] } }
  let s2 := journalEvent 0x080 0x22 0
    ([BitVec.ofNat 8 (bankCode k), 0, 0, 0] ++ beBytes 4 p.seq.toNat ++ beBytes 4 p.adoptAt.toNat) (setBS k 5 0 0 s1)
  startLatency (dueCalendars s2)

/-- Every entry that is neither active nor erase-pending is loaded from the plan. -/
def loadRegions (s : State) : State :=
  let ids := (planOf s).regions.foldl (fun t r => NSet.add r.index t) (s.regions.map (fun e => e.1))
  forEach ids (fun i t => if (getRegion t i).active || (getRegion t i).erasePending then t else loadEntry i t) s

/-- Auto-start sets device time, with a type 0x04 entry (R47, R323). -/
def autoAnchor (k : Bank) (p : Plan) (s : State) : State :=
  if s.tank.anchored then s
  else
    let s1 := anchorFirst p.autoStart.toNat 0 true s
    journalEvent 0x084 0x04 0 (beBytes 4 p.autoStart.toNat ++ [BitVec.ofNat 8 (bankCode k)]) s1

/-- The plan of a bank that has passed selection and admission comes into force; the leases that cover the minute start. -/
def enterPlan (k : Bank) (p : Plan) (s : State) : State :=
  let s1 := autoAnchor k p s
  let s2 := { s1 with tank := { s1.tank with roundMinute := s1.tank.minute },
                      records := { s1.records with openMinute := s1.tank.minute.toNat } }
  let s3 := loadRegions (loadPlan k p s2)
  let m := s3.tank.minute.toNat
  let s4 := forEach p.regions (fun r t => if (leaseAt t r.index m).isSome then startLease r.index t else t) s3
  setPhase 0x07 0 (beginTraining s4)

/-- The outcome of trying one bank: in force, still pending, or refused at admission. -/
inductive Tried where
  | inForce (s : State)
  | passedOver (s : State)
  | refused (s : State)

/-- Checks 11 and 12 of a bank, once the address is held: one that fails them is invalid (R257). A bank that is being staged is left alone. -/
def checkLate (k : Bank) (s : State) : State :=
  let st := (getBS s k).state
  if st = 0 || st = 1 || s.plans.target = some k then s
  else match checkBank s k with
    | .error e => invalidBank k e (bankPasses s (otherBank k)) s
    | .ok _ => s

/-- One bank of the selection (R48, R49). -/
def tryBank (k : Bank) (s : State) : Tried :=
  match checkBank s k with
  | .error _ => .passedOver s
  | .ok p =>
    let now := if s.tank.anchored then s.tank.minute.toNat else p.autoStart.toNat
    if decide (now < p.adoptAt.toNat) && s.plans.forced ≠ some k then .passedOver (setBS k 4 0 0 s)
    else match compat s p now true with
      | some c => .refused (refuseCompat k 2 c s)
      | none =>
        match admission p s.retired with
        | some (ch, c) => .refused (refuseAdmission k 2 ch c s)
        | none => .inForce (enterPlan k p s)

/-- The banks are tried in turn; with none left the start halts (R49). -/
def tryBanks : List Bank → Bool → State → State
  | [], failed, s => haltStart (if failed then 0xE1 else 0xE0) (if failed then 4 else 3) { s with plans := { s.plans with forced := none } }
  | k :: t, failed, s =>
    match tryBank k s with
    | .inForce u => u
    | .passedOver u => tryBanks t failed u
    | .refused u => tryBanks t true u

/-- The unit can set its time: anchored, or addressed by a HEAD unit (R47). -/
def timeReady (s : State) : Bool := s.tank.addr ≠ 0 && (s.tank.anchored || !s.tank.addrFromBmc)

/-- Step 12: checks 11 and 12 of both banks, then the selection (R44, R48, R257). -/
def selectPlan (s : State) : State :=
  let s1 := checkLate .b (checkLate .a s)
  tryBanks (bankOrder s1) false s1

/-- PLAN_SELECTION (R44 steps 11 and 12, R47 to R49), given twice: phase 0x06 once the unit can set its time, and there the
plan. -/
def execPlanSelection (s : State) : Host.Outcome State Fault Refusal :=
  if s.pins.powerFail then .next s
  else if s.tank.phase = 0x05 then
    let s1 := takeHeld s
    .next (if timeReady s1 then setPhase 0x06 0 s1 else s1)
  else if s.tank.phase = 0x06 then .next (selectPlan s)
  else .next s

/-! ### Step 13: service (R45) -/

/-- What R45 asks for. -/
def serviceReady (s : State) : Bool :=
  s.tank.addr ≠ 0 && s.tank.anchored && s.plans.plan.isSome &&
    (upTo 16).all (fun p => !(getPort s p).present || (getPort s p).trained)

/-- SERVICE_OPEN (R45, R64, R65): phase 0x08, and every member of an interface, stand-ins included, announces itself. -/
def execServiceOpen (s : State) : Host.Outcome State Fault Refusal :=
  if s.tank.phase ≠ 0x07 || !serviceReady s || s.pins.powerFail then .next s
  else
    let s1 := setPhase 0x08 0 s
    .next (endColdStart (forEach ((upTo 4).map (members s)).flatten announce s1))

end Sys2Proof.Machine
end

