-- ==== Sys2Proof/Machine/WarmStart.lean ====
section
/-! DEFINITION. The warm start (R54 to R58): from the end of the drain to phase 0x07, or to where R55 and R56 let it stop. -/

namespace Sys2Proof.Machine

/-! ### Leaving the drain (R57, R347) -/

/-- What a warm reset invalidates or puts back: QPs and their trackers, caches, the memory path, staging, an OTP command, a BIST
test, a preparation, the calendars and the masks of page rewrites; the ports leave quiescence (R57, R58, R147, R194). -/
def invalidate (s : State) : State :=
  let s1 := dropPreparation (closeStaging s)
  { s1 with
    qps := [], trackers := [], metaCache := [], pageCache := [], misread := [], path := .empty, slow := { s1.slow with reserve := [] },
    clsCh := mapTable ClsCh.zero (fun v => { v with outstanding := 0, window := [] }) s1.clsCh,
    parlour := s1.parlour.foldl (fun t (e : Nat × Parlour) =>
      Map.set Parlour.zero e.1 (if isRetired s e.1 then e.2 else { e.2 with cal := [] }) t) [],
    ports := mapTable Port.zero (fun r => { idlePort r with quiesced := false }) s1.ports,
    otp := { s1.otp with op := if s1.otp.op = 1 then 0 else s1.otp.op, advance := none, vprog := 0 },
    bist := { s1.bist with state := if s1.bist.state = 1 then 3 else s1.bist.state },
    sep := { s1.sep with waiting := [], rewrites := s1.sep.rewrites.map (fun w => { w with moved := 0, recover := true, heldReqs := [] }) } }

/-- Every layer's model estimate starts again with the next sample after the factory area has been read (R236). -/
def restartModels (s : State) : State :=
  { s with factory := { s.factory with checked := false },
           thermal := { s.thermal with layers := mapTable Layer.zero (fun y => { y with model := none }) s.thermal.layers } }

/-- The warm start begins: safe state of stop severity is left, the core runs, and what a start draws is drawn (R55, R87, R313). -/
def leaveDrain (s : State) : State :=
  let t := s.tank
  startDraws (restartModels (invalidate
    { s with
      tank := { t with phase := 0x11, haltReason := 0, drain := none, coreRunning := true, coreHeld := false, heartbeatUs := 0,
                       stopLatch := 0, bistRestored := false, bgResumed := false, tornLines := false },
      churn := { s.churn with safe := 0 }, thermal := { s.thermal with shutdown := false } }))

/-- No check of the shutdown thresholds is to come any more (R246). -/
def leaveHot (s : State) : State := { s with thermal := { s.thermal with recheck := false, shutdownMask := 0 } }

/-! ### Step 3: self-refresh is left (R55) -/

/-- A channel leaves self-refresh: its engine starts anew, from opportunity 0 and class 0, with the failed lanes, spares and visits that the
Tank and the walk keep (R57, R167, R199). -/
def wakeChannel (ch : Nat) (s : State) : State :=
  let c := getChan s ch
  seedSampler ch (setChan ch
    { Chan.zero with initialised := true, failedLanes := c.failedLanes, spares := c.spares, badSpares := c.badSpares, visits := c.visits.map (fun v => { v with since := 0 }),
                     early := c.early.map (fun v => { v with since := 0 }), activates := c.activates, refreshes := c.refreshes } s)

/-- The banks of a channel that has left self-refresh: closed, refresh debts at zero; the totals of forced refreshes stand. -/
def wakeBanks (ch : Nat) (s : State) : State :=
  forEach (upTo 32) (fun b t =>
    let k := getBank t ch b
    setBank ch b { DBank.zero with refPtr := k.refPtr, forcedRefresh := k.forcedRefresh, forcedNeighbour := k.forcedNeighbour } t) s

/-- Every channel in self-refresh leaves it; the refresh floor of R176 ends with it. -/
def wakeChannels (s : State) : State :=
  let s1 := forEach (upTo 64) (fun ch t =>
    if (getChan t ch).initialised && (getChan t ch).selfRefresh then wakeBanks ch (wakeChannel ch t) else t) s
  { s1 with thermal := { s1.thermal with refreshFloor := [] } }

/-- A layer or the base die is at or above its shutdown threshold. -/
def atThreshold (s : State) : Bool :=
  (upTo 16).any (fun i => decide (1100 ≤ (getLayer s i).effective)) || decide (1150 ≤ s.thermal.baseFigure)

/-- After an over-temperature shutdown, a domain still at or above its threshold keeps the device in safe state (R55, R246). -/
def stillHot (s : State) : Bool := s.thermal.recheck && atThreshold s

/-- The device goes back to phase 0xF0, without leaving self-refresh, on account of kind 0x22. -/
def backToStop (s : State) : State :=
  { s with tank := { s.tank with phase := 0xF0, stopLatch := 7 }, churn := { s.churn with safe := 1 },
           thermal := { s.thermal with shutdown := true } }

/-! ### Step 4: markers, torn lines, the journal (R54, R58, R322) -/

/-- Rows that markers name and the save area holds; the rows of a tenant run and the save area's own are refilled (R366). -/
def markerRows (s : State) : Nat :=
  (s.bist.chans.map (fun (e : Nat × BistCh) =>
    ((e.2.marker.map (fun m => if m.form = 2 || isSaveArea m.rows then 0 else m.rows.length)).getD 0))).sum

/-- BIST markers are restored and cleared. -/
def restoreMarkers (s : State) : State :=
  let s1 := endMarkers s
  { s1 with tank := { s1.tank with bistRestored := decide (0 < markerRows s) } }

/-- An initialisation that a torn write cut is completed, so that its page's lines can show poison. -/
def finishInits (s : State) : State := forEach (s.sep.inits.map (fun x => x.page)) finishInit s

/-- One torn line: poison, and kind 0x70 (R54). -/
def tearLine (e : Nat × Nat) (s : State) : State :=
  raise 0x084 0x70 e.2 (poisonNew (homeOf s e.2).1 (homeOf s e.2).2 e.2 s)

/-- A metadata line whose write was cut: every line that it serves is poisoned (R54). -/
def tearMeta (dma : Nat) (s : State) : State :=
  let h := homeOf s dma
  forEach (metaServes s h.1 (metaHome s h.1 h.2).1) (fun loc t => poisonNew h.1 loc (unsteer (planOf s) h.1 loc) t) s

/-- A torn line of the journal ring or the minute-record ring becomes an invalid entry; the entry of kind 0x70 names its sequence or its
minute (R54, R127, R324). -/
def tearRing (line : Nat) (s : State) : State :=
  loseRing line (raiseDetail (lostDetail s (lineChannel line) line) 0x084 0x70 (physAddr line) s)

/-- The torn lines are poisoned or made invalid, with their fault messages. -/
def tearLines (s : State) : State :=
  let s1 := forEach s.tank.tornSystem tearRing (forEach s.tank.tornMeta tearMeta (forEach s.tank.torn tearLine s))
  { s1 with tank := { s1.tank with tornLines := decide (s.tank.torn ≠ [] ∨ s.tank.tornSystem ≠ []) } }

/-- A remap entry as its 64 bits give it (R231). -/
def remapOf (w : Nat) : Remap :=
  { valid := w.testBit 63, committed := w.testBit 62, bad := w.testBit 61, page := w / 2 ^ 32 % 2 ^ 24, unit := w % 2 ^ 18, copied := 0 }

/-- The page remap table lines that may hold an entry, or errors: channel and line of the table. -/
def remapLines (s : State) : List (Nat × Nat) :=
  let listed := s.remap.map (fun (e : Nat × Remap) => (e.1 / 2048, e.1 % 2048 / 8))
  let stored := (s.dram.data.map (fun (e : Nat × Byte) => e.1 / 64) ++ s.dram.upsets.map (fun (e : Nat × Byte) => e.1 / 72)).filterMap (fun line =>
    let at' := (servedLine s (lineChannel line) (systemIndex line)).getD (lineChannel line, systemIndex line)
    if isSystemLine line && decide (0x4200 ≤ at'.2) && decide (at'.2 < 0x4300) then some (at'.1, at'.2 - 0x4200) else none)
  (listed ++ stored).dedup

/-- Eight entries of a channel's directory are taken from their line of the table; a line that is lost is written again from the directory
(R224, R233). -/
def reloadRemapLine (x : Nat × Nat) (s : State) : State :=
  let line := systemHome s x.1 (0x4200 + x.2)
  let d := readSystem line 0 s
  let take (bs : List Byte) (t : State) : State :=
    { t with remap := (upTo 8).foldl (fun m j => Map.set Remap.zero (x.1 * 2048 + 8 * x.2 + j) (remapOf (field bs (8 * j) 8)) m) t.remap }
  match d.1 with
  | some bs => take bs d.2
  | none => writeRemapLine x.1 (8 * x.2) d.2

/-- The remap directories are loaded from the table in the system rows (R233); a unit whose copy was cut starts again from its first line
(R58). -/
def reloadRemap (s : State) : State := forEach (remapLines s) reloadRemapLine s

/-- A pending bank's minute has passed while the device did not run: its adoption resumes (R58). -/
def adoptionDue (s : State) : Bool :=
  match pendingBank s with
  | some k => decide ((getBS s k).adoptAt.toNat ≤ s.tank.minute.toNat)
  | none => false

/-- The work that resumes, as the type 0x02 entry codes it (R323). -/
def resumedWork (s : State) : Nat :=
  bit (decide (s.sep.rekeys ≠ [])) 0 + bit (s.sep.rewrites.any (fun x => !x.move)) 1 + bit (s.regions.any (fun e => e.2.erasePending)) 2 +
    bit (decide (s.retirements ≠ [])) 3 + bit (decide (s.held ≠ [])) 4 + bit (adoptionDue s) 5

/-- Step 4: rows restored, late entries of fatal faults, torn lines with their entries, the warm-reset entry. -/
def journalWarm (s : State) : State :=
  let rows := markerRows s
  let torn := s.tank.torn.length + s.tank.tornSystem.length
  let s1 := finishInits (reloadRemap (restoreMarkers s))
  let s2 := forEach (lateEntries s1) pushEntry s1
  let s3 := settleChurn (tearLines s2)
  let s4 := if s3.tank.phase = 0x11 then pushEntry (warmEntry torn rows (resumedWork s3) s3) s3 else s3
  { s4 with tank := { s4.tank with torn := [], tornMeta := [], tornSystem := [], forcedMask := 0 } }

/-! ### Steps 5 and 6: the plan and the leases (R55, R58, R118 to R124) -/

/-- Each channel keeps the positions of the cuts in force, so that they raise no kind again (R202). -/
def keepCuts (s : State) : State :=
  forEach (upTo 64) (fun ch t =>
    let y := getParlour t ch
    if isRetired t ch then t else setParlour ch { y with prior := y.cuts.map (fun c => c.1), cuts := [] } t) s

/-- In RETURN every lease ends (R350). -/
def endAllLeases (s : State) : State :=
  if s.otp.life ≠ 3 then s
  else forEach (regionIds s) (fun i t => if (getRegion t i).active then endLease i t.tank.minute.toNat 0 t else t) { s with held := [] }

/-- A re-key, page rewrite, crypto-erase or page-retirement copy resumes (R42). -/
def resumesWork (s : State) : Bool := decide (resumedWork s % 16 ≠ 0)

/-- A plan loaded at a warm start: the region table again, the leases against the plan, the boundaries that have passed. -/
def reloadPlan (k : Bank) (p : Plan) (s : State) : State :=
  let s1 := loadPlan k p (keepCuts (keepRevokes s))
  let s2 := loadRegions (forEach (s1.regions.map (fun e => e.1)) recallRegion s1)
  let s3 := settleBoundaries (endAllLeases s2)
  let s4 := { s3 with tank := { s3.tank with bgResumed := resumesWork s } }
  setPhase 0x07 0 (beginTraining s4)

/-- The lease-state records of the regions of the last plan, read for the compatibility check of a warm start (R284). -/
def readRecords (s : State) : List (Nat × List Byte) × State :=
  (planOf s).regions.foldl (fun (acc : List (Nat × List Byte) × State) r =>
    let d := readLines (fun _ _ => 0) (fun _ t => rebuildRecs r.index t) [(leaseHome acc.2 r.index).1] acc.2
    (acc.1 ++ d.1, d.2)) ([], s)

/-- A bank of the selection at a warm start: adopt-at not after the present minute, compatibility and admission (R55, R284). -/
def tryReload (k : Bank) (s : State) : Tried :=
  match checkBank s k with
  | .error e => .passedOver (drawn (invalidBank k e (bankPasses s (otherBank k)) s))
  | .ok p =>
    let now := s.tank.minute.toNat
    if decide (now < p.adoptAt.toNat) && s.plans.forced ≠ some k then .passedOver (setBS k 4 0 0 s)
    else
      let r := readRecords s
      let t := r.2
      match compat (viewOf r.1 t) p now true with
      | some c => .refused (refuseCompat k 2 c t)
      | none =>
        match admission p t.retired with
        | some (ch, c) => .refused (refuseAdmission k 2 ch c t)
        | none => .inForce (reloadPlan k p t)

/-- The banks are tried in turn (R49, R285). -/
def tryReloads : List Bank → Bool → State → State
  | [], failed, s => haltStart (if failed then 0xE1 else 0xE0) (if failed then 4 else 3) { s with plans := { s.plans with forced := none } }
  | k :: t, failed, s =>
    match tryReload k s with
    | .inForce u => u
    | .passedOver u => tryReloads t failed u
    | .refused u => tryReloads t true u

/-- One bank's checks at a warm start, where a unit with an address makes checks 11 and 12 too, those of an armed bank at its turn (R259):
kind 0x30 only for an armed bank and for one whose staging the reset cut (R58, R257). -/
def checkAtWarm (k : Bank) (s : State) : State :=
  if s.plans.target = some k then s
  else match checkBankForm s k with
  | .error e => if (getBS s k).state = 2 then invalidBank k e (formOk s (otherBank k)) s else failedBank k e s
  | .ok _ =>
    let t := validBank k s
    if armed t k || s.tank.addr = 0 then t
    else match checkBank t k with
      | .error e => failedBank k e t
      | .ok _ => t

/-- Step 5 onward. A unit whose time was never set, or that never had a plan, goes through phase 0x05 as a cold start does. -/
def selectWarm (s : State) : State :=
  let s1 := checkAtWarm .b (checkAtWarm .a s)
  if !(armed s1 .a || armed s1 .b) then haltStart 0xE0 3 s1
  else if !s1.tank.anchored || s1.plans.plan.isNone then setPhase 0x05 0 (takeHeld s1)
  else tryReloads (bankOrder s1) false s1

/-! ### The whole -/

/-- Steps 3 to 7, with the hard repairs and the factory tables loaded again (R55, R360). -/
def wakeUp (s : State) : State :=
  let s0 := loadRepairs (loadFactory s)
  let s1 := forEach s0.otp.repairs repairLane s0
  if stillHot s1 then backToStop s1
  else
    let s2 := journalWarm (wakeChannels (leaveHot s1))
    if s2.tank.phase = 0x11 then selectWarm s2 else s2

/-- What of the thermal controller lasts until a cold start: invalid sensors, sensors declared failed, and the last readings (R235, R245). -/
def keepSensors (t : Thermal) : Thermal :=
  { Thermal.reset with
    base := t.base, baseInvalid := t.baseInvalid,
    layers := mapTable Layer.zero (fun y => { Layer.zero with readings := y.readings, valid := y.valid, failed := y.failed }) t.layers }

/-- A device that was never filled starts as after a cold reset, from phase 0x02. What R56 names stays as it is, with failed sensors (R235, R245), the chain ports, the
OTP reading, the flash and its banks, the journal queue, and what the start has drawn; soft repairs and the retired channels do not
(DESIGN CHOICE, notes/assumptions/86.md). -/
def startUnfilled (s : State) : State :=
  { coldReset s with
    tank := { s.tank with phase := 0x02, haltReason := 0, torn := [], tornMeta := [], tornSystem := [], pendingWrites := [], filled := false },
    churn := s.churn, chain := s.chain, journal := s.journal, otp := s.otp, plans := s.plans, drbg := s.drbg, qpnPtr := s.qpnPtr,
    ctr := { Counters.zero with chain := s.ctr.chain }, thermal := keepSensors s.thermal }

/-- Step 1 (R55, R56): phase 0x11 and the margin read; a device that was never filled goes on at phase 0x02. -/
def beginWarm (weak : List WeakWord) (s : State) : State :=
  let s1 := readOtp weak (leaveDrain s)
  match lifeHalt s1 with
  | some r => haltStart 0xE1 r (leaveHot s1)
  | none => if s1.tank.filled then s1 else startUnfilled s1

/-- From step 2: the factory area is checked, and the rest follows. -/
def goOnWarm (s : State) : State := if factoryMatches s then wakeUp s else haltStart 0xE1 1 (leaveHot (raise 0x086 0x30 0 s))

/-- WARM_START (R53 step 9, R55, R56), given twice: with the drain over and WRST_N high again it begins, and in phase 0x11 it runs on to its
end. A stop fault that came during the drain is entered in its place. -/
def execWarmStart (weak : List WeakWord) (s : State) : Host.Outcome State Fault Refusal :=
  if !s.pins.refclkOk || s.pins.powerFail then .next s
  else match s.tank.drain with
    | none => if s.tank.phase = 0x11 then .next (goOnWarm s) else .next s
    | some d =>
      if s.tank.phase ≠ 0x10 || !drainOver d || decide (s.tank.clockUs < s.pins.wrstUntil) then .next s
      else if d.stopAfter then
        .next { s with tank := { s.tank with phase := 0xF0, drain := none, coreRunning := true, heartbeatUs := 0 } }
      else .next (beginWarm weak s)

end Sys2Proof.Machine
end

