-- ==== Sys2Proof/Machine/Commands.lean ====
section
/-! DEFINITION. The chain commands that no other family holds (R311): ADOPT adopt (R281), RETIRE_PAGE (R227), QUIESCE_PORT (R67)
and SNAPSHOT (R312). -/

namespace Sys2Proof.Machine

/-! ### ADOPT adopt (R281) -/

/-- A halt whose start an ADOPT resumes: no valid plan, or no plan admitted. -/
def resumable (s : State) : Bool := s.tank.phase = 0xE0 || (s.tank.phase = 0xE1 && s.tank.haltReason = 4)

/-- The start resumes with the bank that was adopted: a cold start at step 10, a warm start at step 5 (R49, R281). -/
def resumeStart (k : Bank) (s : State) : State :=
  let s0 := { s with plans := { s.plans with forced := some k } }
  let s1 := if s.tank.lastReset ≠ 0 && s.tank.filled then wakeChannels s0 else s0
  if s.tank.lastReset ≠ 0 && s.tank.filled && s.plans.plan.isSome then selectWarm (setPhase 0x11 0 s1) else setPhase 0x04 0 s1

/-- ADOPT with operation adopt. -/
def adoptRule (f : ChainFrame) (s : State) : Reply :=
  match stagePrefix f 2 s with
  | some r => r
  | none =>
    let k := bankOf (field f.payload 1 1)
    let r := adoptArm k s
    if r.status = 0x00 && resumable s then { r with st := resumeStart k r.st } else r

/-- ADOPT: COMMAND 0x04 with any operation but cancel. -/
def execAdopt (p : ChainPort) (f : ChainFrame) (s : State) : Host.Outcome State Fault Refusal :=
  if field f.payload 0 1 = 2 then .next s else .next (runCommand 0x04 p f (adoptRule f) s)

/-! ### RETIRE_PAGE (R227) -/

/-- RETIRE_PAGE: the units accepted and skipped; a BIST batch that holds a spare page taken is aborted (R367). -/
def retireRule (f : ChainFrame) (s : State) : Reply :=
  let page := field f.payload 0 4
  match retirePageRule page s with
  | .inl n => refuse n s
  | .inr (units, skipped) =>
    let s1 := forEach units (fun x t => abortForSpare x.1 x.2.2 t) s
    accepted [BitVec.ofNat 8 units.length, BitVec.ofNat 8 skipped, 0, 0] (endRetirements (startPage page units skipped s1))

/-- RETIRE_PAGE: COMMAND 0x06. -/
def execRetirePage (p : ChainPort) (f : ChainFrame) (s : State) : Host.Outcome State Fault Refusal :=
  .next (runCommand 0x06 p f (retireRule f) s)

/-! ### QUIESCE_PORT (R67) -/

/-- The fields of a QUIESCE_PORT payload, and the port's presence. -/
def quiescePrefix (f : ChainFrame) (s : State) : Option Reply :=
  let op := field f.payload 1 1
  if 15 < field f.payload 0 1 then some (malformed 0 s)
  else if op = 0 ∨ 2 < op then some (malformed 1 s)
  else if field f.payload 2 2 ≠ 0 then some (malformed 2 s)
  else if !(getPort s (field f.payload 0 1)).present then some (refuse 1 s)
  else none

/-- QUIESCE_PORT quiesce. An attempt at recalibration of its lanes is abandoned (R80). The only port in the transmit set is the last member,
also where a port held out would stand in after it (R67; DEDUCED, notes/assumptions/95.md). -/
def quiesceRule (f : ChainFrame) (s : State) : Reply :=
  let p := field f.payload 0 1
  match quiescePrefix f s with
  | some r => r
  | none =>
    if (getPort s p).quiesced then accepted [] s
    else if members s (p / 4) = [p] then refuse 2 s
    else accepted [] (abandonRecal (portLanes (quadMode s (p / 4)).1 p)
      (setPort p { getPort s p with quiesced := true, draining := true } s))

/-- QUIESCE_PORT: COMMAND 0x07 with any operation but resume. -/
def execQuiescePort (p : ChainPort) (f : ChainFrame) (s : State) : Host.Outcome State Fault Refusal :=
  if field f.payload 1 1 = 2 then .next s else .next (runCommand 0x07 p f (quiesceRule f) s)

/-- QUIESCE_PORT resume. -/
def resumeRule (f : ChainFrame) (s : State) : Reply :=
  match quiescePrefix f s with
  | some r => r
  | none => accepted [] (changePort (field f.payload 0 1) (fun r => { r with quiesced := false, draining := false }) s)

/-- QUIESCE_PORT_RESUME: COMMAND 0x07 with operation resume. -/
def execQuiescePortResume (p : ChainPort) (f : ChainFrame) (s : State) : Host.Outcome State Fault Refusal :=
  if field f.payload 1 1 = 2 then .next (runCommand 0x07 p f (resumeRule f) s) else .next s

/-! ### SNAPSHOT (R312) -/

/-- The fields of a SNAPSHOT payload. -/
def snapshotPrefix (f : ChainFrame) (s : State) : Option Reply :=
  let op := field f.payload 0 1
  let g := field f.payload 1 1
  let first := field f.payload 2 2
  let count := field f.payload 4 2
  if op = 0 ∨ 3 < op then some (malformed 0 s)
  else if g = 0 ∨ 63 < g then some (malformed 1 s)
  else if g.testBit 0 && decide (4095 < first) then some (malformed 2 s)
  else if g.testBit 0 && (count = 0 || decide (4096 < first + count)) then some (malformed 4 s)
  else if field f.payload 6 2 ≠ 0 then some (malformed 6 s)
  else none

/-- A tenant counter's key lies in a range of tenants. -/
def inTenants (first count key : Nat) : Bool := decide (first ≤ key / 32) && decide (key / 32 < first + count)

/-- The counters of one group, as a view keeps them. -/
def groupCounters (g first count : Nat) (c : Counters) : Counters :=
  match g with
  | 0 => { Counters.zero with tenant := c.tenant.filter (fun (e : Nat × Nat) => inTenants first count e.1), lastClear := c.lastClear }
  | 1 => { Counters.zero with port := c.port }
  | 2 => { Counters.zero with cls := c.cls }
  | 3 => { Counters.zero with chan := c.chan }
  | 4 => { Counters.zero with ce := c.ce }
  | _ => { Counters.zero with chain := c.chain }

/-- A group's view is taken; an earlier one is replaced. -/
def takeView (first count g : Nat) (s : State) : State :=
  let v : View := { group := g, first := first, count := count, untilUs := s.tank.clockUs + 60000000, c := groupCounters g first count s.ctr }
  { s with views := s.views.filter (fun x => x.group ≠ g) ++ [v] }

/-- A group's live counters are cleared. -/
def clearGroup (first count g : Nat) (s : State) : State :=
  let c := s.ctr
  let m := (stamp s).1.toNat
  match g with
  | 0 => { s with ctr := { c with
      tenant := c.tenant.filter (fun (e : Nat × Nat) => !inTenants first count e.1),
      lastClear := (List.range count).foldl (fun t i => Map.set 0 (first + i) m t) c.lastClear } }
  | 1 => { s with ctr := { c with port := [] } }
  | 2 => { s with ctr := { c with cls := [] } }
  | 3 => { s with ctr := { c with chan := [] } }
  | 4 => { s with ctr := { c with ce := [] } }
  | _ => { s with ctr := { c with chain := [] } }

/-- The groups that a SNAPSHOT names. -/
def snapshotGroups (f : ChainFrame) : List Nat := (upTo 6).filter (fun g => (field f.payload 1 1).testBit g)

/-- Take, or take and clear: the views, and then the clears, at one instant; the RESPONSE gives device time. -/
def snapshotRule (clear : Bool) (f : ChainFrame) (s : State) : Reply :=
  let first := field f.payload 2 2
  let count := field f.payload 4 2
  match snapshotPrefix f s with
  | some r => r
  | none =>
    let s1 := forEach (snapshotGroups f) (takeView first count) s
    done (timeBytes s) (if clear then forEach (snapshotGroups f) (clearGroup first count) s1 else s1)

/-- SNAPSHOT release. -/
def releaseRule (f : ChainFrame) (s : State) : Reply :=
  match snapshotPrefix f s with
  | some r => r
  | none => done (timeBytes s) { s with views := s.views.filter (fun v => !(snapshotGroups f).contains v.group) }

/-- SNAPSHOT_TAKE: COMMAND 0x09 with any operation but take and clear, and release. -/
def execSnapshotTake (p : ChainPort) (f : ChainFrame) (s : State) : Host.Outcome State Fault Refusal :=
  if field f.payload 0 1 = 2 || field f.payload 0 1 = 3 then .next s else .next (runCommand 0x09 p f (snapshotRule false f) s)

/-- SNAPSHOT_TAKE_CLEAR: COMMAND 0x09 with operation take and clear. -/
def execSnapshotTakeClear (p : ChainPort) (f : ChainFrame) (s : State) : Host.Outcome State Fault Refusal :=
  if field f.payload 0 1 = 2 then .next (runCommand 0x09 p f (snapshotRule true f) s) else .next s

/-- SNAPSHOT_RELEASE: COMMAND 0x09 with operation release. -/
def execSnapshotRelease (p : ChainPort) (f : ChainFrame) (s : State) : Host.Outcome State Fault Refusal :=
  if field f.payload 0 1 = 3 then .next (runCommand 0x09 p f (releaseRule f) s) else .next s

/-- SNAPSHOT_EXPIRY (R312): 60 s have passed since a view was taken. -/
def execSnapshotExpiry (group : Fin 6) (s : State) : Host.Outcome State Fault Refusal :=
  .next { s with views := s.views.filter (fun v => v.group ≠ group.val) }

end Sys2Proof.Machine
end

