-- ==== Sys2Proof/Machine/Operands.lean ====
section
/-! DEFINITION. How the operands of requests are read: path MTU and PSN arithmetic (R85, R92), rkeys (R113), the lines
that an access touches (R97), prefixes (R109), communication IDs (R102 to R104), and the fields of a chain payload. -/

namespace Sys2Proof.Machine

/-! ### PSNs and lengths -/

/-- The path MTU in bytes of its transport code: 3 is 1,024 (R85, R88). -/
def mtuBytes (code : Nat) : Nat := 2 ^ (code + 7)

/-- The class of a packet by its PSN (R92). -/
inductive PsnClass where
  | expected
  | ahead
  | duplicate
  deriving DecidableEq, Repr

/-- Classification of a PSN against ePSN (R92). -/
def psnClass (psn epsn : BitVec 24) : PsnClass :=
  let d := (psn - epsn).toNat
  if d = 0 then .expected else if d < 2 ^ 23 then .ahead else .duplicate

/-- PSN `a` comes later than `b`. -/
def psnAfter (a b : BitVec 24) : Bool := psnClass a b = .ahead

/-- Response packets of a READ: the length divided by the path MTU, rounded up, and 1 for length 0 (R92). -/
def readPackets (len mtu : Nat) : Nat := max 1 ((len + mtu - 1) / mtu)

/-- The opcode of response packet k of n (R83). -/
def readOpcode (k n : Nat) : Byte := if n = 1 then 0x10 else if k = 0 then 0x0D else if k + 1 = n then 0x0F else 0x0E

/-! ### Rkeys -/

/-- The region index of an rkey (R113). -/
def rkeyRegion (r : BitVec 32) : Nat := r.toNat / 2 ^ 15

/-- The generation of an rkey (R113). -/
def rkeyGen (r : BitVec 32) : BitVec 15 := r.setWidth 15

/-- The rkey of a region at a generation (R113). -/
def rkeyOf (region : Nat) (gen : BitVec 15) : BitVec 32 := BitVec.ofNat 32 (region * 2 ^ 15 + gen.toNat)

/-! ### Lines of an access -/

/-- One line of an access: DMA of the line, first byte within it, and length. -/
structure LinePart where
  dma : Nat
  off : Nat
  len : Nat
  deriving DecidableEq, Repr

/-- The lines that `len` bytes from `dma` on touch (R97). -/
def lineParts (dma len : Nat) : List LinePart :=
  if len = 0 then []
  else
    let first := dma / 64
    let last := (dma + len - 1) / 64
    (List.range (last + 1 - first)).map (fun i =>
      let line := (first + i) * 64
      let lo := max dma line
      { dma := line, off := lo - line, len := min (dma + len) (line + 64) - lo })

/-- The bytes of a payload that fall into a line of the access. -/
def partData (dma : Nat) (payload : List Byte) (p : LinePart) : List Byte := (payload.drop (p.dma + p.off - dma)).take p.len

/-! ### Addresses -/

/-- An address in the form a GID gives it: IPv4 in its mapped form (R101). -/
def gidOf : Ip → BitVec 128
  | .v4 a => BitVec.ofNat 128 (0xFFFF * 2 ^ 32 + a.toNat)
  | .v6 a => a

/-- A source address matches a prefix entry: same family, and the first prefix-length bits equal (R109). -/
def prefixMatches (e : Prefix) (ip : Ip) : Bool :=
  match ip with
  | .v4 a => e.family = 4 && a.toNat / 2 ^ (32 - e.length) = e.addr.toNat % 2 ^ 32 / 2 ^ (32 - e.length)
  | .v6 a => e.family = 6 && a.toNat / 2 ^ (128 - e.length) = e.addr.toNat / 2 ^ (128 - e.length)

/-- The access list of a tenant (R109). -/
def accessList (p : Plan) (t : TenantRec) : List Prefix := (p.prefixes.drop t.accessFirst).take t.accessCount

/-! ### Chain payloads -/

/-- The field of n bytes at byte o of a frame's payload (R292). -/
def arg (f : ChainFrame) (o n : Nat) : Nat := field f.payload o n

end Sys2Proof.Machine
end

