-- ==== Sys2Proof/Machine/Ports.lean ====
section
/-! DEFINITION. The commands of the data ports: frame acceptance (R62), PFC and buffers (R68 to R70), the slow path
(R73), link quality (R74 to R76) and recalibration (R77 to R80). Every timer row stands for its timer's expiry
(notes/assumptions/8.md). -/

namespace Sys2Proof.Machine

/-! ### Packet buffers (R68, R69) -/

/-- Headroom per lossless priority of a port, in bytes, by the quad's mode (R68). -/
def headroom (mode : Nat) : Nat := (if mode = 4 then 155 else if mode = 2 then 82 else 46) * 1024

/-- The number of lossless priorities over all present ports of quad q (R68). -/
def losslessCount (s : State) (q : Nat) : Nat :=
  ((List.range 4).map (fun i =>
    let r := getPort s (4 * q + i)
    if r.present then ((List.range 8).filter (fun b => r.lossless.getLsbD b)).length else 0)).sum

/-- The shared pool of quad q in bytes (R68). -/
def sharedPool (s : State) (q : Nat) : Nat :=
  2560 * 1024 - losslessCount s q * headroom (quadMode s q).1 - 64 * 1024

/-- The XOFF share of a lossless priority of quad q in bytes (R68). -/
def xoffShare (s : State) (q : Nat) : Nat := sharedPool s q / (losslessCount s q + 1)

/-- What a priority of a port uses of the shared pool: a lossless one at most its XOFF share, the rest being in its
headroom (R69). -/
def sharedUse (s : State) (p prio : Nat) : Nat :=
  let r := getPort s p
  let u := Map.get 0 prio r.use
  if r.lossless.getLsbD prio then min u (xoffShare s (p / 4)) else u

/-- Use of the shared pool of quad q (R68). -/
def poolUse (s : State) (q : Nat) : Nat :=
  ((List.range 32).map (fun i => sharedUse s (4 * q + i / 8) (i % 8))).sum

/-- A frame of a priority takes its place in the packet buffer, or is dropped and counted (R69). -/
def takeBuffer (p prio len : Nat) (s : State) : State :=
  let r := getPort s p
  let u := Map.get 0 prio r.use
  let share := xoffShare s (p / 4)
  if r.lossless.getLsbD prio then
    if share + headroom (quadMode s (p / 4)).1 < u + len then portCount p 9 1 s
    else
      let r1 := { r with use := Map.set 0 prio (u + len) r.use }
      if share ≤ u + len && !r.pausing.getLsbD prio then
        sendFrame p prio (.pfc prio 0xFFFF) (setPort p { r1 with pausing := setBit8 r1.pausing prio } s)
      else setPort p r1 s
  else if sharedPool s (p / 4) < poolUse s (p / 4) + len then portCount p 9 1 s
  else setPort p { r with use := Map.set 0 prio (u + len) r.use } s

/-! ### Frame acceptance (R62) -/

/-- The solicited-node multicast address of an IPv6 address. -/
def solicitedNode (a : BitVec 128) : BitVec 128 :=
  BitVec.ofNat 128 (0xFF0200000000000000000001FF000000 + a.toNat % 2 ^ 24)

/-- The MAC address of a solicited-node multicast address. -/
def solicitedMac (a : BitVec 128) : BitVec 48 := BitVec.ofNat 48 (0x3333FF000000 + a.toNat % 2 ^ 24)

/-- Check 2 of R62. -/
def macAccepted (i : Iface) (f : DataFrame) : Bool :=
  f.dmac = i.mac || f.dmac = 0xFFFFFFFFFFFF || (i.hasV6 && f.dmac = solicitedMac i.v6) ||
    (f.dmac = 0x0180C2000001 && f.ethertype = 0x8808)

/-- Check 4 of R62 passes. -/
def tagAccepted (i : Iface) (f : DataFrame) : Bool :=
  match f.tags with
  | [] => !i.vlan.getLsbD 15
  | [t] => if i.vlan.getLsbD 15 then t.toNat % 4096 = i.vlan.toNat % 4096 else t.toNat % 4096 = 0
  | _ => false

/-- Check 6 of R62. -/
def ipAccepted (f : DataFrame) : Bool :=
  if f.ethertype = 0x0800 then f.ipHeaderOk
  else if f.ethertype = 0x86DD then f.ipHeaderOk && (f.ipNext = 17 || f.ipNext = 58)
  else true

/-- Check 7 of R62. -/
def addressAccepted (i : Iface) (f : DataFrame) : Bool :=
  if f.ethertype = 0x86DD then
    i.hasV6 && (f.dstIp = .v6 i.v6 || (f.slowKind = .solicitation && f.dstIp = .v6 (solicitedNode i.v6)))
  else i.hasV4 && f.dstIp = .v4 i.v4

/-- The outcome of the acceptance checks: the port counter of the failed check, or none for a frame that passes. -/
def acceptance (i : Iface) (f : DataFrame) : Option Nat :=
  if !f.fcsOk then some 5
  else if f.length < 64 ∨ 4352 < f.length then some 8
  else if !macAccepted i f then some 6
  else if f.ethertype = 0x8808 then (if f.macOpcode = 0x0101 then none else some 20)
  else if !tagAccepted i f then (if 2 ≤ f.tags.length then some 8 else some 6)
  else if !(f.ethertype = 0x0800 || f.ethertype = 0x86DD || f.ethertype = 0x0806) then some 6
  else if !ipAccepted f then some 8
  else if !addressAccepted i f then some 6
  else none

/-- The priority of a received frame: its PCP, or the map's entry for its DSCP (R67 onward, R63). -/
def framePriority (i : Iface) (f : DataFrame) : Nat :=
  match f.tags with
  | t :: _ => t.toNat / 8192
  | [] => ((i.dscpMap[f.dscp.toNat]?).getD 0).toNat % 8

/-- Bytes in the slow-path reserve of quad q (R68). -/
def reserveUse (s : State) (q : Nat) : Nat := ((s.slow.reserve.filter (fun e => e.1 = q)).map (fun e => e.2)).sum

/-- A frame carries a transport packet for QP1 (R62, R73). -/
def isQp1 (f : DataFrame) : Bool := f.ethertype ≠ 0x0806 && f.ipNext = 17 && f.udpPort = 4791 && f.destQp = 1

/-- A frame for the slow path takes a token and its place in its quad's reserve of 64 KiB, or is dropped and counted (R68, R73). An MRA is
received and ignored (R100); a packet to QP1 of another transport version or P_Key is a header error (R84), which a connection-management MAD
shows when the core takes it. A frame that finds the reserve full takes no token (DESIGN CHOICE, notes/assumptions/101.md). -/
def takeSlow (p : Nat) (f : DataFrame) (s : State) : State :=
  if s.slow.tokens = 0 ∨ 65536 < reserveUse s (p / 4) + f.length then portCount p 11 1 s
  else
    let s1 := portCount p 10 1 { s with slow := { s.slow with tokens := s.slow.tokens - 1 } }
    if isQp1 f && (f.slowKind = .other || f.slowKind = .mra) && (f.tver ≠ 0 || f.pkey ≠ 0xFFFF) then portCount p 25 1 s1
    else if f.slowKind = .other then portCount p 12 1 s1
    else if f.slowKind = .mra then s1
    else { s1 with slow := { s1.slow with reserve := s1.slow.reserve ++ [(p / 4, f.length)] } }

/-- DATA_FRAME_RECEIVE (R62, R68, R69, R73): the frame is counted, checked, and takes its place in the packet buffer
or the slow path; nothing is received on a port that is down. -/
def execDataFrameReceive (port : Fin 16) (f : DataFrame) (s : State) : Host.Outcome State Fault Refusal :=
  match ifaceOf s (port.val / 4) with
  | none => .next s
  | some i =>
    if !(getPort s port.val).up then .next s
    else
      let p := port.val
      let s1 := portCount p 3 f.symbols (portCount p 2 f.uncorrectable (portCount p 1 f.corrected
        (portCount p 0 f.codewords s)))
      match acceptance i f with
      | some n => .next (portCount p n 1 s1)
      | none =>
        if f.ethertype = 0x8808 then .next s1
        else
          let s2 := portCount p 4 1 s1
          if f.ethertype ≠ 0x0806 ∧ f.ipNext = 17 ∧ f.udpPort = 4791 ∧ f.destQp ≠ 1 then
            .next (takeBuffer p (framePriority i f) f.length s2)
          else .next (takeSlow p f s2)

/-! ### PFC (R69, R70) -/

/-- PFC_RECEIVE (R70): each enabled priority is paused by non-zero quanta and resumed by quanta 0. -/
def execPfcReceive (port : Fin 16) (enable : Byte) (quanta : List W16) (s : State) :
    Host.Outcome State Fault Refusal :=
  let p := port.val
  if !(getPort s p).up then .next s
  else .next (forEach (upTo 8) (fun b t =>
    if !enable.getLsbD b then t
    else
      let r := getPort t p
      if (quanta[b]?).getD 0 ≠ 0 then setPort p { r with paused := setBit8 r.paused b } t
      else flushPrio p b (setPort p { r with paused := clearBit8 r.paused b,
                                             discarding := clearBit8 r.discarding b } t)) (portCount p 18 1 s))

/-- PFC_PAUSE_EXPIRY (R70): the time the quanta gave has run out; the priority resumes. -/
def execPfcPauseExpiry (port : Fin 16) (prio : Fin 8) (s : State) : Host.Outcome State Fault Refusal :=
  let r := getPort s port.val
  .next (flushPrio port.val prio.val (setPort port.val
    { r with paused := clearBit8 r.paused prio.val, discarding := clearBit8 r.discarding prio.val } s))

/-- PFC_WATCHDOG (R70): a priority paused for 100 ms has its queued frames discarded and counted, and new ones until
it resumes. That the queued frames are counted too is the model's (DESIGN CHOICE, notes/assumptions/99.md). -/
def execPfcWatchdog (port : Fin 16) (prio : Fin 8) (s : State) : Host.Outcome State Fault Refusal :=
  let p := port.val
  let r := getPort s p
  if !r.paused.getLsbD prio.val then .next s
  else
    let n := (r.queue.filter (fun e => e.1 = prio.val)).length
    .next (portCount p 21 n (setPort p
      { r with queue := r.queue.filter (fun e => e.1 ≠ prio.val), discarding := setBit8 r.discarding prio.val } s))

/-- PFC_XOFF_REPEAT (R69): XOFF is repeated while the use stays at or above the share less 8,704 bytes. -/
def execPfcXoffRepeat (port : Fin 16) (prio : Fin 8) (s : State) : Host.Outcome State Fault Refusal :=
  let p := port.val
  let r := getPort s p
  if r.pausing.getLsbD prio.val && decide (xoffShare s (p / 4) ≤ Map.get 0 prio.val r.use + 8704) then
    .next (sendFrame p prio.val (.pfc prio.val 0xFFFF) s)
  else .next s

/-- What the requests that wait for a class queue hold of a port's buffer at the priority of the frames that brought them: their data, and 64 bytes for each packet
(R192; the size of a held packet is a DESIGN CHOICE, notes/assumptions/88.md). -/
def heldBytes (s : State) (p prio : Nat) : Nat :=
  let l := s.path.backlog.filter (fun r => r.port = p && r.prio = prio)
  (l.map (fun r => r.data.length)).sum + 64 * ((l.map (fun r => (r.qpn, r.psn))).dedup).length

/-- PFC_XON (R69, R192): `freed` bytes leave the buffer, but for what waiting requests hold; once the use is below the share less
8,704 bytes, quanta 0 is sent. -/
def execPfcXon (port : Fin 16) (prio : Fin 8) (freed : Nat) (s : State) : Host.Outcome State Fault Refusal :=
  let p := port.val
  let r := getPort s p
  let use := Map.get 0 prio.val r.use
  let u := max (use - freed) (min use (heldBytes s p prio.val))
  let r1 := { r with use := Map.set 0 prio.val u r.use }
  if r.pausing.getLsbD prio.val && decide (u + 8704 < xoffShare s (p / 4)) then
    .next (sendFrame p prio.val (.pfc prio.val 0)
      (setPort p { r1 with pausing := clearBit8 r1.pausing prio.val } s))
  else .next (setPort p r1 s)

/-! ### The slow path (R73) -/

/-- The core takes the oldest frame out of a quad's reserve. -/
def takeReserve (q : Nat) (s : State) : State :=
  match s.slow.reserve.find? (fun e => e.1 = q) with
  | some e => { s with slow := { s.slow with reserve := s.slow.reserve.erase e } }
  | none => s

/-- Slow-path frames of a port are answered: service is open, and the port is up and not held idle (R45, R67). -/
def slowOpen (s : State) (p : Nat) : Bool :=
  s.tank.phase = 0x08 && (getPort s p).up && !((getPort s p).quiesced && !(getPort s p).draining)

/-- The core takes a slow-path frame of a port, and acts on it where frames are answered; else the frame is discarded. -/
def slowPath (p : Nat) (act : State → State) (s : State) : State :=
  if !coreRuns s then s else if slowOpen s p then act (takeReserve (p / 4) s) else takeReserve (p / 4) s

/-- ARP_REQUEST (R73): a request for the interface's IPv4 address draws a reply to the requester's MAC. -/
def execArpRequest (port : Fin 16) (q : AddrQuery) (s : State) : Host.Outcome State Fault Refusal :=
  .next (slowPath port.val (fun t =>
    match ifaceOf t (port.val / 4) with
    | some i => if i.hasV4 ∧ q.target = .v4 i.v4 then sendControl (port.val / 4) port.val (.arpReply q.srcMac q.srcIp) t else t
    | none => t) s)

/-- NEIGHBOUR_SOLICITATION (R73): one for the interface's address draws a solicited advertisement. -/
def execNeighbourSolicitation (port : Fin 16) (q : AddrQuery) (s : State) : Host.Outcome State Fault Refusal :=
  .next (slowPath port.val (fun t =>
    match ifaceOf t (port.val / 4) with
    | some i =>
      if i.hasV6 ∧ q.target = .v6 i.v6 then sendControl (port.val / 4) port.val (.advertisement q.srcMac q.srcIp q.target) t else t
    | none => t) s)

/-- An echo request of at most 1,500 bytes of IP draws a reply, at most 1,000 in a second for an interface (R73), counted in whole seconds of
the interval clock (DESIGN CHOICE, notes/assumptions/89.md). One beyond that, or a larger one, is discarded and not counted (DESIGN CHOICE,
notes/assumptions/101.md). -/
def answerEcho (p : Nat) (e : Echo) (s : State) : State :=
  let q := p / 4
  let now := s.tank.clockUs / 1000000
  let cnt := if s.slow.echoSecond = now then s.slow.echoCount else []
  let n := Map.get 0 q cnt
  if e.ipBytes ≤ 1500 ∧ n < 1000 then
    sendControl q p (.echoReply e.srcMac e.srcIp e.body) { s with slow := { s.slow with echoSecond := now, echoCount := Map.set 0 q (n + 1) cnt } }
  else s

/-- ECHO_REQUEST (R73). -/
def execEchoRequest (port : Fin 16) (e : Echo) (s : State) : Host.Outcome State Fault Refusal :=
  .next (slowPath port.val (answerEcho port.val e) s)

/-- SLOW_PATH_TOKEN (R73): one token, at most 64. -/
def execSlowPathToken (s : State) : Host.Outcome State Fault Refusal :=
  .next { s with slow := { s.slow with tokens := min 64 (s.slow.tokens + 1) } }

/-! ### Training and link quality (R74 to R76) -/

/-- The lanes of a port take the sets that training produced, and keep the previous ones as rollback sets; their marginal flags clear, the
reference is the temperature at training, and the next measurement is their SNR at calibration (R76, R77, R80, R81). -/
def trainLanes (p : Nat) (sets : List (List Byte)) (s : State) : State :=
  let ls := portLanes (quadMode s (p / 4)).1 p
  forEach (upTo ls.length) (fun i t =>
    let l := p + i
    let set := (sets[i]?).getD []
    let r := getLane t l
    setLane l { r with signal := true, locked := true, marginal := false, calibrating := false, rollback := r.coeffs, snrDue := true,
                       coeffs := set, accepted := set, refTemp := laneTemp t l, retryDue := none } t) s

/-- LINK_TRAINING_COMPLETE (R76, R64, R44): a port in training comes up, held out, or is reported down. Kind 0x12 is
raised for a port that does not train at a start; one that was down already stays down. -/
def execLinkTrainingComplete (port : Fin 16) (up : Bool) (sets : List (List Byte)) (s : State) :
    Host.Outcome State Fault Refusal :=
  let p := port.val
  let r := getPort s p
  if !(r.present && r.training) || s.pins.powerFail then .next s
  else if up then
    .next (changePort p (fun r => { r with up := true, heldOut := true, trained := true, training := false })
      (trainLanes p sets s))
  else
    let atStart : Bool := s.tank.phase = 0x07
    let s1 := setPort p { r with trained := true, training := false, everDown := r.everDown || atStart } s
    .next (if atStart then raise (0x060 + p) 0x12 p s1 else s1)

/-- The SNR in 0.1 dB, rounded down and within 16 bits (R74). -/
def snrOf (m : LaneSample) : Nat :=
  let sig := m.mean0.natAbs ^ 2 + m.mean1.natAbs ^ 2 + m.mean2.natAbs ^ 2 + m.mean3.natAbs ^ 2
  if m.varSum = 0 then max16 else min max16 (Nat.log 10 (sig ^ 100 / m.varSum ^ 100))

/-- The margin in 1/256 of the mean level spacing, from 0 to 255 (R74). -/
def marginOf (m : LaneSample) : Nat :=
  let eye := min m.eye0 (min m.eye1 m.eye2)
  let span := m.mean3 - m.mean0
  if span ≤ 0 ∨ eye ≤ 0 then 0 else min 255 (768 * eye / span).toNat

/-- LANE_QUALITY_SAMPLE (R74): SNR and margin of the last 1 ms; after 1 s (1,000 samples) at 0.5 dB or more above the
floor, kind 0x10 may be raised again (R75). -/
def execLaneQualitySample (lane : Fin 16) (m : LaneSample) (s : State) : Host.Outcome State Fault Refusal :=
  let l := lane.val
  let r := getLane s l
  let snr := snrOf m
  let ok := if (calibration s).2 + 5 ≤ snr then some (r.okSince.getD 0 + 1) else none
  .next (setLane l { r with snrCal := if r.snrDue then BitVec.ofNat 16 snr else r.snrCal, snrDue := false,
                            snr := BitVec.ofNat 16 snr, margin := BitVec.ofNat 8 (marginOf m), signal := m.signal,
                            locked := m.locked, okSince := ok,
                            lowRaised := if 1000 ≤ ok.getD 0 then false else r.lowRaised } s)

/-- LANE_SNR_LOW (R75): kind 0x10, and the lane goes to the head of the recalibration queue. -/
def execLaneSnrLow (lane : Fin 16) (s : State) : Host.Outcome State Fault Refusal :=
  let l := lane.val
  let r := getLane s l
  if (calibration s).2 ≤ r.snr.toNat ∨ r.lowRaised ∨ !(getPort s (lanePort s l)).up then .next s
  else .next (queueLane true l (raise (0x060 + l) 0x10 l (setLane l { r with lowRaised := true } s)))

/-- FEC_THRESHOLD (R75, R64): kind 0x13 at most once per second, and the port is held out, also where the kind is not raised again (DESIGN
CHOICE, notes/assumptions/90.md). -/
def execFecThreshold (port : Fin 16) (s : State) : Host.Outcome State Fault Refusal :=
  let p := port.val
  if !(getPort s p).up then .next s
  else .next (raiseLimited (0x060 + p) 0x13 p (changePort p (fun r => { r with heldOut := true }) s))

/-- PORT_DOWN (R75, R66, R76, R80): kind 0x12, the port goes down and retrains at once; attempts on its lanes are
abandoned. The partner's pauses and the watchdog's state end with the link (DESIGN CHOICE, notes/assumptions/91.md). -/
def execPortDown (port : Fin 16) (s : State) : Host.Outcome State Fault Refusal :=
  let p := port.val
  if !(getPort s p).up then .next s
  else
    let ls := portLanes (quadMode s (p / 4)).1 p
    let s1 := raise (0x060 + p) 0x12 p (portCount p 22 1 (abandonRecal ls s))
    .next (changePort p (fun r => { r with up := false, heldOut := false, trained := false, training := true,
                                           everDown := true, queue := [], paused := 0, discarding := 0 }) s1)

/-- PORT_JOIN_SET (R64, R65, R76): 100 ms without an uncorrectable codeword end the holding out; a port that was down
is journaled as up. -/
def execPortJoinSet (port : Fin 16) (s : State) : Host.Outcome State Fault Refusal :=
  let p := port.val
  let r := getPort s p
  if !(r.up && r.heldOut) then .next s
  else
    let s1 := changePort p (fun r => { r with heldOut := false, everDown := false }) s
    .next (if r.everDown then journalEvent (0x050 + p / 4) 0x43 0 [BitVec.ofNat 8 p] s1 else s1)

/-- PORT_RETRAIN (R76): 1 s after a failed attempt the port trains again. -/
def execPortRetrain (port : Fin 16) (s : State) : Host.Outcome State Fault Refusal :=
  let r := getPort s port.val
  if r.present && !r.up && !r.training && !s.pins.powerFail && (s.tank.phase = 0x08 || s.tank.phase = 0x07) then
    .next (setPort port.val { r with training := true } s)
  else .next s

/-! ### Recalibration (R77 to R80) -/

/-- RECAL_START (R78): the next queued lane starts its attempt; its temperature reference is updated. Attempts start in
phase 0x08 (DESIGN CHOICE, notes/assumptions/102.md). -/
def execRecalStart (s : State) : Host.Outcome State Fault Refusal :=
  if s.tank.phase ≠ 0x08 ∨ s.recal.active ≠ none then .next s
  else match nextLane s with
    | none => .next s
    | some l =>
      let r := getLane s l
      .next (setLane l { r with calibrating := true, refTemp := laneTemp s l, attempts := sat32 r.attempts 1,
                                lastMinute := s.tank.minute }
        { s with recal := { urgent := s.recal.urgent.filter (· ≠ l), queue := s.recal.queue.filter (· ≠ l),
                            active := some l } })

/-- RECAL_DECISION (R79): accepted and swapped in, no gain, or failed with kind 0x11. -/
def execRecalDecision (candidate current : W16) (set : List Byte) (s : State) : Host.Outcome State Fault Refusal :=
  match s.recal.active with
  | none => .next s
  | some l =>
    let r := getLane s l
    let s1 := { s with recal := { s.recal with active := none } }
    let floor := (calibration s).2
    if candidate.toNat < floor then
      .next (raise (0x060 + l) 0x11 l (setLane l
        { r with calibrating := false, marginal := true, retryDue := some (s.tank.clockUs + 60000000),
                 failures := if r.failures = 0xFF then 0xFF else r.failures + 1 } s1))
    else if candidate.toNat + 10 < current.toNat then
      .next (portCount (lanePort s l) 23 1 (setLane l { r with calibrating := false } s1))
    else
      .next (setLane l { r with calibrating := false, marginal := false, retryDue := none, rollback := r.coeffs,
                                coeffs := set, accepted := set, snrCal := candidate, snrDue := false } s1)

/-- RECAL_RETRY (R77): 60 s after its last failed attempt, a lane that is still marginal is queued again, where it may be. -/
def execRecalRetry (lane : Fin 16) (s : State) : Host.Outcome State Fault Refusal :=
  let l := lane.val
  let r := getLane s l
  .next (if r.marginal ∧ r.retryDue ≠ none then queueLane false l s else s)

/-- QUIESCE_DRAIN_END (R67): the frames that remain are discarded, and the transmitters are held idle. -/
def execQuiesceDrainEnd (port : Fin 16) (s : State) : Host.Outcome State Fault Refusal :=
  let r := getPort s port.val
  if r.draining then .next (setPort port.val { r with draining := false, queue := [] } s) else .next s

end Sys2Proof.Machine
end

