-- ==== Sys2Proof/Machine/Transport.lean ====
section
/-! DEFINITION. RoCEv2 requests (R71, R72, R83 to R99): the checks of R90, sequence numbers and duplicates, execution
line by line, the responses in PSN order, ACKs, and the reaction point. -/

namespace Sys2Proof.Machine

/-! ### Establishing a QP (R72, R103, R105) -/

/-- The rate of the port that a QP's traffic leaves through (R64, R72). -/
def qpPortRate (s : State) (qpn : BitVec 24) : Nat :=
  match egress s (getQp s qpn).iface qpn with
  | some p => portRate s p
  | none => portRate s (4 * (getQp s qpn).iface)

/-- A connecting context becomes established: the limiter starts, the connection is counted and journaled. -/
def establish (qpn : BitVec 24) (s : State) : State :=
  let q := getQp s qpn
  let r := qpPortRate s qpn
  let s1 := setQp qpn { q with state := .established, wasEstablished := true, rate := r, target := r, alpha := 0x3FF, stage := 0 } s
  let v6 := match q.remote with | .v6 _ => true | .v4 _ => false
  journalEvent 0x080 0x40 0
    (beBytes 3 qpn.toNat ++ beBytes 1 (q.iface * 64 + q.mtu.toNat * 8 + bit v6 0) ++ beBytes 2 q.tenant ++ beBytes 2 (q.cls * 256) ++
      beBytes 16 (ipNat q.remote) ++ beBytes 3 q.remoteQpn.toNat ++ [0] ++ beBytes 4 q.localComm.toNat ++ beBytes 4 q.remoteComm.toNat)
    (tenantCount q.tenant 22 1 s1)

/-- A context is freed after disconnection or error, its QPN held for 100 ms (R87); one that was established is journaled with its
cause (R105, R323): 0 DREQ, 1 10 s in error, 2 kind 0x62, 3 tenant out of use. -/
def freeQpCause (qpn : BitVec 24) (cause : Nat) (s : State) : State :=
  let q := getQp s qpn
  let c := if q.outOfUse && cause ≠ 2 then 3 else cause
  let s1 := freeQp qpn true s
  if q.wasEstablished then
    journalEvent 0x080 0x41 0 (beBytes 3 qpn.toNat ++ beBytes 1 c ++ beBytes 2 q.tenant ++ [0, 0] ++ beBytes 16 (ipNat q.remote)) s1
  else s1

/-! ### Congestion notification (R71) -/

/-- A packet marked CE on an established QP is counted, and answered with a CNP when none has gone in the last 50 µs. -/
def noteCe (k : Pkt) (s : State) : State :=
  if k.ecn ≠ 3 then s
  else
    let q := getQp s k.dqp
    let s1 := portCount k.port.val 17 1 s
    let recent := (q.cnpSentAt.map (fun t => decide (s.tank.clockUs < t + 50))).getD false
    match egress s1 q.iface k.dqp, ifaceOf s1 q.iface with
    | some p, some i =>
      if recent then s1
      else
        let s2 := setQp k.dqp { q with cnpSentAt := some s.tank.clockUs, lastCnpSent := BitVec.ofNat 32 (deviceUs s) } s1
        tenantCount q.tenant 21 1 (sendFrame p i.controlPrio (.cnp q.remoteQpn q.remote q.nextHop) s2)
    | _, _ => s1

/-! ### Checks 1 to 4 (R90) -/

/-- A QPN of R86. -/
def qpnExists (q : BitVec 24) : Bool := decide (0x100 ≤ q.toNat) && decide (q.toNat ≤ 0x400FF)

/-- Checks 1 to 4: whether the packet goes on, and the state; a connecting context is established by it (R103). -/
def admitPacket (k : Pkt) (s : State) : Bool × State :=
  let p := k.port.val
  let q := getQp s k.dqp
  if k.sramBad then (false, portCount p 29 1 s)
  else if !k.icrcOk then (false, portCount p 24 1 s)
  else if k.tver ≠ 0 || k.pkey ≠ 0xFFFF || !k.padOk then (false, portCount p 25 1 s)
  else if !qpnExists k.dqp || q.state = .free then (false, portCount p 26 1 s)
  else if q.state = .error || q.state = .disconnecting then (false, s)
  else if q.remote ≠ k.srcIp then (false, portCount p 27 1 s)
  else if q.iface ≠ p / 4 then (false, portCount p 7 1 s)
  else (true, noteCe k (if q.state = .connecting then establish k.dqp s else s))

/-- Packets reach the transport checks in service, on a port that is up (R45, R62). -/
def packetsRun (s : State) (p : Nat) : Bool := s.tank.phase = 0x08 && (getPort s p).present && (getPort s p).up

/-! ### A QP's order -/

/-- A request with nothing in it yet. -/
def QpOp.zero : QpOp :=
  { kind := .nak, psn := 0, serial := 0, npkts := 1, sent := 0, dma := 0, len := 0, spec := false, staged := [], badPkt := none,
    result := none, fetchAdd := false, linesLeft := 0, toPass := 0, doneAt := 0, waited := false, lastOfMsg := false, syndrome := 0,
    dup := false }

/-- The place of a PSN in a QP's order: before the first request with a later PSN (R94 to R96). -/
def opPlace (psn : BitVec 24) (l : List QpOp) : Nat := (l.takeWhile (fun o => !psnAfter o.psn psn)).length

/-- A request joins its QP's order under the QP's next serial number. -/
def insertOp (qpn : BitVec 24) (o : QpOp) (s : State) : State :=
  let q := getQp s qpn
  setQp qpn { q with ops := q.ops.insertIdx (opPlace o.psn q.ops) { o with serial := q.serial }, serial := q.serial + 1 } s

/-- A NAK takes its place; a fatal one puts the QP in error and drops what is later (R96). -/
def queueNak (qpn psn : BitVec 24) (syn : Byte) (fatal : Bool) (s : State) : State :=
  let i := opPlace psn (getQp s qpn).ops
  let s1 := insertOp qpn { QpOp.zero with psn := psn, syndrome := syn } s
  settleQp qpn (if fatal then enterError qpn (i + 1) s1 else s1)

/-- A READ or atomic takes its place in the order, its slot and its read tracker (R88, R91). -/
def takeSlot (qpn : BitVec 24) (o : QpOp) (s : State) : State :=
  let s1 := insertOp qpn o s
  let q := getQp s1 qpn
  { setQp qpn { q with outstanding := q.outstanding + 1, oldestPsn := oldestOutstanding q.ops } s1 with
    trackers := Map.modify 0 q.iface (· + 1) s1.trackers }

/-- A READ or atomic leaves the order: its slot and tracker are free (R88, R91). -/
def releaseSlot (qpn : BitVec 24) (o : QpOp) (s : State) : State :=
  let q := getQp s qpn
  let q1 := { q with ops := q.ops.tail, oldestPsn := oldestOutstanding q.ops.tail }
  if holdsTracker o then
    { setQp qpn { q1 with outstanding := q.outstanding - 1 } s with trackers := Map.modify 0 q.iface (fun v => v - 1) s.trackers }
  else setQp qpn q1 s

/-! ### Checks 6 to 17 (R90) -/

/-- The operation of a request opcode. -/
inductive ReqOp where
  | writeFirst
  | writeMiddle
  | writeLast
  | writeOnly
  | read
  | cmpSwap
  | fetchAdd
  deriving DecidableEq, Repr

/-- READs and atomics. -/
def ReqOp.answers (o : ReqOp) : Bool := o = .read || o = .cmpSwap || o = .fetchAdd

/-- Atomics. -/
def ReqOp.atomic (o : ReqOp) : Bool := o = .cmpSwap || o = .fetchAdd

/-- Continuations of an open WRITE message, which carry no RETH. -/
def ReqOp.inMessage (o : ReqOp) : Bool := o = .writeMiddle || o = .writeLast

/-- Check 7: the opcode sequence. -/
def sequenceOk (q : Qp) (o : ReqOp) : Bool := if o.inMessage then q.writeOpen else !q.writeOpen

/-- Check 8: the lengths. -/
def lengthsOk (q : Qp) (o : ReqOp) (k : Pkt) : Bool :=
  let n := k.payload.length
  let mtu := mtuBytes q.mtu.toNat
  let reth := k.dmaLen.toNat
  match o with
  | .writeFirst => n = mtu && decide (n ≤ reth) && decide (reth ≤ 2 ^ 31)
  | .writeMiddle => n = mtu && decide (n ≤ q.writeRemaining)
  | .writeLast => decide (1 ≤ n) && decide (n ≤ mtu) && n = q.writeRemaining
  | .writeOnly => decide (n ≤ mtu) && n = reth && decide (reth ≤ 2 ^ 31)
  | .read => n = 0 && decide (reth ≤ 2 ^ 31)
  | _ => n = 0

/-- The length of an access: 8 for an atomic, the payload inside a message, the RETH length otherwise. -/
def accessLength (o : ReqOp) (k : Pkt) : Nat :=
  if o.atomic then 8 else if o.inMessage then k.payload.length else k.dmaLen.toNat

/-- The rkey that checks 11 to 16 use. -/
def accessKey (q : Qp) (o : ReqOp) (k : Pkt) : BitVec 32 := if o.inMessage then q.writeRkey else k.rkey

/-- A region grants the right that an operation needs (check 15). -/
def grants (r : Region) (o : ReqOp) : Bool :=
  match o with
  | .read => r.readOk
  | .cmpSwap | .fetchAdd => r.atomicOk
  | _ => r.writeOk

/-- Every byte of the access lies in the region (check 16). -/
def withinRegion (r : Region) (q : Qp) (o : ReqOp) (k : Pkt) : Bool :=
  let n := accessLength o k
  if o.inMessage then decide (r.slab * 65536 ≤ q.writeDma) && decide (q.writeDma + n ≤ (r.slab + r.slabs) * 65536)
  else decide (r.vbase.toNat ≤ k.va.toNat) && decide (k.va.toNat + n ≤ r.vbase.toNat + r.slabs * 65536)

/-- The DMA of an access's first byte (R90). -/
def accessDma (r : Region) (q : Qp) (o : ReqOp) (k : Pkt) : Nat :=
  if o.inMessage then q.writeDma else r.slab * 65536 + (k.va.toNat - r.vbase.toNat)

/-- Checks 6 to 16: the NAK syndrome of the first that fails. `dup` gives the exceptions of R94, `reused` that the slot of
an original is taken over. Check 6 holds for every operation here. -/
def checkRequest (s : State) (q : Qp) (o : ReqOp) (k : Pkt) (dup reused : Bool) : Option Byte :=
  let r := getRegion s (rkeyRegion (accessKey q o k))
  if !dup && !sequenceOk q o then some 0x61
  else if dup && o.inMessage then none
  else if !lengthsOk q o k then some 0x61
  else if o.answers && !reused && decide (8 < q.outstanding + 1) then some 0x61
  else if o.atomic && k.va.toNat % 8 ≠ 0 then some 0x61
  else if accessLength o k = 0 then none
  else if !r.inUse || r.gen ≠ rkeyGen (accessKey q o k) || r.tenant ≠ q.tenant || !r.active || !grants r o || !withinRegion r q o k then
    some 0x62
  else none

/-- Check 17: a read tracker is available (R91). -/
def trackerFree (s : State) (q : Qp) : Bool := decide (Map.get 0 q.iface s.trackers < 16384)

/-! ### Execution (R97, R99) -/

/-- The line request of a part of an access, made before the access joins its QP's order: it carries the serial number that the access
will have. -/
def lineReq (s : State) (kind : ReqKind) (k : Pkt) (region : Nat) (p : LinePart) (data : List Byte) : LineReq :=
  { kind := kind, qpn := k.dqp, psn := k.psn, serial := (getQp s k.dqp).serial, port := k.port.val, prio := k.prio.val, dma := p.dma, off := p.off, len := p.len, data := data,
    compare := k.compare, swapAdd := k.swapAdd, cls := (getQp s k.dqp).cls, slot := (lineKey s region p.dma).1,
    region := region, spec := (getRegion s region).spec, enq := 0, target := none }

/-- A READ is accepted: its place, its tracker, and a request for each line; `msg` says that its last packet completes the message. -/
def executeRead (k : Pkt) (region dma len : Nat) (dup msg : Bool) (s : State) : State :=
  let q := getQp s k.dqp
  let op : QpOp := { QpOp.zero with
    kind := .read, psn := k.psn, npkts := readPackets len (mtuBytes q.mtu.toNat), dma := dma, len := len,
    spec := (getRegion s region).spec, lastOfMsg := msg, dup := dup }
  let s1 := takeSlot k.dqp op (tenantCount q.tenant 2 1 s)
  submit ((lineParts dma len).map (fun p => lineReq s .read k region p [])) s1

/-- A WRITE packet is accepted: its place, and a request for each line: full-line or partial-line (R97). -/
def executeWrite (k : Pkt) (region dma : Nat) (last : Bool) (s : State) : State :=
  let parts := lineParts dma k.payload.length
  let q := getQp s k.dqp
  let op : QpOp := { QpOp.zero with
    kind := .write, psn := k.psn, dma := dma, len := k.payload.length, linesLeft := parts.length, toPass := parts.length,
                                  doneAt := s.tank.clockUs, lastOfMsg := last }
  let s1 := insertOp k.dqp op s
  if parts = [] then
    settleQp k.dqp (countDone k.dqp false (countApplied q.tenant op s1))
  else submit (parts.map (fun p =>
    lineReq s (if p.len = 64 then .fullWrite else .partWrite) k region p (partData dma k.payload p))) s1

/-- An atomic is accepted: its place, its tracker, and a request for its line. -/
def executeAtomic (k : Pkt) (add : Bool) (region dma : Nat) (s : State) : State :=
  let op : QpOp := { QpOp.zero with kind := .atomic, psn := k.psn, dma := dma, len := 8, fetchAdd := add }
  let s1 := takeSlot k.dqp op s
  submit [lineReq s (if add then .fetchAdd else .cmpSwap) k region { dma := dma / 64 * 64, off := dma % 64, len := 8 } []] s1

/-- What an accepted WRITE packet leaves in its context: the open message (R88). -/
def openMessage (o : ReqOp) (k : Pkt) (dma : Nat) (q : Qp) : Qp :=
  let n := k.payload.length
  match o with
  | .writeFirst => { q with writeOpen := true, writeRkey := k.rkey, writeRemaining := k.dmaLen.toNat - n, writeDma := dma + n }
  | .writeMiddle => { q with writeRemaining := q.writeRemaining - n, writeDma := dma + n }
  | .writeLast => { q with writeOpen := false, writeRemaining := q.writeRemaining - n, writeDma := dma + n }
  | _ => q

/-- PSNs that an accepted request takes (R92). -/
def psnsOf (q : Qp) (o : ReqOp) (k : Pkt) : Nat := if o = .read then readPackets k.dmaLen.toNat (mtuBytes q.mtu.toNat) else 1

/-- A request that has passed every check is executed; `msg` says that the READ has yet to be counted as a message (R88). -/
def executeRequest (o : ReqOp) (k : Pkt) (dup msg : Bool) (s : State) : State :=
  let q := getQp s k.dqp
  let region := rkeyRegion (accessKey q o k)
  let dma := accessDma (getRegion s region) q o k
  match o with
  | .read => executeRead k region dma k.dmaLen.toNat dup msg s
  | .cmpSwap => executeAtomic k false region dma s
  | .fetchAdd => executeAtomic k true region dma s
  | _ => executeWrite k region dma (o = .writeLast || o = .writeOnly) s

/-- The expected packet (R90, R92): a NAK, a discard for want of a tracker, or its execution. -/
def takeExpected (o : ReqOp) (k : Pkt) (s : State) : State :=
  let q0 := { getQp s k.dqp with seqNak := false }
  let s0 := setQp k.dqp q0 s
  match checkRequest s0 q0 o k false false with
  | some syn => queueNak k.dqp k.psn syn true s0
  | none =>
    if o.answers && !trackerFree s0 q0 then portCount k.port.val 28 1 s
    else
      let dma := accessDma (getRegion s0 (rkeyRegion (accessKey q0 o k))) q0 o k
      let s1 := executeRequest o k false true s0
      let q1 := getQp s1 k.dqp
      setQp k.dqp (openMessage o k dma { q1 with epsn := q1.epsn + BitVec.ofNat 24 (psnsOf q1 o k) }) s1

/-- A packet ahead of sequence (R93). -/
def takeAhead (k : Pkt) (s : State) : State :=
  let q := getQp s k.dqp
  if q.seqNak then s
  else queueNak k.dqp q.epsn 0x60 false (setQp k.dqp { q with seqNak := true } s)

/-! ### Duplicates (R94) -/

/-- The original of a duplicate READ, while it is still being answered. -/
def originalRead (q : Qp) (psn : BitVec 24) : Option QpOp :=
  q.ops.find? (fun o => o.kind = .read && decide ((psn - o.psn).toNat < o.npkts))

/-- The line requests of a READ that have not passed their ordering points are taken back; those that have answer no request of the QP
any longer. -/
def takeBack (qpn : BitVec 24) (o : QpOp) (s : State) : State :=
  let keep (r : LineReq) : Bool := !(r.qpn = qpn && r.psn = o.psn && r.serial = o.serial)
  { s with path := { s.path with backlog := s.path.backlog.filter keep,
                                 classQ := (s.path.classQ.map (fun e => (e.1, e.2.filter keep))).filter (fun e => e.2 ≠ []) } }

/-- The original's remaining response packets are abandoned; its slot and tracker go over to the duplicate. -/
def abandonRead (qpn : BitVec 24) (o : QpOp) (s : State) : State :=
  let q := getQp s qpn
  takeBack qpn o
    { setQp qpn { q with ops := q.ops.filter (· ≠ o), outstanding := q.outstanding - 1 } s with
      trackers := Map.modify 0 q.iface (fun v => v - 1) s.trackers }

/-- A duplicate WRITE packet is not applied; it counts towards acknowledgement. -/
def duplicateWrite (k : Pkt) (s : State) : State :=
  settleQp k.dqp (countDone k.dqp false (insertOp k.dqp { QpOp.zero with kind := .write, psn := k.psn, doneAt := s.tank.clockUs, dup := true } s))

/-- A duplicate packet, counted for the tenant. -/
def takeDuplicate (o : ReqOp) (k : Pkt) (s0 : State) : State :=
  let q := getQp s0 k.dqp
  let s := tenantCount q.tenant 8 1 s0
  match (if o.atomic then q.ring.find? (fun e => e.psn = k.psn) else none) with
  | some e =>
    tenantCount q.tenant 7 1
      (insertOp k.dqp { QpOp.zero with kind := .atomic, psn := k.psn, result := some e.orig, fetchAdd := e.fetchAdd, dup := true } s)
  | none =>
    let running := o.atomic && q.ops.any (fun x => x.kind = .atomic && x.psn = k.psn)
    let orig := if o = .read then originalRead q k.psn else none
    match checkRequest s q o k true (running || orig.isSome) with
    | some syn => queueNak k.dqp k.psn syn true s
    | none =>
      if running then s
      else if o.atomic then queueNak k.dqp k.psn 0x61 true s
      else if o ≠ .read then duplicateWrite k s
      else match orig with
        | some x => executeRequest o k true x.lastOfMsg (abandonRead k.dqp x s)
        | none => if trackerFree s q then executeRequest o k true false s else portCount k.port.val 28 1 s

/-- A request packet of a supported opcode (R90). -/
def takeRequest (o : ReqOp) (k : Pkt) (s : State) : State :=
  if !packetsRun s k.port.val then s
  else
    let a := admitPacket k s
    if !a.1 then a.2
    else match psnClass k.psn (getQp a.2 k.dqp).epsn with
      | .expected => takeExpected o k a.2
      | .ahead => takeAhead k a.2
      | .duplicate => takeDuplicate o k a.2

/-! ### The request commands -/

/-- RDMA_READ_REQUEST (R90 to R98). -/
def execRdmaReadRequest (k : Pkt) (s : State) : Host.Outcome State Fault Refusal := .next (takeRequest .read k s)

/-- RDMA_WRITE_FIRST (R90 to R98). -/
def execRdmaWriteFirst (k : Pkt) (s : State) : Host.Outcome State Fault Refusal := .next (takeRequest .writeFirst k s)

/-- RDMA_WRITE_MIDDLE (R90 to R98). -/
def execRdmaWriteMiddle (k : Pkt) (s : State) : Host.Outcome State Fault Refusal := .next (takeRequest .writeMiddle k s)

/-- RDMA_WRITE_LAST (R90 to R98). -/
def execRdmaWriteLast (k : Pkt) (s : State) : Host.Outcome State Fault Refusal := .next (takeRequest .writeLast k s)

/-- RDMA_WRITE_ONLY (R90 to R98). -/
def execRdmaWriteOnly (k : Pkt) (s : State) : Host.Outcome State Fault Refusal := .next (takeRequest .writeOnly k s)

/-- CMPSWAP (R90 to R99). -/
def execCmpSwap (k : Pkt) (s : State) : Host.Outcome State Fault Refusal := .next (takeRequest .cmpSwap k s)

/-- FETCHADD (R90 to R99). -/
def execFetchAdd (k : Pkt) (s : State) : Host.Outcome State Fault Refusal := .next (takeRequest .fetchAdd k s)

/-- The opcodes of the reliable-connection group that R83 supports. -/
def supportedOpcode (o : Byte) : Bool :=
  o = 0x06 || o = 0x07 || o = 0x08 || o = 0x0A || o = 0x0C || o = 0x13 || o = 0x14

/-- UNSUPPORTED_OPCODE (R83, R90): checks 1 to 4 as for every packet; then an unsupported opcode of the reliable-connection group draws
NAK Invalid Request at check 6, and one of another group is discarded without a response. -/
def execUnsupportedOpcode (k : Pkt) (s : State) : Host.Outcome State Fault Refusal :=
  if !packetsRun s k.port.val || supportedOpcode k.opcode then .next s
  else
    let a := admitPacket k s
    if !a.1 || decide (0x20 ≤ k.opcode.toNat) then .next a.2
    else match psnClass k.psn (getQp a.2 k.dqp).epsn with
      | .ahead => .next (takeAhead k a.2)
      | .expected =>
        .next (queueNak k.dqp k.psn 0x61 true (setQp k.dqp { getQp a.2 k.dqp with seqNak := false } a.2))
      | .duplicate => .next (queueNak k.dqp k.psn 0x61 true (tenantCount (getQp a.2 k.dqp).tenant 8 1 a.2))

/-! ### Responses (R95, R98, R144) -/

/-- The bytes of response packet k of a READ: first byte and end, from the DMA of the read. -/
def packetSpan (q : Qp) (o : QpOp) : Nat × Nat :=
  let mtu := mtuBytes q.mtu.toNat
  (o.sent * mtu, min o.len ((o.sent + 1) * mtu))

/-- The staged line that holds a DMA line. -/
def stagedLine (o : QpOp) (dma : Nat) : Option Staged := o.staged.find? (fun x => x.dma = dma)

/-- The staged lines of the packet to be sent next; none while one is missing. -/
def packetLines (q : Qp) (o : QpOp) : Option (List (LinePart × Staged)) :=
  let sp := packetSpan q o
  (lineParts (o.dma + sp.1) (sp.2 - sp.1)).mapM (fun p => (stagedLine o p.dma).map (fun x => (p, x)))

/-- The bytes of a part of a packet, from a staged line that begins at its first byte of the read. -/
def packetBytes (o : QpOp) (e : LinePart × Staged) : List Byte :=
  let start := max o.dma e.1.dma
  (e.2.data.drop (e.1.dma + e.1.off - start)).take e.1.len

/-- The tag results that a response packet's lines have by now: the packet is stomped by those that do not pass when its FCS begins
(R144). -/
def packetTags (qpn : BitVec 24) (o : QpOp) (lines : List (LinePart × Staged)) : List TagResult :=
  lines.map (fun e => { qpn := qpn, psn := o.psn, serial := o.serial, dma := e.1.dma, tag := e.2.tag })

/-- A response with a PSN has been sent (R88, R95): it acknowledges every earlier write packet, so it takes the place of the ACK unless
it answers a duplicate from before them. -/
def acknowledged (psn : BitVec 24) (dup : Bool) (q : Qp) : Qp :=
  if dup && !psnAfter psn q.donePsn then { q with ackPsn := psn, doneSince := 0 }
  else { nothingDue q with ackPsn := psn, donePsn := if dup then q.donePsn else psn }

/-- Sends response packet `sent` of the READ at the head of a QP's order. -/
def sendRead (qpn : BitVec 24) (o : QpOp) (lines : List (LinePart × Staged)) (s : State) : State :=
  let q := getQp s qpn
  let last := o.sent + 1 = o.npkts
  let psn := o.psn + BitVec.ofNat 24 o.sent
  let payload := (lines.map (packetBytes o)).flatten
  let q1 := acknowledged psn o.dup { q with msn := if last && o.lastOfMsg then q.msn + 1 else q.msn,
                                            ops := q.ops.set 0 { o with sent := o.sent + 1 } }
  let op := readOpcode o.sent o.npkts
  let s1 := sendRdma qpn op psn (if op = 0x0E then none else some 0x1F) payload none (packetTags qpn o lines) (setQp qpn q1 s)
  if last then settleQp qpn (releaseSlot qpn o s1) else s1

/-- A READ has met a line that it cannot serve: NAK Remote Operational Error in place of the packet (R98). -/
def nakRead (qpn : BitVec 24) (o : QpOp) (s : State) : State :=
  let s1 := releaseSlot qpn o s
  sendNak qpn (o.psn + BitVec.ofNat 24 o.sent) 0x63 s1 |> settleQp qpn

/-- Sends the ATOMIC Acknowledge at the head of a QP's order (R99). -/
def sendAtomic (qpn : BitVec 24) (o : QpOp) (v : W64) (s : State) : State :=
  let q := getQp s qpn
  let q1 := acknowledged o.psn o.dup { q with msn := if o.dup then q.msn else q.msn + 1 }
  settleQp qpn (releaseSlot qpn o (sendRdma qpn 0x12 o.psn (some 0x1F) [] (some v) [] (setQp qpn q1 s)))

/-- RESPONSE_SEND (R95, R98, R144): the response at the head of a QP's order leaves when it is ready. -/
def execResponseSend (qpn : BitVec 24) (s : State) : Host.Outcome State Fault Refusal :=
  let q := getQp s qpn
  match q.ops with
  | [] => .next s
  | o :: _ =>
    match o.kind with
    | .read =>
      if (o.badPkt.map (fun b => decide (b ≤ o.sent))).getD false then .next (nakRead qpn o s)
      else match packetLines q o with
        | some lines => .next (sendRead qpn o lines s)
        | none => .next s
    | .atomic =>
      match o.result with
      | some v => .next (sendAtomic qpn o v s)
      | none => .next s
    | _ => .next (settleQp qpn s)

/-- ACK_DEADLINE (R95): the 1 µs since the oldest unacknowledged done write packet has passed. -/
def execAckDeadline (qpn : BitVec 24) (s : State) : Host.Outcome State Fault Refusal :=
  if 0 < (getQp s qpn).unacked then .next (sendAck qpn s) else .next s

/-! ### The reaction point (R72) -/

/-- α after a CNP acted on: (1 − g)α + g, rounded down, at most 0x3FF. -/
def alphaRise (a g : Nat) : BitVec 10 := BitVec.ofNat 10 (min 0x3FF (((1024 - g) * a + g * 1024) / 1024))

/-- α after 55 µs with none: (1 − g)α, rounded down. -/
def alphaDecay (a g : Nat) : BitVec 10 := BitVec.ofNat 10 ((1024 - g) * a / 1024)

/-- The class record of a QP's class, or one that changes nothing. -/
def limiter (s : State) (q : Qp) : ClassRec :=
  (classRec s q.cls).getD { inUse := false, pfc := 0, dscp := 0, esc := 0, target := 0, cap := 0, minRate := 0, gain := 0,
                            step := 0, period := 0 }

/-- A CNP that drives the limiter. -/
def reactCnp (now usec : Nat) (c : ClassRec) (q : Qp) : Qp :=
  { q with target := q.rate, rate := max c.minRate (q.rate * (2048 - q.alpha.toNat) / 2048), alpha := alphaRise q.alpha.toNat c.gain,
           stage := 0, cnpActedAt := some now, lastCnpActed := BitVec.ofNat 32 usec }

/-- CNP_RECEIVE (R71, R72, R90): a CNP that passes checks 1 to 4 is counted, and drives its QP's limiter, or is only counted within
50 µs of the last one acted on. -/
def execCnpReceive (k : Pkt) (s : State) : Host.Outcome State Fault Refusal :=
  if !packetsRun s k.port.val then .next s
  else
    let a := admitPacket k s
    if !a.1 then .next a.2
    else
      let s1 := portCount k.port.val 16 1 a.2
      let q := getQp s1 k.dqp
      if (q.cnpActedAt.map (fun t => decide (s.tank.clockUs < t + 50))).getD false then .next s1
      else .next (setQp k.dqp (reactCnp s.tank.clockUs (deviceUs s) (limiter s q) q) s1)

/-- RP_ALPHA_DECAY (R72): 55 µs have passed with no CNP acted on. -/
def execRpAlphaDecay (qpn : BitVec 24) (s : State) : Host.Outcome State Fault Refusal :=
  let q := getQp s qpn
  if q.state = .established then .next (setQp qpn { q with alpha := alphaDecay q.alpha.toNat (limiter s q).gain } s) else .next s

/-- One step of the increase: both rates are capped at the port rate, after the average is taken (DESIGN CHOICE,
notes/assumptions/100.md). -/
def increaseRate (cap : Nat) (c : ClassRec) (q : Qp) : Qp :=
  let st := if q.stage = 0xFF then (0xFF : Byte) else q.stage + 1
  let target := if st.toNat ≤ 5 then q.target else q.target + c.step
  { q with stage := st, target := min cap target, rate := min cap ((target + q.rate) / 2) }

/-- RP_INCREASE (R72): an increase period has passed with no CNP acted on. -/
def execRpIncrease (qpn : BitVec 24) (s : State) : Host.Outcome State Fault Refusal :=
  let q := getQp s qpn
  if q.state = .established then .next (setQp qpn (increaseRate (qpPortRate s qpn) (limiter s q) q) s) else .next s

end Sys2Proof.Machine
end

