-- ==== Sys2Proof/Machine/Connect.lean ====
section
/-! DEFINITION. Connection management on QP1 (R86, R87, R96, R100 to R106): matching a REQ, the REP with its region
descriptors, RTU, REJ and DREQ, and the timers of a context. -/

namespace Sys2Proof.Machine

/-! ### MADs -/

/-- The Q_Key, management class and base version that R100 accepts. -/
def madOk (m : Mad) : Bool := m.qkey = 0x80010000 && m.mgmtClass = 0x07 && m.baseVersion = 1

/-- A MAD that is discarded with no answer is counted (R100). -/
def discardMad (m : Mad) (s : State) : State := portCount m.port.val 12 1 s

/-- The core takes a MAD to QP1 out of the slow path and, where it passes R84 and R100, acts on it; another transport version or P_Key
is a header error (R73, R84, R100). -/
def takeMad (m : Mad) (act : State → State) (s : State) : State :=
  slowPath m.port.val (fun t =>
    if m.tver ≠ 0 || m.pkey ≠ 0xFFFF then portCount m.port.val 25 1 t
    else if madOk m then act t else discardMad m t) s

/-- A MAD other than a REQ of another class version is discarded (R100). -/
def takeLater (m : Mad) (act : State → State) (s : State) : State :=
  takeMad m (fun t => if m.classVersion = 2 then act t else discardMad m t) s

/-- The answer to a MAD, which goes to where it came from (R100). -/
def answerFrame (m : Mad) (attr reason : Nat) (localComm remoteComm : W32) (qpn : BitVec 24) (priv : List Byte) : TxFrame :=
  .mad { attr := BitVec.ofNat 16 attr, reason := BitVec.ofNat 16 reason, localComm := localComm, remoteComm := remoteComm,
         qpn := qpn, ip := m.srcIp, mac := m.srcMac, udp := m.srcUdp, dqp := m.srcQp, rep := none, priv := priv }

/-- Answers a MAD (R100). -/
def answerMad (m : Mad) (attr reason : Nat) (localComm remoteComm : W32) (qpn : BitVec 24) (priv : List Byte) (s : State) : State :=
  sendControl (m.port.val / 4) m.port.val (answerFrame m attr reason localComm remoteComm qpn priv) s

/-- A REJ to a REQ (R101): no additional information, private data zeros. -/
def rejectReq (m : Mad) (reason : Nat) (s : State) : State := answerMad m 0x0012 reason 0 m.localComm 0 [] s

/-! ### The REP (R102, R106) -/

/-- The active regions of a tenant, in ascending index (R106). -/
def listedRegions (s : State) (tenant : Nat) : List (Nat × Region) :=
  s.regions.filter (fun e => e.2.inUse && e.2.active && e.2.tenant = tenant)

/-- A region descriptor (R106). -/
def descriptor (e : Nat × Region) : List Byte :=
  beBytes 4 (rkeyOf e.1 e.2.gen).toNat ++ beBytes 8 e.2.vbase.toNat ++ beBytes 3 e.2.slabs ++
    beBytes 1 (bit e.2.readOk 0 + bit e.2.writeOk 1 + bit e.2.atomicOk 2)

/-- The 196 bytes of private data of a REP (R106). -/
def repPrivate (s : State) (tenant ordinal : Nat) : List Byte :=
  let l := listedRegions s tenant
  let d := (l.drop ordinal).take 12
  padTo 196 ([1] ++ beBytes 1 d.length ++ beBytes 2 (min 0xFFFF l.length) ++ (d.map descriptor).flatten)

/-- The start ordinal that a REQ names (R106). -/
def startOrdinal (m : Mad) : Nat := if field m.priv 0 1 = 1 then field m.priv 2 2 else 0

/-- What every REP carries beside its IDs, QPN and private data (R102). -/
def repFields : RepFields :=
  { startPsn := 0, responderResources := 8, initiatorDepth := 0, ackDelay := 8, failover := 1, flowControl := false, rnrRetry := 0,
    srq := false }

/-- The REP of a context (R102). -/
def repFrame (qpn : BitVec 24) (q : Qp) (s : State) : TxFrame :=
  .mad { attr := 0x0013, reason := 0, localComm := q.localComm, remoteComm := q.remoteComm, qpn := qpn, ip := q.remote,
         mac := q.nextHop, udp := q.reqUdp, dqp := q.reqQp, rep := some repFields, priv := repPrivate s q.tenant q.ordinal }

/-- Sends the REP of a context (R102). -/
def sendRep (qpn : BitVec 24) (s : State) : State :=
  let q := getQp s qpn
  sendControl q.iface q.reqPort (repFrame qpn q s) s

/-! ### REQ (R87, R101, R102) -/

/-- The context that a REQ is a repeat of: same communication ID and source, connecting or established. -/
def staleContext (s : State) (m : Mad) : Option (Nat × Qp) :=
  s.qps.find? (fun e => (e.2.state = .connecting || e.2.state = .established) && e.2.remoteComm = m.localComm && e.2.remote = m.srcIp)

/-- The tenant whose Service ID a REQ names. -/
def tenantOf (s : State) (m : Mad) : Option TenantRec := (planOf s).tenants.find? (fun t => t.serviceId = m.serviceId)

/-- Live QPs of a tenant: connecting and established (R108). -/
def liveQps (s : State) (tenant : Nat) : Nat :=
  (s.qps.filter (fun e => e.2.tenant = tenant && (e.2.state = .connecting || e.2.state = .established))).length

/-- A QPN may be assigned: its context is free, and it was not freed within the last 100 ms (R87). -/
def qpnFree (s : State) (n : Nat) : Bool :=
  (Map.get Qp.zero n s.qps).state = .free && !s.qpnFreed.any (fun e => e.1 = n && decide (s.tank.clockUs < e.2 + 100000))

/-- The QPN after `n`, wrapping from 0x400FF to 0x100 (R87). -/
def nextQpn (n : Nat) : Nat := if n = 0x400FF then 0x100 else n + 1

/-- The first free QPN at or after `n`; `fuel` bounds the search. -/
def findQpn (s : State) : Nat → Nat → Option Nat
  | 0, _ => none
  | fuel + 1, n => if qpnFree s n then some n else findQpn s fuel (nextQpn n)

/-- The steps 2 to 6 of R101: the REJ reason of the first that fails; the flag says that the tenant is known. -/
def matchReq (s : State) (m : Mad) : Option (Nat × Option TenantRec) :=
  if m.transport ≠ 0 then some (9, none)
  else if m.mtu.toNat < 3 || 5 < m.mtu.toNat then some (26, none)
  else match tenantOf s m with
    | none => some (8, none)
    | some t =>
      if !(accessList (planOf s) t).any (fun e => prefixMatches e m.srcIp) || m.gid ≠ gidOf m.srcIp then some (28, some t)
      else if t.quota ≤ liveQps s t.index then some (1, some t)
      else none

/-- A REJ of matching; counted for the tenant that step 4 found (R125). -/
def refuseReq (m : Mad) (r : Nat × Option TenantRec) (s : State) : State :=
  let s1 := rejectReq m r.1 s
  match r.2 with
  | some t => tenantCount t.index 23 1 s1
  | none => s1

/-- The context of a matched REQ (R102). -/
def newContext (t : TenantRec) (m : Mad) (comm : W32) : Qp :=
  { Qp.zero with
    state := .connecting, tenant := t.index, cls := t.cls, iface := m.port.val / 4, mtu := m.mtu.setWidth 3,
    remoteQpn := m.reqQpn, epsn := m.startPsn, remote := m.srcIp, nextHop := m.srcMac,
    flow := (match m.srcIp with | .v6 _ => m.flow | .v4 _ => 0), localComm := comm, remoteComm := m.localComm,
    repSends := 1, reqUdp := m.srcUdp, reqQp := m.srcQp, reqPort := m.port.val, ordinal := startOrdinal m }

/-- A context is taken for a matched REQ and the REP sent (R87, R102). -/
def acceptReq (t : TenantRec) (n : Nat) (m : Mad) (s : State) : State :=
  let qpn : BitVec 24 := BitVec.ofNat 24 n
  let comm : W32 := (Config.draw s.free).setWidth 32
  sendRep qpn (setQp qpn (newContext t m comm) (drawn { s with qpnPtr := BitVec.ofNat 24 (nextQpn n) }))

/-- A REQ is matched in the order of R101; a QP context is taken and a REP sent, or a REJ sent. -/
def takeReq (m : Mad) (s : State) : State :=
  if m.classVersion ≠ 2 then rejectReq m 31 s
  else match staleContext s m with
    | some (n, q) => if q.state = .connecting then sendRep (BitVec.ofNat 24 n) s else rejectReq m 10 s
    | none =>
      match matchReq s m with
      | some r => refuseReq m r s
      | none =>
        match tenantOf s m, findQpn s 262144 s.qpnPtr.toNat with
        | some t, some n => acceptReq t n m s
        | some t, none => refuseReq m (1, some t) s
        | none, _ => s

/-- CM_REQ (R87, R100 to R102, R106). -/
def execCmReq (m : Mad) (s : State) : Host.Outcome State Fault Refusal := .next (takeMad m (takeReq m) s)

/-! ### RTU, REJ, DREQ (R100, R103, R104) -/

/-- The context whose communication IDs a MAD carries. -/
def matchingContext (s : State) (m : Mad) : Option (Nat × Qp) :=
  s.qps.find? (fun e => e.2.state ≠ .free && e.2.localComm = m.remoteComm && e.2.remoteComm = m.localComm)

/-- An RTU: a connecting context with matching communication IDs becomes established. -/
def takeRtu (m : Mad) (s : State) : State :=
  match matchingContext s m with
  | some (n, q) => if q.state = .connecting then establish (BitVec.ofNat 24 n) s else s
  | none => s

/-- CM_RTU (R103). -/
def execCmRtu (m : Mad) (s : State) : Host.Outcome State Fault Refusal := .next (takeLater m (takeRtu m) s)

/-- A REJ frees a connecting context; its QPN may be taken again at once (R87). That both communication IDs have to match is the model's
choice (DESIGN CHOICE, notes/assumptions/92.md). -/
def takeRej (m : Mad) (s : State) : State :=
  match matchingContext s m with
  | some (n, q) => if q.state = .connecting then freeQp (BitVec.ofNat 24 n) false s else s
  | none => s

/-- CM_REJ_RECEIVE (R100): never answered. -/
def execCmRejReceive (m : Mad) (s : State) : Host.Outcome State Fault Refusal := .next (takeLater m (takeRej m) s)

/-- A request of a QP has lines that have not passed their ordering points. -/
def waitsFor (gone : List LineReq) (o : QpOp) : Bool := gone.any (fun r => r.psn = o.psn && r.serial = o.serial)

/-- A DREQ's context stops accepting packets; its requests that have not passed their ordering points are dropped, with their slots and
read trackers (R104). A request with lines on both sides of their points goes with them, and what follows a dropped write packet is not
answered, since its response would acknowledge that (R95; DESIGN CHOICE, notes/assumptions/103.md). -/
def disconnect (qpn : BitVec 24) (s : State) : State :=
  let keep (r : LineReq) : Bool := r.qpn ≠ qpn
  let queued := ((s.path.classQ.map (fun e => e.2)).flatten).filter (fun r => r.qpn = qpn)
  let gone := s.path.backlog.filter (fun r => r.qpn = qpn) ++ queued
  let s1 := { s with path := { s.path with backlog := s.path.backlog.filter keep,
                                           classQ := (s.path.classQ.map (fun e => (e.1, e.2.filter keep))).filter (fun e => e.2 ≠ []) } }
  let q := getQp s1 qpn
  let ops := (q.ops.takeWhile (fun o => !(o.kind = .write && waitsFor gone o))).filter (fun o => !waitsFor gone o)
  let out := q.ops.filter (fun o => !ops.contains o)
  let n := (out.filter holdsTracker).length
  let s2 := setQp qpn { q with state := .disconnecting, ops := ops, outstanding := q.outstanding - n, oldestPsn := oldestOutstanding ops } s1
  settleQp qpn (forEach (queued.filter (fun r => isWrite r.kind)) (fun r t => writeSettled r t) (keepOrphans qpn q.tenant (out.filter (fun o => !waitsFor gone o))
    { s2 with trackers := Map.modify 0 q.iface (fun v => v - n) s2.trackers }))

/-- The DREP to a DREQ (R104). -/
def drepFrame (m : Mad) : TxFrame := answerFrame m 0x0016 0 m.remoteComm m.localComm 0 []

/-- A DREQ: DREP in any case; a matching context becomes disconnecting, and one in error is freed. -/
def takeDreq (m : Mad) (s : State) : State :=
  let drep := sendControl (m.port.val / 4) m.port.val (drepFrame m)
  match matchingContext s m with
  | none => drep s
  | some (n, q) =>
    let qpn : BitVec 24 := BitVec.ofNat 24 n
    if q.state = .error then freeQpCause qpn 0 (tenantCount q.tenant 24 1 (drep s)) else disconnect qpn (drep s)

/-- CM_DREQ (R96, R104). -/
def execCmDreq (m : Mad) (s : State) : Host.Outcome State Fault Refusal := .next (takeLater m (takeDreq m) s)

/-- DISCONNECT_COMPLETE (R104, R105): once the requests and responses of a disconnecting context are complete, its pending ACK goes, and it
is freed and journaled. -/
def execDisconnectComplete (qpn : BitVec 24) (s : State) : Host.Outcome State Fault Refusal :=
  let q := getQp s qpn
  if q.state ≠ .disconnecting || q.ops ≠ [] then .next s
  else
    let s1 := if 0 < q.unacked then sendAck qpn s else s
    .next (freeQpCause qpn 0 (tenantCount q.tenant 24 1 s1))

/-- REP_TIMEOUT (R103): the REP again after 10 ms and 20 ms; at 30 ms REJ reason 4 and the context is free. -/
def execRepTimeout (qpn : BitVec 24) (s : State) : Host.Outcome State Fault Refusal :=
  let q := getQp s qpn
  if q.state ≠ .connecting then .next s
  else if q.repSends < 3 then .next (sendRep qpn (setQp qpn { q with repSends := q.repSends + 1 } s))
  else
    .next (freeQp qpn false (tenantCount q.tenant 23 1 (sendControl q.iface q.reqPort
      (.mad { attr := 0x0012, reason := 4, localComm := q.localComm, remoteComm := q.remoteComm, qpn := 0, ip := q.remote,
              mac := q.nextHop, udp := q.reqUdp, dqp := q.reqQp, rep := none, priv := [] }) s)))

/-- QP_ERROR_TIMEOUT (R96): 10 s in error, and the context is freed. -/
def execQpErrorTimeout (qpn : BitVec 24) (s : State) : Host.Outcome State Fault Refusal :=
  if (getQp s qpn).state = .error then .next (freeQpCause qpn 1 s) else .next s

end Sys2Proof.Machine
end

