-- ==== Sys2Proof/Machine/Otp.lean ====
section
/-! DEFINITION. Programming the OTP (R356, R357) and LIFECYCLE_ADVANCE (R350). -/

namespace Sys2Proof.Machine

/-- The programming supplies are within their windows, in mV (R356, condition 7). -/
def suppliesOk (vddio vprog : Nat) : Bool :=
  decide (1710 ≤ vddio) && decide (vddio ≤ 1890) && decide (4275 ≤ vprog) && decide (vprog ≤ 4725)

/-- The last samples of the programming supplies (R370); the programming supply reads 0 while it is off. -/
def noteSupplies (vddio vprog : Nat) (s : State) : State := { s with otp := { s.otp with vddio := vddio, vprog := vprog } }

/-- The OTP as it reads now, with what has been programmed since the last start. -/
def otpNow (s : State) : State := { s with otp := { s.otp with read := s.otp.live } }

/-- The word reads as all zeros, in all 39 bits, at all three references (R356, condition 4). -/
def otpBlank (s : State) (w : Nat) : Bool := otpEmpty s w && Map.get 0 w s.otp.cells = 0

/-- A word may be programmed with a value: the first failing condition of R356, 1 to 6, over the words as they read now. -/
def programCondition (s : State) (w d : Nat) : Option Nat :=
  if s.bist.state = 1 || otpBusy s then some 1
  else match sectionOf w with
    | none => some 2
    | some k =>
      if sectionState s k ≠ 0 then some 3
      else if !otpBlank s w then some 4
      else if (w = 1952 + 2 * k && d ≠ 0xC0DE0000 + k) || (w = 1953 + 2 * k && d ≠ 0x5EA10000 + k) then some 5
      else if w = 1953 + 2 * k && !otpIs s (1952 + 2 * k) (0xC0DE0000 + k) then some 6
      else none

/-- A program begins (R357). -/
def startProgram (w d : Nat) (s : State) : State :=
  { s with otp := { s.otp with op := 1, result := 0, pulses := 0, word := w, data := BitVec.ofNat 32 d } }

/-- OTP_PROGRAM's rule (R311, R356). A supply outside its window raises kind 0x42 as well. -/
def otpRule (vddio vprog : Nat) (f : ChainFrame) (s : State) : Reply :=
  let w := field f.payload 0 2
  let d := field f.payload 4 4
  if 2048 ≤ w then malformed 0 s
  else if field f.payload 2 2 ≠ 0 then malformed 2 s
  else match programCondition (otpNow s) w d with
    | some n => refuse n s
    | none =>
      if suppliesOk vddio vprog then accepted [] (startProgram w d (noteSupplies vddio vprog s))
      else { status := 0x11, payload := detail 7, st := raise 0x085 0x42 w (noteSupplies vddio 0 s) }

/-- OTP_PROGRAM: COMMAND 0x0B, with the supplies as they are sampled. -/
def execOtpProgram (p : ChainPort) (f : ChainFrame) (vddio vprog : Nat) (s : State) : Host.Outcome State Fault Refusal :=
  .next (runCommand 0x0B p f (otpRule vddio vprog f) s)

/-! ### Pulses (R357) -/

/-- The type 0x57 entry, and the warm reset that an advance to RETURN or END starts (R350). Without a verified word nothing is
journaled. -/
def endAdvance (target : Byte) (s : State) : State :=
  let s1 := if s.otp.advanceVerified then journalEvent 0x085 0x57 0 [s.otp.life, target] s else s
  let s2 := { s1 with otp := { s1.otp with advance := none, op := 2, vprog := 0 } }
  if target = 3 ∨ target = 4 then ownReset s2 else s2

/-- The word that an advance programs next, or the end of the advance. -/
def nextAdvance (s : State) : State :=
  match s.otp.advance with
  | none => s
  | some (t, w :: rest) =>
    startProgram w (fuseValue (w / 4)) { s with otp := { s.otp with advance := some (t, rest) } }
  | some (t, []) => endAdvance t s

/-- The bits that a pulse has set: programming sets bits of the intended word only (R352). -/
def pulsedBits (o : Otp) (normal : BitVec 39) : BitVec 39 := Map.get 0 o.word o.cells ||| (normal &&& otpCode o.data)

/-- The three reads of a word agree on the intended value (R352, R357). -/
def verified (normal low high : BitVec 39) (d : BitVec 32) : Bool := normal = low && normal = high && normal = otpCode d

/-- A program ends with its last read, verified or failed: kind 0x43 on failure; a type 0x56 entry for OTP_PROGRAM (R350, R357). -/
def endProgram (normal low high : BitVec 39) (s : State) : State :=
  let o := s.otp
  let ok := verified normal low high o.data
  let result : Byte := if ok then 0x00 else 0x43
  let r : OtpRead := { data := normal.setWidth 32, marginal := !verified normal low high (normal.setWidth 32) }
  let s1 := { s with otp := { o with op := 2, result := result, advanceVerified := o.advanceVerified || ok,
                                     live := Map.set OtpRead.zero o.word r o.live } }
  let s2 := if ok then s1 else raise 0x085 0x43 o.word s1
  match o.advance with
  | none =>
    journalEvent 0x085 0x56 result.toNat (beBytes 2 o.word ++ beBytes 1 o.pulses) { s2 with otp := { s2.otp with vprog := 0 } }
  | some _ => nextAdvance s2

/-- OTP_PULSE (R357): the supplies are checked, one pulse is given, and the word is read at the three references. Supplies outside
their windows give no further pulse and lead to the final read. -/
def execOtpPulse (normal low high : BitVec 39) (vddio vprog : Nat) (s : State) : Host.Outcome State Fault Refusal :=
  if s.otp.op ≠ 1 || !coreRuns s || s.tank.phase = 0x10 then .next s
  else
    let s1 := noteSupplies vddio vprog s
    let o := s1.otp
    if suppliesOk vddio vprog then
      let s2 := { s1 with otp := { o with pulses := o.pulses + 1, cells := Map.set 0 o.word (pulsedBits o normal) o.cells } }
      if verified normal low high o.data || decide (8 ≤ s2.otp.pulses) then .next (endProgram normal low high s2) else .next s2
    else
      .next (endProgram normal low high
        (raise 0x085 0x42 o.word { s1 with otp := { o with cells := Map.set 0 o.word (pulsedBits o normal) o.cells } }))

/-! ### LIFECYCLE_ADVANCE (R350) -/

/-- The first failing condition of R350, 1 to 5. -/
def advanceCondition (s : State) (target : Nat) : Option Nat :=
  if target ≠ s.otp.life.toNat + 1 then some 1
  else if target = 2 && (sectionState s 0 ≠ 1 || deviceId s = 0) then some 2
  else if target = 2 && sectionState s 1 ≠ 1 then some 3
  else if target = 2 && !(upTo 4).any (fun k => sectionState s (2 + k) = 1) then some 4
  else if s.bist.state = 1 || otpBusy s then some 5
  else none

/-- Every key slot is zeroised (R133, R350). -/
def zeroiseKeys (s : State) : State := { s with keys := [] }

/-- LIFECYCLE_ADVANCE's rule: an advance to RETURN zeroises the keys first; then the four words of the group. -/
def advanceRule (vddio vprog : Nat) (f : ChainFrame) (s : State) : Reply :=
  let t := field f.payload 0 1
  if t = 0 ∨ 4 < t then malformed 0 s
  else if field f.payload 1 3 ≠ 0 then malformed 1 s
  else match advanceCondition (otpNow s) t with
    | some n => refuse n s
    | none =>
      let s1 := noteSupplies vddio vprog s
      if !suppliesOk vddio vprog then refuse 6 s
      else
        let s2 := if t = 3 then zeroiseKeys s1 else s1
        let words := (upTo 4).map (fun i => 4 * (t - 1) + i)
        accepted [] (nextAdvance { s2 with otp := { s2.otp with advance := some (BitVec.ofNat 8 t, words), advanceVerified := false } })

/-- LIFECYCLE_ADVANCE: COMMAND 0x0C, with the supplies as they are sampled. -/
def execLifecycleAdvance (p : ChainPort) (f : ChainFrame) (vddio vprog : Nat) (s : State) : Host.Outcome State Fault Refusal :=
  .next (runCommand 0x0C p f (advanceRule vddio vprog f) s)

end Sys2Proof.Machine
end

