-- ==== Sys2Proof/Machine/Objects.lean ====
section
/-! DEFINITION. The object map (R372 to R381): the records that each block shows, built as bytes from the state. -/

namespace Sys2Proof.Machine

/-! ### Blocks (R372) -/

/-- The blocks of the object address space. -/
inductive Block where
  | identity | blackBox | startWord | status | faultLog | ceLog | thermal | ports | chain | classes | otp | bist | tenants | minutes
  | journal | qps | regions | staging
  deriving DecidableEq, Repr

/-- Each block's base and end. -/
def blockTable : List (Nat × Nat × Block) :=
  [(0x00000000, 0x00000FFF, .identity), (0x00008000, 0x00008FFF, .blackBox), (0x00010000, 0x00010003, .startWord),
   (0x00010004, 0x00012FFF, .status), (0x00020000, 0x0002FFFF, .faultLog), (0x00030000, 0x0003BFFF, .ceLog),
   (0x00040000, 0x000407FF, .thermal), (0x00050000, 0x00051FFF, .ports), (0x00060000, 0x000602FF, .chain),
   (0x00070000, 0x00074FFF, .classes), (0x00080000, 0x00082FFF, .otp), (0x00090000, 0x000904FF, .bist),
   (0x00100000, 0x001FFFFF, .tenants), (0x00200000, 0x003FFFFF, .minutes), (0x00400000, 0x00BFFFFF, .journal),
   (0x01000000, 0x01CFFFFF, .qps), (0x02000000, 0x027FFFFF, .regions), (0x10000000, 0x13FFFFFF, .staging)]

/-- The block that an address lies in, with its end. -/
def blockOf (a : Nat) : Option (Nat × Block) :=
  (blockTable.find? (fun e => decide (e.1 ≤ a) && decide (a ≤ e.2.1))).map (fun e => e.2)

/-- The 32-bit word at an offset of a record; zero past its end (R5, R373). -/
def wordAt (bs : List Byte) (o : Nat) : Nat := field bs o 4

/-- A 32-bit word from its fields, already in place. -/
def word32 (l : List Nat) : List Byte := beBytes 4 l.sum

/-- A 64-bit word from its fields, already in place. -/
def word64 (l : List Nat) : List Byte := beBytes 8 l.sum

/-- A field of a word: value at a bit. -/
def at' (v b : Nat) : Nat := v * 2 ^ b

/-! ### Views (R312, R381) -/

/-- The counters that reads of a group see. -/
def shown (s : State) (g : Nat) : Counters := ((s.views.find? (fun v => v.group = g)).map (fun v => v.c)).getD s.ctr

/-- The counters that reads of a tenant's record see. -/
def shownTenant (s : State) (t : Nat) : Counters :=
  ((s.views.find? (fun v => v.group = 0 && decide (v.first ≤ t) && decide (t < v.first + v.count))).map (fun v => v.c)).getD s.ctr

/-- A 64-bit counter word with its saturation flag in bit 63 (R82). -/
def counterWord (v : Nat) : List Byte := word64 [v, bit (saturated max48 v) 63]

/-! ### Identity, status (R376, R377) -/

/-- The identity block. -/
def identityBytes (s : State) : List Byte :=
  word32 [0x48555255] ++ word32 [at' 0x5516 16, at' Config.siliconRevision.toNat 8, (otpWord s 18).toNat % 256] ++
    word32 [at' Config.romRevision.toNat 16, s.otp.fwVersion.toNat] ++ word32 [(otpWord s 19).toNat] ++ beBytes 8 (deviceId s) ++
    word32 [at' s.otp.life.toNat 24, at' s.otp.patches 16] ++ word32 [1]

/-- A bank's two-bit code: 1 A, 2 B, 0 none. -/
def bankCode2 : Option Bank → Nat
  | none => 0
  | some k => bankCode k + 1

/-- QP contexts in some states. -/
def qpsIn (s : State) (p : QpState → Bool) : Nat := (s.qps.filter (fun (e : Nat × Qp) => p e.2.state)).length

/-- Connecting or established: a live QP. -/
def isLive (q : QpState) : Bool := q = .connecting || q = .established

/-- The status block from the start word on. -/
def statusBytes (s : State) : List Byte :=
  let p := pendingBank s
  word32 [(startWord s).toNat] ++ word32 [at' (bankCode2 s.plans.inForce) 30, at' (bankCode2 p) 28] ++
    beBytes 4 (stamp s).1.toNat ++ beBytes 4 (stamp s).2 ++
    word32 [((s.plans.plan.map (fun x => x.seq.toNat)).getD 0)] ++
    word32 [(p.map (fun k => (getBS s k).adoptAt.toNat)).getD 0xFFFFFFFF] ++ word32 [qpsIn s isLive] ++
    word32 [at' (s.regions.filter (fun (e : Nat × Region) => e.2.active)).length 16,
            8192 - (s.keys.filter (fun (e : Nat × KeySlot) => e.2.state ≠ .free)).length] ++
    word32 [(s.regions.filter (fun (e : Nat × Region) => e.2.rekeying)).length] ++ word32 [s.stats.keyCorrected] ++
    word32 [s.stats.lateAlarms] ++ word32 [s.stats.entropyDiscards] ++ counterWord s.stats.pageRewrites ++ counterWord s.stats.pageInits

/-- A word of the status block. -/
def statusWord (s : State) (o : Nat) : Nat :=
  if 0x1000 ≤ o then
    let b := getBank s ((o - 0x1000) / 0x80) ((o - 0x1000) / 4 % 32)
    min max16 b.forcedRefresh * 65536 + min max16 b.forcedNeighbour
  else wordAt (statusBytes s) o

/-! ### Fault log (R344, R345) -/

/-- The fault log's header. -/
def faultHeader (s : State) : List Byte :=
  let c := s.churn
  word32 [c.next.toNat] ++ word32 [c.next.toNat - 1024] ++ word32 [bit c.ucPending 31, at' (safeState s).toNat 29] ++
    word32 [c.ceCount.toNat] ++ word32 [c.ucCount.toNat] ++ word32 [c.ftCount.toNat] ++ word32 [c.ceDropped.toNat] ++ word32 [c.cause.toNat]

/-- A word of the fault log. -/
def faultWordAt (s : State) (o : Nat) : Nat :=
  if 0x8000 ≤ o then wordAt (recordBytes (Map.get FaultRecord.zero ((o - 0x8000) / 32) s.churn.records)) (o % 32)
  else wordAt (faultHeader s) o

/-! ### CE log, channel records, remap window (R216, R217, R219, R231) -/

/-- A 16-bit counter of the CE log header. -/
def headCounter (c : Counters) (k : Nat) : Nat := Map.get 0 k c.chan

/-- The CE log's header; Overflow, early-scrub drops and the SRAM counters come from a view where one is held. -/
def ceHeader (s : State) : List Byte :=
  let c := shown s 3
  let k := s.skim
  let sram (b : Nat) : List Byte := ((upTo 10).map (fun i => beBytes 2 (headCounter c (b + i)))).flatten
  let flags (b : Nat) : Nat := ((upTo 10).map (fun i => bit (headCounter c (b + i) = max16) i)).sum
  word32 [at' (headCounter c 600) 16, (s.ctr.ce.filter (fun e => e.isSome)).length] ++ word32 [k.passCount] ++ word32 [k.position] ++ word32 [(planOf s).scrubHours] ++
    word32 [k.passStart.toNat] ++ word32 [k.lastPassEnd.toNat] ++ word32 [at' (min max16 k.behind) 16, headCounter c 601] ++
    word32 [k.linesPoisoned] ++ sram 512 ++ sram 544 ++ word32 [flags 512, at' (flags 544) 10] ++ word32 [s.sel.remapChannel.toNat]

/-- A channel's counters (R216). -/
def chanBytes (s : State) (ch : Nat) : List Byte :=
  let v (n : Nat) : Nat := Map.get 0 (ch * 8 + n) (shown s 3).chan
  ((upTo 7).map (fun n => beBytes 2 (v n))).flatten ++ beBytes 2 (((upTo 7).map (fun n => bit (v n = max16) n)).sum)

/-- A word of the CE log object. -/
def ceWord (s : State) (o : Nat) : Nat :=
  if o < 0x400 then wordAt (ceHeader s) o
  else if o < 0x800 then wordAt (chanBytes s ((o - 0x400) / 16)) (o % 16)
  else if 0x1000 ≤ o ∧ o < 0x5000 then wordAt (ceSlot (shown s 4).ce ((o - 0x1000) / 64)) (o % 64)
  else if 0x8000 ≤ o then wordAt (beBytes 8 (remapWord (getRemap s s.sel.remapChannel.toNat ((o - 0x8000) / 8)))) (o % 8)
  else 0

/-! ### Thermal (R247) -/

/-- A signed 16-bit temperature. -/
def temp16 (v : Int) : Nat := signedBits 16 v

/-- The layer with the highest effective temperature, the lowest of equals. -/
def hottestLayer (s : State) : Nat :=
  (upTo 16).foldl (fun b i => if (getLayer s b).effective < (getLayer s i).effective then i else b) 0

/-- The thermal header and the base-die readings. -/
def thermalHeader (s : State) : List Byte :=
  let t := s.thermal
  let h := hottestLayer s
  word32 [bit (thermLow s) 31, bit t.shutdown 30, at' t.baseState 28, at' h 24, temp16 (getLayer s h).effective] ++
    word32 [at' (temp16 t.baseFigure) 16, t.baseSensor] ++ word32 [t.shutdownMask.toNat] ++ word32 [t.baseInvalid.toNat] ++
    List.replicate 48 0 ++ ((upTo 24).map (fun i => beBytes 2 (temp16 ((t.base[i]?).getD 0)))).flatten

/-- Retention corrections among the most recent 2^18 visits of a layer (R238). -/
def retentionCount (y : Layer) : Nat := (y.retAt.filter (fun v => decide (y.visits < v + 262144))).length

/-- A layer record. -/
def layerBytes (s : State) (i : Nat) : List Byte :=
  let y := getLayer s i
  let r (q : Nat) : Nat := temp16 ((y.readings[q]?).getD 0)
  word32 [bit y.failed 31, bit y.disagree 30, at' y.band 28, at' y.step 26, at' y.valid.toNat 22, bit y.floor.isSome 21] ++
    word32 [at' (temp16 y.effective) 16, temp16 (y.figure.getD 0)] ++
    word32 [at' (temp16 ((modelTenths y.model).getD 0)) 16, temp16 (y.floor.getD 0)] ++ word32 [at' (r 0) 16, r 1] ++
    word32 [at' (r 2) 16, r 3] ++ word32 [y.activity] ++ word32 [retentionCount y] ++
    word32 [if y.disagree then y.disagreeMs / 1000 else 0] ++ word32 [at' (temp16 (y.peak.getD 0)) 16]

/-- A word of the thermal object. -/
def thermalWord (s : State) (o : Nat) : Nat :=
  if 0x400 ≤ o then wordAt (layerBytes s ((o - 0x400) / 64)) (o % 64) else wordAt (thermalHeader s) o

/-! ### Ports and lanes (R81) -/

/-- Seconds until a lane's marginal retry; 0 for none. -/
def retrySeconds (s : State) (y : Lane) : Nat := match y.retryDue with | some t => (t - s.tank.clockUs + 999999) / 1000000 | none => 0

/-- A coefficient set as it reads: 28 bytes, its reserved bits zero (R5, R81). -/
def shownSet (set : List Byte) : List Byte :=
  let l := padTo 28 set
  l.modify 1 (· &&& 0xF8) |>.set 2 0 |>.set 3 0 |>.modify 16 (· &&& 0x3F) |>.set 26 0 |>.set 27 0

/-- A lane record. -/
def laneBytes (s : State) (l : Nat) : List Byte :=
  let y := getLane s l
  if !portPresent s (lanePort s l) then []
  else
    word32 [bit true 31, bit y.signal 30, bit y.locked 29, bit y.marginal 28, bit y.calibrating 27, at' (lanePort s l) 16,
            at' y.failures.toNat 8, y.margin.toNat] ++ word32 [at' y.snr.toNat 16, y.snrCal.toNat] ++
      word32 [at' (temp16 y.refTemp) 16, temp16 (laneTemp s l)] ++ shownSet y.coeffs ++ word32 [y.attempts.toNat] ++
      word32 [y.lastMinute.toNat] ++ word32 [retrySeconds s y % 65536] ++ List.replicate 12 0 ++ shownSet y.rollback

/-- A port record. -/
def portBytes (s : State) (p : Nat) : List Byte :=
  let r := getPort s p
  if !r.present then []
  else
    word32 [bit true 31, bit r.up 30, bit (inSet r) 29, bit r.quiesced 28, at' r.mode.toNat 24, at' r.paused.toNat 16,
            at' r.pausing.toNat 8, r.lossless.toNat] ++ List.replicate 12 0 ++
      ((upTo 30).map (fun i => counterWord (Map.get 0 (p * 32 + i) (shown s 1).port))).flatten

/-- A word of the ports object. -/
def portWord (s : State) (o : Nat) : Nat :=
  if 0x1000 ≤ o then wordAt (portBytes s ((o - 0x1000) / 256)) (o % 256) else wordAt (laneBytes s (o / 256)) (o % 256)

/-! ### Chain (R318) -/

/-- A chain counter at its offset in the object. -/
def chainCounter (c : Counters) (off : Nat) : Nat := Map.get 0 (off / 4) c.chain

/-- The saturation flags of a port record that begins at `base`. -/
def chainFlags (c : Counters) (base : Nat) : Nat := ((upTo 16).map (fun n => bit (chainCounter c (base + 4 + 4 * n) = max32) n)).sum

/-- The chain header. -/
def chainHeader (s : State) : List Byte :=
  let c := shown s 5
  let t := s.tank
  word32 [bit (t.addr ≠ 0) 31, bit t.addrFromBmc 30, bit s.pins.head 29, bit t.mismatch 28, t.addr.toNat] ++
    word32 [chainCounter c 4] ++ word32 [chainCounter c 8] ++ word32 [chainCounter c 12] ++ beBytes 16 s.chain.challenge.toNat ++
    word32 [at' (chainFlags c 0x200) 16, chainFlags c 0x100] ++ word32 [((upTo 3).map (fun n => bit (chainCounter c (4 + 4 * n) = max32) n)).sum]

/-- A port record that begins at `base`. -/
def chainPortBytes (s : State) (p : ChainPort) (base : Nat) : List Byte :=
  let c := getCPort s p
  word32 [bit c.up 31, bit c.partnerUnit 30, bit c.quiet 29, bit c.driverOn 28, bit c.broken 27, bit (c.rx = .listening) 26,
          at' c.eyeHeight.toNat 8, c.eyeWidth.toNat] ++
    ((upTo 16).map (fun n => word32 [chainCounter (shown s 5) (base + 4 + 4 * n)])).flatten

/-- A word of the chain object. -/
def chainWord (s : State) (o : Nat) : Nat :=
  if o < 0x100 then wordAt (chainHeader s) o
  else if o < 0x200 then wordAt (chainPortBytes s .chu 0x100) (o - 0x100)
  else wordAt (chainPortBytes s .chd 0x200) (o - 0x200)

/-! ### Classes and the Parlour (R188, R206) -/

/-- The calendar in force on a channel, or that stood there at its retirement: system slots where there was none (R194). -/
def forceCalendar (s : State) (ch : Nat) : List Byte :=
  if (getParlour s ch).cal = [] then List.replicate 4096 0x11 else (getParlour s ch).cal

/-- A channel's calendar as the window shows it: idle throughout when the channel is retired. -/
def shownCalendar (s : State) (ch : Nat) : List Byte :=
  if isRetired s ch then List.replicate 4096 0x12 else forceCalendar s ch

/-- A class entry. -/
def classBytes (s : State) (c : Nat) : List Byte :=
  match classRec s c with
  | none => []
  | some r =>
    word64 [bit true 63, at' r.pfc 56, at' r.dscp 50, at' r.target 32, at' r.cap 22, at' (classShare (planOf s) c) 9] ++
      word64 [at' (((planOf s).escTables[r.esc]?).getD 0).toNat 32] ++
      word64 [at' r.minRate 51, at' r.gain 41, at' r.step 28, at' r.period 12]

/-- A channel record. -/
def parlourBytes (s : State) (ch : Nat) : List Byte :=
  let y := getParlour s ch
  let cal := forceCalendar s ch
  let v (i : Nat) : Nat := Map.get 0 (64 * 16 * 32 + ch * 4 + i) (shown s 2).cls
  word32 [bit (isRetired s ch) 31, at' y.band 29, at' (if isRetired s ch then y.declared else (planOf s).band) 27, at' y.step 25, at' y.cuts.length 21, bit y.exhausted 20, ownedSlots cal] ++
    word32 [at' (slotsOf 0x10 cal) 16, slotsOf 0x12 cal] ++ counterWord (v 1) ++ counterWord (v 2) ++ counterWord (v 3)

/-- A counter record of a class on a channel. -/
def classCounterBytes (s : State) (ch c : Nat) : List Byte :=
  let v (i : Nat) : Nat := Map.get 0 ((ch * 16 + c) * 32 + i) (shown s 2).cls
  let full (i : Nat) : Bool := decide (v i = if 2 ≤ i ∧ i ≤ 17 then max32 else max48)
  let y := getCls s ch c
  let live := (y.e, y.level, y.outstanding, (classQ s ch c).length)
  let z := if isRetired s ch then (((getParlour s ch).frozen)[c]?).getD live else live
  counterWord (v 0) ++ counterWord (v 1) ++ ((upTo 16).map (fun i => word32 [v (2 + i)])).flatten ++
    ((upTo 4).map (fun i => counterWord (v (18 + i)))).flatten ++
    word64 [at' z.1 32, at' z.2.1 30, at' z.2.2.1 20, at' z.2.2.2 13, slotsOf c (forceCalendar s ch)] ++
    word64 [((upTo 22).map (fun i => bit (full i) i)).sum]

/-- A word of the class object. -/
def classWord (s : State) (o : Nat) : Nat :=
  let ch := s.sel.channel.toNat
  if o < 0x200 then wordAt (classBytes s (o / 32)) (o % 32)
  else if o = 0x800 then ch
  else if 0x1000 ≤ o ∧ o < 0x2000 then wordAt (parlourBytes s ((o - 0x1000) / 64)) (o % 64)
  else if 0x2000 ≤ o ∧ o < 0x3000 then wordAt (classCounterBytes s ch ((o - 0x2000) / 256)) (o % 256)
  else if 0x4000 ≤ o then wordAt (shownCalendar s ch) (o - 0x4000)
  else 0

/-! ### OTP and BIST (R370, R371) -/

/-- The OTP object's header. -/
def otpHeader (s : State) : List Byte :=
  let o := s.otp
  let now := otpNow s
  word32 [at' o.op.toNat 30, at' o.result.toNat 16, at' (min 8 o.pulses) 12, o.word] ++
    word32 [at' o.life.toNat 24, at' (fuseState now) 16, ((upTo 4).map (fun g => bit (groupBlown now g) g)).sum] ++
    word32 [((upTo 8).map (fun k => at' (sectionState now k) (2 * k))).sum] ++
    word32 [at' (o.read.filter (fun (e : Nat × OtpRead) => e.2.marginal)).length 16, o.ignored] ++ word32 [at' o.vddio 16, o.vprog]

/-- A word of the OTP object. -/
def otpObjectWord (s : State) (o : Nat) : Nat :=
  if o < 0x100 then wordAt (otpHeader s) o
  else if o < 0x200 then ((upTo 32).map (fun i => bit (otpRead s (8 * (o - 0x100) + i)).marginal i)).sum
  else if 0x1000 ≤ o then (otpRead s ((o - 0x1000) / 4)).data.toNat
  else 0

/-- The BIST header. -/
def bistHeader (s : State) : List Byte :=
  let b := s.bist
  word32 [at' b.state.toNat 30, at' b.test.toNat 16, at' b.result.toNat 8] ++ word32 [b.started.toNat] ++ beBytes 8 b.mask.toNat ++
    word32 [b.rows] ++ word32 [b.failures] ++ word32 [b.repaired] ++ word32 [b.unrepairable]

/-- The phase code of a marker. -/
def markerPhase : BistPhase → Nat
  | .saving => 0
  | .testing => 1
  | .restoring => 2

/-- Spare lanes held by soft repair: those in use for a lane that no hard repair in force names. -/
def softLanes (s : State) (ch : Nat) : Nat :=
  ((getChan s ch).spares.filter (fun e =>
    !s.otp.repairs.any (fun x => (repairElement x.toNat).1 = 3 && (repairElement x.toNat).2.1 = ch && (repairElement x.toNat).2.2.2 = e.1 &&
      repairSpare x.toNat = e.2))).length

/-- A BIST channel record. -/
def bistBytes (s : State) (ch : Nat) : List Byte :=
  let y := getBist s ch
  (match y.marker with
    | some m => word32 [bit true 31, at' m.form 29, at' (markerPhase m.phase) 27, m.count]
    | none => word32 []) ++
    word32 [at' y.softRows.length 22, at' y.softCols.length 13, at' (softLanes s ch) 10,
            ((upTo 4).map (fun n => bit ((getChan s ch).badSpares.contains n) n)).sum] ++
    word32 [y.sweep % 2 ^ 20] ++ word32 [y.failures]

/-- A word of the BIST object. -/
def bistWord (s : State) (o : Nat) : Nat := if o < 0x100 then wordAt (bistHeader s) o else wordAt (bistBytes s ((o - 0x100) / 16)) (o % 16)

/-! ### Tenants, minute records, journal (R108, R125, R128, R326) -/

/-- A tenant's record. -/
def tenantBytes (s : State) (t : Nat) : List Byte :=
  let c := shownTenant s t
  let mine := s.regions.filter (fun (e : Nat × Region) => e.2.active && e.2.tenant = t)
  let live := (s.qps.filter (fun (e : Nat × Qp) => e.2.tenant = t && isLive e.2.state)).length
  let v (n : Nat) : Nat := Map.get 0 (t * 32 + n) c.tenant
  (match tenantRec (planOf s) t with
    | some r => beBytes 8 r.serviceId.toNat ++
        word64 [bit true 63, at' r.cls 56, at' r.quota 32, at' r.accessFirst 19, at' r.accessCount 15]
    | none => List.replicate 16 0) ++
    word64 [at' live 45, at' mine.length 28, at' ((mine.map (fun (e : Nat × Region) => e.2.slabs)).sum) 8] ++
    word64 [at' (Map.get 0 t c.lastClear) 32] ++ word64 [((upTo 26).map (fun n => bit (v n = max64) n)).sum] ++
    ((upTo 26).map (fun n => beBytes 8 (v n))).flatten

/-- The minute-record window's header. -/
def minuteHeader (s : State) : List Byte :=
  let r := s.records
  word32 [r.next.toNat] ++ word32 [r.oldest.toNat] ++ word32 [r.lastMinute.toNat] ++ word32 [r.first.toNat] ++ word32 [r.count] ++
    word32 [s.sel.minuteBlock.toNat]

/-- A word of the minute-record window; slots on a retired channel read as zeros (R187). -/
def minuteWord (s : State) (o : Nat) : Nat :=
  if o < 0x1000 then wordAt (minuteHeader s) o
  else if 0x100000 ≤ o then
    let h := recordSlot (s.sel.minuteBlock.toNat * 16384 + (o - 0x100000) / 64)
    if isRetired s h.1 then 0 else wordAt (lineData s (systemLine h.1 h.2)) (o % 64)
  else 0

/-- The journal window's header. -/
def journalHeader (s : State) : List Byte :=
  let j := s.journal
  beBytes 8 j.written.toNat ++ beBytes 8 (j.written.toNat - 1048576) ++ beBytes 8 j.bootId.toNat ++ beBytes 8 s.retired.toNat ++
    word32 [at' j.invalid 16, min 256 j.queue.length] ++ word32 [s.sel.journalBlock.toNat] ++ word32 [j.lostBeforeFill]

/-- A word of the journal window; slots on a retired channel read as zeros (R187). -/
def journalWord (s : State) (o : Nat) : Nat :=
  if 0x400000 ≤ o then
    let line := journalLine (s.sel.journalBlock.toNat * 65536 + (o - 0x400000) / 64)
    if isRetired s (lineChannel line) then 0 else wordAt (lineData s line) (o % 64)
  else wordAt (journalHeader s) o

/-! ### QPs and regions (R88, R111, R378) -/

/-- The code of a QP state. -/
def qpCode : QpState → Nat
  | .free => 0
  | .connecting => 1
  | .established => 2
  | .error => 3
  | .disconnecting => 4

/-- An address of the IPv6 family. -/
def isV6 : Ip → Bool
  | .v4 _ => false
  | .v6 _ => true

/-- Write packets past their ordering points and not yet acknowledged (R88). -/
def unacknowledged (q : Qp) : Nat := min 16 (q.unacked + (q.ops.filter (fun o => o.kind = .write && o.toPass = 0)).length)

/-- The state part of a QP context. -/
def qpBytes (s : State) (qpn : Nat) : List Byte :=
  let q := getQp s (BitVec.ofNat 24 qpn)
  if q.state = .free then []
  else
    word64 [at' (qpCode q.state) 61, bit (isV6 q.remote) 60, at' q.tenant 48, at' q.cls 44, at' q.iface 42, at' q.mtu.toNat 39,
            bit q.seqNak 38, bit q.writeOpen 37, q.remoteQpn.toNat] ++
      word64 [at' q.epsn.toNat 40, at' q.msn.toNat 16, at' q.outstanding 12, at' (unacknowledged q) 7] ++
      word64 [at' q.ackPsn.toNat 40, at' q.oldestPsn.toNat 16, q.ackDeadline.toNat] ++ beBytes 16 (ipNat q.remote) ++
      word64 [at' q.nextHop.toNat 16, (srcPortOf (BitVec.ofNat 24 qpn)).toNat] ++ word64 [at' q.flow.toNat 44] ++
      word64 [at' q.writeRkey.toNat 32, q.writeRemaining] ++ word64 [at' q.writeDma 28] ++
      word64 [at' q.localComm.toNat 32, q.remoteComm.toNat] ++
      word64 [at' q.rate 51, at' q.target 38, at' q.alpha.toNat 28, at' q.stage.toNat 20] ++
      word64 [at' q.lastCnpSent.toNat 32, q.lastCnpActed.toNat]

/-- A word of the QP window: 65,536 contexts of 0xC0 bytes after its header (R5, R88). -/
def qpWord (s : State) (o : Nat) : Nat :=
  if o < 0x10000 then
    wordAt (word32 [s.sel.qpBlock.toNat] ++ word32 [qpsIn s (fun q => q = .established)] ++ word32 [qpsIn s (fun q => q = .connecting)] ++
      word32 [qpsIn s (fun q => q = .error || q = .disconnecting)]) o
  else if 0xC10000 ≤ o then 0
  else wordAt (qpBytes s (0x100 + s.sel.qpBlock.toNat * 65536 + (o - 0x10000) / 0xC0)) ((o - 0x10000) % 0xC0)

/-- A region entry. -/
def regionBytes (s : State) (i : Nat) : List Byte :=
  let r := if getRegion s i = Region.zero && s.plans.tableWritten then Region.unnamed else getRegion s i
  word64 [bit r.inUse 63, bit r.active 62, bit r.revoked 61, bit r.rekeying 60, bit r.erasePending 59, bit r.spec 58, bit r.atomicOk 57,
          bit r.writeOk 56, bit r.readOk 55, at' r.cls 51, at' r.tenant 36, r.gen.toNat] ++ beBytes 8 r.vbase.toNat ++
    word64 [at' r.slab 44, at' r.slabs 24] ++ word64 [at' r.leaseStart.toNat 32, r.leaseEnd.toNat] ++
    word64 [at' r.curSlot 51, at' r.nextSlot 38, bit r.nextValid 37, bit r.curBit 36] ++
    word64 [at' r.leaseId.toNat 32, r.revokeMinute.toNat] ++ word64 [at' r.foEnd.toNat 32, r.foId.toNat] ++
    word64 [at' r.pagesRemaining 32]

/-! ### Staging window (R276) -/

/-- A bank's four words. -/
def bankBytes (b : BankState) : List Byte :=
  word32 [at' b.state.toNat 28, at' b.reason.toNat 20] ++ word32 [b.seq.toNat] ++ word32 [b.adoptAt.toNat] ++ word32 [b.detail.toNat]

/-- The staging window's header. -/
def stagingHeader (s : State) : List Byte :=
  let p := s.plans
  bankBytes p.bankA ++ bankBytes p.bankB ++
    word32 [at' (bankCode2 p.target) 30, at' p.operation.toNat 28, bit p.prepared 27, p.lastResult.toNat] ++ word32 [p.declared] ++
    word32 [p.erased] ++ word32 [p.written]

/-- A word of the staging window. -/
def stagingWord (s : State) (o : Nat) : Nat :=
  if o < 0x1000 then wordAt (stagingHeader s) o
  else if 0x800000 ≤ o ∧ o < 0x1000000 then field (flashRead s (o - 0x800000) 4) 0 4
  else if 0x1000000 ≤ o ∧ o < 0x2800000 then field (flashRead s (bankBase .a + (o - 0x1000000)) 4) 0 4
  else if 0x2800000 ≤ o then field (flashRead s (bankBase .b + (o - 0x2800000)) 4) 0 4
  else 0

/-! ### Words of the map (R373) -/

/-- Before the fill, the DRAM-backed windows read as zeros (R50, R373). -/
def dramHidden (s : State) : Bool := s.tank.phase = 0x02 || s.tank.phase = 0x03

/-- The 32-bit word at an address of a block. -/
def objectWord (s : State) (b : Block) (a : Nat) : Nat :=
  match b with
  | .identity => wordAt (identityBytes s) a
  | .blackBox => wordAt (blackBox s) (a - 0x8000)
  | .startWord => (startWord s).toNat
  | .status => statusWord s (a - 0x10000)
  | .faultLog => faultWordAt s (a - 0x20000)
  | .ceLog => if dramHidden s && decide (0x38000 ≤ a) then 0 else ceWord s (a - 0x30000)
  | .thermal => thermalWord s (a - 0x40000)
  | .ports => portWord s (a - 0x50000)
  | .chain => chainWord s (a - 0x60000)
  | .classes => classWord s (a - 0x70000)
  | .otp => otpObjectWord s (a - 0x80000)
  | .bist => bistWord s (a - 0x90000)
  | .tenants => wordAt (tenantBytes s ((a - 0x100000) / 256)) (a % 256)
  | .minutes => if dramHidden s then 0 else minuteWord s (a - 0x200000)
  | .journal => if dramHidden s then 0 else journalWord s (a - 0x400000)
  | .qps => qpWord s (a - 0x1000000)
  | .regions => wordAt (regionBytes s ((a - 0x2000000) / 64)) (a % 64)
  | .staging => stagingWord s (a - 0x10000000)

/-- The bytes of a block. -/
def objectBytes (s : State) (b : Block) (a n : Nat) : List Byte :=
  ((List.range (n / 4)).map (fun i => beBytes 4 (objectWord s b (a + 4 * i)))).flatten

/-- The slots of a window of 64-byte slots at `base` that n bytes from an address touch. -/
def windowSlots (base a n : Nat) : List Nat :=
  if n = 0 ∨ a + n ≤ base then []
  else (List.range ((a + n - 1 - base) / 64 + 1)).drop ((a - base) / 64)

/-- The lines of the array that a READ of the minute-record window or the journal window takes: those of the slots that it shows, but for
retired channels'. -/
def windowLines (s : State) (b : Block) (a n : Nat) : List Nat :=
  match b with
  | .minutes =>
    (((windowSlots 0x300000 a n).map (fun i => recordSlot (s.sel.minuteBlock.toNat * 16384 + i))).filter (fun h => !isRetired s h.1)).map
      (fun h => systemLine h.1 h.2)
  | .journal =>
    ((windowSlots 0x800000 a n).map (fun i => journalLine (s.sel.journalBlock.toNat * 65536 + i))).filter (fun l => !isRetired s (lineChannel l))
  | _ => []

/-- The demand accesses of a READ to the array: what the decoder gives, and the state; lines that are lost become invalid entries (R224,
R324). -/
def fetchWindow (s : State) (b : Block) (a n : Nat) : List (Nat × List Byte) × State :=
  if dramHidden s then ([], s)
  else readLines (fun t line => lostDetail t (lineChannel line) line) loseRing (windowLines s b a n) s

/-- The bytes that a READ of a block returns. -/
def objectRead (s : State) (b : Block) (a n : Nat) : List Byte :=
  objectBytes (viewOf (fetchWindow s b a n).1 (fetchWindow s b a n).2) b a n

/-! ### READ and WRITE (R306, R315, R373, R374) -/

/-- A block is read and written in the current phase (R372). -/
def blockPhase (s : State) (b : Block) : Bool :=
  if b = .journal && s.tank.phase = 0x11 then false else ordinaryPhase s.tank.phase

/-- Blocks that chain-port hardware answers alone (R315). -/
def fromHardware (b : Block) : Bool := b = .blackBox || b = .startWord

/-- The byte count of a request: the first two payload bytes of a READ, the payload of a WRITE (R294). -/
def requestLength (f : ChainFrame) : Nat := if f.ftype = 1 then field f.payload 0 2 else f.payload.length

/-- A byte count that a request may carry: 4 to 1,024 in multiples of 4 (R292, R294, R306). -/
def countOk (n : Nat) : Bool := decide (4 ≤ n) && decide (n ≤ 1024) && n % 4 = 0

/-- A WRITE to the staging window: its address and count need not be multiples of 4 (R306). -/
def toStaging (f : ChainFrame) : Bool := f.ftype = 2 && decide (0x10000000 ≤ f.addr.toNat) && decide (f.addr.toNat < 0x14000000)

/-- The request is formed as R294 says, and its address and count are multiples of 4 (R306). -/
def aligned (f : ChainFrame) : Bool :=
  f.length.toNat = f.payload.length && (toStaging f || (f.addr.toNat % 4 = 0 && countOk (requestLength f))) &&
    (f.ftype ≠ 1 || (f.payload.length = 4 && field f.payload 2 2 = 0))

/-- The payload offset of the first bad field of a malformed READ (R308): its byte count, or its zero bytes. The spec
names no offset for a bad address, a payload of another length, or a WRITE. -/
def badOffset (f : ChainFrame) : Option Nat :=
  if f.ftype = 1 && f.length = 4 && f.payload.length = 4 then
    if !countOk (requestLength f) then some 0 else if field f.payload 2 2 ≠ 0 then some 2 else none
  else none

/-- The status that a READ or WRITE draws before it is carried out; 0x00 with the block when it can be. The core's state
and the phase come first (R315), then the form of the request, then the block's end. -/
def accessStatus (s : State) (f : ChainFrame) : Byte × Option Block :=
  match blockOf f.addr.toNat with
  | some (e, b) =>
    let inside := decide (f.addr.toNat + requestLength f ≤ e + 1)
    if fromHardware b && f.ftype = 1 && aligned f && inside then (0x00, some b)
    else if !coreRuns s then (0x21, none)
    else if !(fromHardware b && f.ftype = 1) && !blockPhase s b then (0x10, none)
    else if !aligned f then (0x13, none)
    else if !inside then (0x16, none)
    else (0x00, some b)
  | none =>
    if !coreRuns s then (0x21, none) else if !ordinaryPhase s.tank.phase then (0x10, none)
    else if !aligned f then (0x13, none) else (0x16, none)

/-- A request that is not carried out is answered with its status. -/
def answerStatus (p : ChainPort) (f : ChainFrame) (st : Byte) (s : State) : State :=
  if st = 0x13 then
    match badOffset f with
    | some o => answer p f st (detail o) false s
    | none => answer p f st (detail (Config.statusDetail s.free).toNat) false (drawn s)
  else answer p f st [] (st = 0x21) s

/-- A READ that returns a layer's Peak resets it (R4, R247). -/
def resetPeaks (a n : Nat) (s : State) : State :=
  forEach (upTo 16) (fun i t =>
    let w := 0x40420 + 64 * i
    if a ≤ w ∧ w < a + n then setLayer i { getLayer t i with peak := none } t else t) s

/-- A READ frame. -/
def readBody (p : ChainPort) (f : ChainFrame) (s : State) : State :=
  let n := requestLength f
  match accessStatus s f with
  | (_, some b) => answer p f 0x00 (objectRead s b f.addr.toNat n) (fromHardware b) (resetPeaks f.addr.toNat n (fetchWindow s b f.addr.toNat n).2)
  | (st, none) => answerStatus p f st s

/-- PEAK_READ (R4, R247, R306): a READ of the object map; the Peak fields that it returns reset. -/
def execPeakRead (p : ChainPort) (f : ChainFrame) (s : State) : Host.Outcome State Fault Refusal :=
  if f.ftype = 1 && actedOn s f then .next (runRequest p f (readBody p f) s) else .next s

/-- One written word: the writable fields of R372. -/
def writeWord (a w : Nat) (s : State) : State :=
  if a = 0x20008 then (if w.testBit 31 then { s with churn := { s.churn with ucPending := false } } else s)
  else if a = 0x3004C then { s with sel := { s.sel with remapChannel := BitVec.ofNat 6 w } }
  else if a = 0x70800 then { s with sel := { s.sel with channel := BitVec.ofNat 6 w } }
  else if a = 0x200014 then { s with sel := { s.sel with minuteBlock := BitVec.ofNat 5 w } }
  else if a = 0x400024 then { s with sel := { s.sel with journalBlock := BitVec.ofNat 4 w } }
  else if a = 0x1000000 then { s with sel := { s.sel with qpBlock := BitVec.ofNat 2 w } }
  else s

/-- The words of a WRITE in order. -/
def writeWords (a : Nat) (bs : List Byte) (s : State) : State :=
  forEach (List.range (bs.length / 4)) (fun i t => writeWord (a + 4 * i) (wordAt bs (4 * i)) t) s

/-- A WRITE frame outside the bank ranges of the staging window; the rest of that window refuses (R276, R374). -/
def writeBody (p : ChainPort) (f : ChainFrame) (s : State) : State :=
  match accessStatus s f with
  | (_, some .staging) => answer p f 0x11 (detail (Config.statusDetail s.free).toNat) false (drawn s)
  | (_, some _) => answer p f 0x00 [] false (writeWords f.addr.toNat f.payload s)
  | (st, none) => answerStatus p f st s

/-- A WRITE sets bit 31 of the word that holds UC pending. -/
def clearsUc (f : ChainFrame) : Bool :=
  (List.range (f.payload.length / 4)).any (fun i => f.addr.toNat + 4 * i = 0x20008 && (wordAt f.payload (4 * i)).testBit 31)

/-- UC_PENDING_CLEAR (R339, R344): a WRITE that writes 1 to UC pending. -/
def execUcPendingClear (p : ChainPort) (f : ChainFrame) (s : State) : Host.Outcome State Fault Refusal :=
  if f.ftype = 2 && actedOn s f && clearsUc f then .next (runRequest p f (writeBody p f) s) else .next s

/-- REGISTER_WRITE (R374, R375): every other WRITE outside the bank ranges. -/
def execRegisterWrite (p : ChainPort) (f : ChainFrame) (s : State) : Host.Outcome State Fault Refusal :=
  if f.ftype = 2 && actedOn s f && !clearsUc f && (windowBank f.addr.toNat).isNone then .next (runRequest p f (writeBody p f) s)
  else .next s

end Sys2Proof.Machine
end

