-- ==== Sys2Proof/Machine/Sram.lean ====
section
/-! DEFINITION. On-die SRAM (R212, R213): what becomes of a corrected and of an uncorrectable word, by area. The number that
names the damaged item is the model's own (notes/assumptions/11.md). -/

namespace Sys2Proof.Machine

/-- Area 0: kind 0x62 from the packet engine of the QP's quad; the context is freed at once (R89). -/
def loseContext (qpn : Nat) (s : State) : State :=
  let n : BitVec 24 := BitVec.ofNat 24 qpn
  let q := getQp s n
  let s1 := raise (0x050 + q.iface) 0x62 n.toNat s
  if q.state = .free then s1 else freeQpCause n 2 s1

/-- Area 2: the cache line is dropped; the next access reads it from DRAM. -/
def dropCacheLine (line : Nat) (s : State) : State :=
  { s with metaCache := s.metaCache.filter (· ≠ line), pageCache := s.pageCache.filter (· ≠ line) }

/-- Area 3: a packet that waits to go out on a port goes with its FCS stomped; a received one fails its checks. -/
def spoilFrame (port place : Nat) (s : State) : State :=
  let r := getPort s port
  setPort port { r with queue := r.queue.modify place (fun e => (e.1, stomp e.2)) } s

/-- Area 4: a line staged for a READ of a QP is damaged: the response packet that carries it goes with its FCS stomped. -/
def spoilStaging (qpn psn : BitVec 24) (place : Nat) (s : State) : State :=
  let q := getQp s qpn
  setQp qpn { q with ops := q.ops.map (fun o =>
    if o.kind = .read && o.psn = psn then { o with staged := o.staged.modify place (fun x => { x with tag := .fail }) } else o) } s

/-- The class queue that holds a request of a QP at a PSN, with the request. -/
def waitingAt (s : State) (qpn psn : BitVec 24) : Option (Nat × LineReq) :=
  s.path.classQ.findSome? (fun e => (e.2.find? (fun r => r.qpn = qpn && r.psn = psn)).map (fun r => (e.1, r)))

/-- Area 5: the request is discarded; its QP gets NAK Remote Operational Error and enters error. -/
def loseRequest (qpn psn : BitVec 24) (s : State) : State :=
  match waitingAt s qpn psn with
  | none => s
  | some (key, r) =>
    let s1 := { s with path := { s.path with classQ := Map.set [] key ((Map.get [] key s.path.classQ).erase r) s.path.classQ } }
    failOp r (raise (0x050 + (getQp s qpn).iface) 0x62 qpn.toNat (drainBacklog (if isWrite r.kind then writeSettled r s1 else s1)))

/-- Area 7: a table damaged in both copies runs at level 0 until it is reloaded; anything less is rewritten from the other copy. -/
def loseTable (item : Nat) (both : Bool) (s : State) : State :=
  if both then
    let k := if item < 16 then classKey item else tableKey (item % 16)
    relevel { s with plans := { s.plans with reloadFailed := NSet.add (waitKey k) s.plans.reloadFailed } }
  else s

/-- Area 9: a tenant counter is set to all ones, with kind 0x33 as for saturation (R125). -/
def fillTenantCounter (tenant n : Nat) (s : State) : State :=
  let key := tenant * 32 + n
  let s1 := { s with ctr := { s.ctr with tenant := Map.set 0 key max64 s.ctr.tenant } }
  if Map.get 0 key s.ctr.tenant ≠ max64 then raise 0x081 0x33 (tenant * 4096 + (0x28 + 8 * n)) s1 else s1

/-- Area 9: a class counter (below key 32,768) or a channel-record counter is set to all ones (R207); its bins hold 32 bits. -/
def fillClassCounter (key : Nat) (s : State) : State :=
  let whole := key < 32768
  let i := if whole then key % 32 else (key - 32768) % 4
  let ones := if whole ∧ 2 ≤ i ∧ i ≤ 17 then max32 else max48
  let addr := if whole then key / 512 * 1024 + key / 32 % 16 * 64 + i else (key - 32768) / 4 * 1024 + i
  let s1 := { s with ctr := { s.ctr with cls := Map.set 0 key ones s.ctr.cls } }
  if Map.get 0 key s.ctr.cls ≠ ones then raise 0x087 0x33 addr s1 else s1

/-- The byte offset of a counter of the CE log header (R219): Overflow 0, early-scrub drops 1, SRAM corrected from 2, uncorrectable from
12; with its key among the channel counters. -/
def headPlace (k : Nat) : Option (Nat × Nat) :=
  if k = 0 then some (600, 0x00)
  else if k = 1 then some (601, 0x18)
  else if k < 12 then some (512 + (k - 2), 0x20 + 2 * (k - 2))
  else if k < 22 then some (544 + (k - 12), 0x34 + 2 * (k - 12))
  else none

/-- The counters of the CE log header that the Skimmer keeps: Pass count and Lines poisoned, 32 bits (R219). -/
def fillSkimCounter (k : Nat) (s : State) : State :=
  let v := if k = 22 then s.skim.passCount else s.skim.linesPoisoned
  let s1 := { s with skim := if k = 22 then { s.skim with passCount := max32 } else { s.skim with linesPoisoned := max32 } }
  if v ≠ max32 then raise 0x082 0x33 (if k = 22 then 0x04 else 0x1C) s1 else s1

/-- Area 9: a field of a tenant's minute accumulators is set to all ones, with no fault message (R126). -/
def fillAccumulator (tenant f : Nat) (s : State) : State :=
  if 12 ≤ f then s
  else { s with records := { s.records with live := Map.set 0 (tenant * 16 + f) (fieldLimit f) s.records.live } }

/-- Area 9: a counter of the CE log header is set to all ones. The source and the address of its kind 0x33, the header's offset, are a DESIGN
CHOICE (notes/assumptions/108.md). -/
def fillHeadCounter (k : Nat) (s : State) : State :=
  if k = 22 ∨ k = 23 then fillSkimCounter k s else
  match headPlace k with
  | none => s
  | some (key, off) =>
    let s1 := headCount key max16 s
    if Map.get 0 key s.ctr.chan ≠ max16 then raise 0x082 0x33 off s1 else s1

/-- Area 9: the item is one of 2^18 numbers of its group: a tenant counter (below 131,072) or CE log entry, a port counter, a
class counter, a channel counter, a chain counter, a counter of the CE log header, a field of the minute accumulators. -/
def loseWord (item : Nat) (s : State) : State :=
  let k := item % 262144
  match item / 262144 with
  | 0 => if k < 131072 then fillTenantCounter (k / 32) (k % 32) s else restoreCe (k - 131072) s
  | 1 => portCount (k / 32 % 16) (k % 32) max48 s
  | 2 => fillClassCounter k s
  | 3 => chanCount (k / 8 % 64) (k % 8) max16 s
  | 4 => chainCount (4 * k) max32 s
  | 5 => fillHeadCounter k s
  | 6 => fillAccumulator (k / 16 % 4096) (k % 16) s
  | _ => s

/-- The outcome of an uncorrectable word (R213). -/
def loseSram (f : SramFinding) (s : State) : State :=
  match f.area.val with
  | 0 => loseContext f.item s
  | 1 => reloadItem (.region (Fin.ofNat 131072 f.item)) (raise 0x081 0x63 (f.item % 131072) s)
  | 2 => dropCacheLine f.item s
  | 3 => spoilFrame (f.item / 65536) (f.item % 65536) s
  | 4 => spoilStaging (BitVec.ofNat 24 f.item) f.psn (f.item / 2 ^ 24) s
  | 5 => loseRequest (BitVec.ofNat 24 f.item) f.psn s
  | 6 => raise 0x080 0x64 2 { s with tank := { s.tank with coreHeld := true } }
  | 7 => loseTable f.item f.bothCopies s
  | 8 => raise 0x084 0x35 (f.item % 8192) s
  | _ => loseWord f.item s

/-- A word corrected on read and written back (R212); of the key store it is counted in the status object too (R131). -/
def mendSram (area : Nat) (s : State) : State :=
  if area = 8 then { s with stats := { s.stats with keyCorrected := satAdd max32 s.stats.keyCorrected 1 } } else s

/-- SRAM_SCRUB (R212, R213): what a read or the background scrub of the SRAM fabric finds, counted by area. -/
def execSramScrub (found : Option SramFinding) (s : State) : Host.Outcome State Fault Refusal :=
  match found with
  | none => .next s
  | some f =>
    if !porHigh s then .next s
    else if f.double then .next (loseSram f (headCount (544 + f.area.val) 1 s))
    else .next (mendSram f.area.val (headCount (512 + f.area.val) 1 s))

end Sys2Proof.Machine
end

