-- ==== Sys2Proof/Machine/Dispatch.lean ====
section
/-! DEFINITION. What each command does: one arm per constructor of `Instr`, each one direct call of its meaning. -/

namespace Sys2Proof.Machine

def exec (i : Instr) (s : State) : Host.Outcome State Fault Refusal :=
  match i with
  | .porNRise head => Sys2Proof.Machine.execPorNRise head s
  | .otpMarginRead weak => Sys2Proof.Machine.execOtpMarginRead weak s
  | .layerInitialisation badPaths => Sys2Proof.Machine.execLayerInitialisation badPaths s
  | .factoryAreaCheck => Sys2Proof.Machine.execFactoryAreaCheck s
  | .memoryFill => Sys2Proof.Machine.execMemoryFill s
  | .planBankCheck => Sys2Proof.Machine.execPlanBankCheck s
  | .planSelection => Sys2Proof.Machine.execPlanSelection s
  | .linkTrainingComplete port up sets => Sys2Proof.Machine.execLinkTrainingComplete port up sets s
  | .serviceOpen => Sys2Proof.Machine.execServiceOpen s
  | .wrstNFall lowNs => Sys2Proof.Machine.execWrstNFall lowNs s
  | .channelSelfRefreshAck ch => Sys2Proof.Machine.execChannelSelfRefreshAck ch s
  | .drainTimeout => Sys2Proof.Machine.execDrainTimeout s
  | .warmStart weak => Sys2Proof.Machine.execWarmStart weak s
  | .pwrOkFall railsIn stable => Sys2Proof.Machine.execPwrOkFall railsIn stable s
  | .supplyOutOfWindow rail layer high ns => Sys2Proof.Machine.execSupplyOutOfWindow rail layer high ns s
  | .supplySequenceViolation event rail => Sys2Proof.Machine.execSupplySequenceViolation event rail s
  | .refclkStopped => Sys2Proof.Machine.execRefclkStopped s
  | .refclkOffFrequency => Sys2Proof.Machine.execRefclkOffFrequency s
  | .refclkRestored => Sys2Proof.Machine.execRefclkRestored s
  | .anchor p f => Sys2Proof.Machine.execAnchor p f s
  | .trim p f => Sys2Proof.Machine.execTrim p f s
  | .stageOpen p f => Sys2Proof.Machine.execStageOpen p f s
  | .sectorEraseComplete => Sys2Proof.Machine.execSectorEraseComplete s
  | .stagingWrite p f => Sys2Proof.Machine.execStagingWrite p f s
  | .pageProgramComplete => Sys2Proof.Machine.execPageProgramComplete s
  | .stageCommit p f => Sys2Proof.Machine.execStageCommit p f s
  | .stageAbort p f => Sys2Proof.Machine.execStageAbort p f s
  | .adopt p f => Sys2Proof.Machine.execAdopt p f s
  | .adoptCancel p f => Sys2Proof.Machine.execAdoptCancel p f s
  | .revokeLease p f => Sys2Proof.Machine.execRevokeLease p f s
  | .retirePage p f => Sys2Proof.Machine.execRetirePage p f s
  | .unitCopy ch u => Sys2Proof.Machine.execUnitCopy ch u s
  | .quiescePort p f => Sys2Proof.Machine.execQuiescePort p f s
  | .quiesceDrainEnd port => Sys2Proof.Machine.execQuiesceDrainEnd port s
  | .quiescePortResume p f => Sys2Proof.Machine.execQuiescePortResume p f s
  | .warmReset p f => Sys2Proof.Machine.execWarmReset p f s
  | .snapshotTake p f => Sys2Proof.Machine.execSnapshotTake p f s
  | .snapshotTakeClear p f => Sys2Proof.Machine.execSnapshotTakeClear p f s
  | .snapshotRelease p f => Sys2Proof.Machine.execSnapshotRelease p f s
  | .snapshotExpiry group => Sys2Proof.Machine.execSnapshotExpiry group s
  | .bistStart p f => Sys2Proof.Machine.execBistStart p f s
  | .bistAbort p f => Sys2Proof.Machine.execBistAbort p f s
  | .bistBatch ch fails stillFailing badItems => Sys2Proof.Machine.execBistBatch ch fails stillFailing badItems s
  | .bistEnd => Sys2Proof.Machine.execBistEnd s
  | .otpProgram p f vddio vprog => Sys2Proof.Machine.execOtpProgram p f vddio vprog s
  | .otpPulse normal low high vddio vprog => Sys2Proof.Machine.execOtpPulse normal low high vddio vprog s
  | .lifecycleAdvance p f vddio vprog => Sys2Proof.Machine.execLifecycleAdvance p f vddio vprog s
  | .chainLinkUp p => Sys2Proof.Machine.execChainLinkUp p s
  | .chainLinkDown p => Sys2Proof.Machine.execChainLinkDown p s
  | .chainLinkRetry p => Sys2Proof.Machine.execChainLinkRetry p s
  | .chainFrameReject p rx => Sys2Proof.Machine.execChainFrameReject p rx s
  | .chainFrameForward p f => Sys2Proof.Machine.execChainFrameForward p f s
  | .hopAckReceive p f => Sys2Proof.Machine.execHopAckReceive p f s
  | .hopResend p => Sys2Proof.Machine.execHopResend p s
  | .enumerate p f => Sys2Proof.Machine.execEnumerate p f s
  | .headSelfEnumerate => Sys2Proof.Machine.execHeadSelfEnumerate s
  | .confirm p f => Sys2Proof.Machine.execConfirm p f s
  | .repeatedResponse p f => Sys2Proof.Machine.execRepeatedResponse p f s
  | .quietTurnOff p => Sys2Proof.Machine.execQuietTurnOff p s
  | .keepalive p => Sys2Proof.Machine.execKeepalive p s
  | .wakeDetect p => Sys2Proof.Machine.execWakeDetect p s
  | .falseWake p => Sys2Proof.Machine.execFalseWake p s
  | .beacon => Sys2Proof.Machine.execBeacon s
  | .registerWrite p f => Sys2Proof.Machine.execRegisterWrite p f s
  | .ucPendingClear p f => Sys2Proof.Machine.execUcPendingClear p f s
  | .peakRead p f => Sys2Proof.Machine.execPeakRead p f s
  | .dataFrameReceive port f => Sys2Proof.Machine.execDataFrameReceive port f s
  | .pfcReceive port enable quanta => Sys2Proof.Machine.execPfcReceive port enable quanta s
  | .pfcPauseExpiry port prio => Sys2Proof.Machine.execPfcPauseExpiry port prio s
  | .pfcWatchdog port prio => Sys2Proof.Machine.execPfcWatchdog port prio s
  | .pfcXoffRepeat port prio => Sys2Proof.Machine.execPfcXoffRepeat port prio s
  | .pfcXon port prio freed => Sys2Proof.Machine.execPfcXon port prio freed s
  | .arpRequest port q => Sys2Proof.Machine.execArpRequest port q s
  | .neighbourSolicitation port q => Sys2Proof.Machine.execNeighbourSolicitation port q s
  | .echoRequest port e => Sys2Proof.Machine.execEchoRequest port e s
  | .slowPathToken => Sys2Proof.Machine.execSlowPathToken s
  | .rdmaReadRequest k => Sys2Proof.Machine.execRdmaReadRequest k s
  | .rdmaWriteFirst k => Sys2Proof.Machine.execRdmaWriteFirst k s
  | .rdmaWriteMiddle k => Sys2Proof.Machine.execRdmaWriteMiddle k s
  | .rdmaWriteLast k => Sys2Proof.Machine.execRdmaWriteLast k s
  | .rdmaWriteOnly k => Sys2Proof.Machine.execRdmaWriteOnly k s
  | .cmpSwap k => Sys2Proof.Machine.execCmpSwap k s
  | .fetchAdd k => Sys2Proof.Machine.execFetchAdd k s
  | .unsupportedOpcode k => Sys2Proof.Machine.execUnsupportedOpcode k s
  | .cnpReceive k => Sys2Proof.Machine.execCnpReceive k s
  | .rpAlphaDecay qpn => Sys2Proof.Machine.execRpAlphaDecay qpn s
  | .rpIncrease qpn => Sys2Proof.Machine.execRpIncrease qpn s
  | .orderingPointPass ch wordUpsets wordPath => Sys2Proof.Machine.execOrderingPointPass ch wordUpsets wordPath s
  | .burstOpportunity ch => Sys2Proof.Machine.execBurstOpportunity ch s
  | .lineDecode ch upsets path metaUpsets => Sys2Proof.Machine.execLineDecode ch upsets path metaUpsets s
  | .tagCheck ch => Sys2Proof.Machine.execTagCheck ch s
  | .writeHalf ch => Sys2Proof.Machine.execWriteHalf ch s
  | .responseSend qpn => Sys2Proof.Machine.execResponseSend qpn s
  | .ackDeadline qpn => Sys2Proof.Machine.execAckDeadline qpn s
  | .cmReq m => Sys2Proof.Machine.execCmReq m s
  | .cmRtu m => Sys2Proof.Machine.execCmRtu m s
  | .cmRejReceive m => Sys2Proof.Machine.execCmRejReceive m s
  | .cmDreq m => Sys2Proof.Machine.execCmDreq m s
  | .disconnectComplete qpn => Sys2Proof.Machine.execDisconnectComplete qpn s
  | .repTimeout qpn => Sys2Proof.Machine.execRepTimeout qpn s
  | .qpErrorTimeout qpn => Sys2Proof.Machine.execQpErrorTimeout qpn s
  | .laneQualitySample lane m => Sys2Proof.Machine.execLaneQualitySample lane m s
  | .laneSnrLow lane => Sys2Proof.Machine.execLaneSnrLow lane s
  | .fecThreshold port => Sys2Proof.Machine.execFecThreshold port s
  | .portDown port => Sys2Proof.Machine.execPortDown port s
  | .portJoinSet port => Sys2Proof.Machine.execPortJoinSet port s
  | .portRetrain port => Sys2Proof.Machine.execPortRetrain port s
  | .recalStart => Sys2Proof.Machine.execRecalStart s
  | .recalDecision candidate current set => Sys2Proof.Machine.execRecalDecision candidate current set s
  | .recalRetry lane => Sys2Proof.Machine.execRecalRetry lane s
  | .minuteBoundary => Sys2Proof.Machine.execMinuteBoundary s
  | .eraseDrainComplete region => Sys2Proof.Machine.execEraseDrainComplete region s
  | .cryptoEraseComplete region => Sys2Proof.Machine.execCryptoEraseComplete region s
  | .heldLeaseStart region => Sys2Proof.Machine.execHeldLeaseStart region s
  | .adoptionPrepared => Sys2Proof.Machine.execAdoptionPrepared s
  | .regionTableRewrite => Sys2Proof.Machine.execRegionTableRewrite s
  | .sectionReload item => Sys2Proof.Machine.execSectionReload item s
  | .pageInitComplete page => Sys2Proof.Machine.execPageInitComplete page s
  | .pageRewriteComplete page => Sys2Proof.Machine.execPageRewriteComplete page s
  | .keyDraw region => Sys2Proof.Machine.execKeyDraw region s
  | .pageMove region page => Sys2Proof.Machine.execPageMove region page s
  | .rekeySweepStep region => Sys2Proof.Machine.execRekeySweepStep region s
  | .keyRetirement region => Sys2Proof.Machine.execKeyRetirement region s
  | .drbgReseed => Sys2Proof.Machine.execDrbgReseed s
  | .entropyFailure => Sys2Proof.Machine.execEntropyFailure s
  | .refreshInterval ch bank => Sys2Proof.Machine.execRefreshInterval ch bank s
  | .neighbourRefreshDeadline ch bank => Sys2Proof.Machine.execNeighbourRefreshDeadline ch bank s
  | .expressRowTimeout ch bank => Sys2Proof.Machine.execExpressRowTimeout ch bank s
  | .rowDisturbReseed ch => Sys2Proof.Machine.execRowDisturbReseed ch s
  | .laneErrorWindow ch => Sys2Proof.Machine.execLaneErrorWindow ch s
  | .reliefCopyComplete ch => Sys2Proof.Machine.execReliefCopyComplete ch s
  | .calendarTurn ch => Sys2Proof.Machine.execCalendarTurn ch s
  | .latencyUpdate ch cls => Sys2Proof.Machine.execLatencyUpdate ch cls s
  | .skimmerStep => Sys2Proof.Machine.execSkimmerStep s
  | .skimmerVisit ch upsets path => Sys2Proof.Machine.execSkimmerVisit ch upsets path s
  | .sramScrub found => Sys2Proof.Machine.execSramScrub found s
  | .thermalSample base layers => Sys2Proof.Machine.execThermalSample base layers s
  | .thresholdRelease dom => Sys2Proof.Machine.execThresholdRelease dom s
  | .retentionFloorUpdate => Sys2Proof.Machine.execRetentionFloorUpdate s
  | .sensorInvalid sensor => Sys2Proof.Machine.execSensorInvalid sensor s
  | .sensorsDeclaredFailed layer => Sys2Proof.Machine.execSensorsDeclaredFailed layer s
  | .faultMessage => Sys2Proof.Machine.execFaultMessage s
  | .churnFault cause pointersOk => Sys2Proof.Machine.execChurnFault cause pointersOk s
  | .handshakeTimeout sender receiver => Sys2Proof.Machine.execHandshakeTimeout sender receiver s
  | .heartbeat => Sys2Proof.Machine.execHeartbeat s
  | .watchdogExpiry => Sys2Proof.Machine.execWatchdogExpiry s
  | .journalWrite => Sys2Proof.Machine.execJournalWrite s
  | .railUp rail full => Sys2Proof.Machine.execRailUp rail full s
  | .pwrOkRise => Sys2Proof.Machine.execPwrOkRise s
  | .porNFall lowUs => Sys2Proof.Machine.execPorNFall lowUs s
  | .supplyRemoval => Sys2Proof.Machine.execSupplyRemoval s
  | .islandPllLock => Sys2Proof.Machine.execIslandPllLock s
  | .drainBegin => Sys2Proof.Machine.execDrainBegin s
  | .stageCommitEnd => Sys2Proof.Machine.execStageCommitEnd s
  | .blockLock p => Sys2Proof.Machine.execBlockLock p s
  | .partnerDriverOff p => Sys2Proof.Machine.execPartnerDriverOff p s
  | .unknownCommand p f => Sys2Proof.Machine.execUnknownCommand p f s
  | .entropySample sample later => Sys2Proof.Machine.execEntropySample sample later s

end Sys2Proof.Machine
end

