-- ==== Sys2Proof/Machine/Tick.lean ====
section
/-! DEFINITION. What the passing of time brings without a command: the clocks every microsecond (`tick`), and what the Tank and the sampled
measurements do every millisecond (R318, R370, R379; notes/assumptions/3.md, notes/assumptions/115.md). -/

namespace Sys2Proof.Machine

/-- The receiver of a chain port is locked. -/
def portLocked (s : State) (p : ChainPort) : Bool := (getCPort s p).up && ((getCPort s p).rx = .continuous || (getCPort s p).rx = .locked)

/-- Each locked receiver's eye over its last second (R318): its figures move while it stays locked; that they do so once per millisecond is the
model's (DESIGN CHOICE, notes/assumptions/115.md). -/
def remeasureEyes (s : State) : State := forEach [.chu, .chd] (fun p t => if portLocked t p then measureEye p t else t) s

/-- The sample of VDDIO (R370): a free value. -/
def sampleVddio (s : State) : State := { drawn s with otp := { s.otp with vddio := (Config.vddio s.free).toNat } }

/-- Once per millisecond: the black box's device-time word (R379), the sample of VDDIO (R370), the receivers' eyes (R318). -/
def everyMs (s : State) : State := remeasureEyes (sampleVddio { s with tank := { s.tank with boxTime := stamp s } })

/-- One microsecond passes. -/
def passUs (s : State) : State :=
  let t := tick s
  if porHigh t && t.tank.porUs % 1000 = 0 then everyMs t else t

end Sys2Proof.Machine
end

