-- ==== Sys2Proof/Safety.lean ====
section
/-! DEFINITION. What the claims about the block are stated in: frames, which name all that may differ between two states; when a
chain request gets through to its own rule; and the invariant of the stored tables. -/

namespace Sys2Proof.Safety

open Sys2Proof.Machine

/-! ### Frames -/

/-- Nothing but the fault messages that wait for the Churn, and what counts and limits them, differs (R332, R335). -/
def Messages (u t : State) : Prop :=
  ∃ (i st : List FaultMsg) (cd : BitVec 32) (lr : Table Nat),
    t = { u with churn := { u.churn with inbox := i, stalled := st, ceDropped := cd, lastRaised := lr } }

/-- Nothing but waiting fault messages and the journal's queue and header differs (R320, R321). -/
def Events (u t : State) : Prop := ∃ j : Journal, Messages { u with journal := j } t

/-- Nothing but waiting fault messages and the counters of the data ports differs (R82). -/
def PortCounts (u t : State) : Prop := ∃ x : Table Nat, Messages { u with ctr := { u.ctr with port := x } } t

/-- Nothing but what a frame that leaves a data port touches differs: the sent frames, the ports' records and counters, waiting
fault messages (R70, R81). -/
def Sends (u t : State) : Prop :=
  ∃ (d : List (Nat × Sent)) (ps : Table Port), PortCounts { u with dataSent := d, ports := ps } t

/-- Nothing but what frames that leave a data port can touch differs when READ responses may be among them: what `Sends` names, the
tenants' counters and the minute records they feed, the crypto lanes' alarms, and what a late tag result does to its line and its
channel (R81, R125, R144). -/
def Flushes (u t : State) : Prop :=
  ∃ (x n : Table Nat) (r : Records) (c : Table (List CryptoEntry)) (m : Dram) (k : Skim) (g : Stats),
    Sends { u with ctr := { u.ctr with tenant := x, chan := n }, records := r, path := { u.path with inCrypto := c }, dram := m,
                   skim := k, stats := g } t

/-- Nothing but the two chain ports, the frames that have left them, the chain counters and waiting fault messages differs
(R297 to R299, R318). -/
def Links (u t : State) : Prop :=
  ∃ (a b : CPort) (sent : List ChainSent) (x : Table Nat),
    Messages { u with chain := { u.chain with chu := a, chd := b }, chainSent := sent, ctr := { u.ctr with chain := x } } t

/-- Nothing but what every chain request touches differs: the chain ports, the RESPONSE in the repeat cache, the challenge with the
generator that it is drawn from, the journal and a free value drawn (R132, R298, R307, R309, R313, R322). -/
def Commanded (u t : State) : Prop :=
  ∃ (c : List (BitVec 16 × ChainFrame × Nat)) (ch : BitVec 128) (d : Drbg) (j : Journal) (n : Nat),
    Links { u with chain := { u.chain with cache := c, challenge := ch }, drbg := d, journal := j, free := n } t

/-! ### Chain requests -/

/-- A frame gets through checks 5 to 7 of R295 on a port, and is not a repeat within 100 µs (R300). -/
def Passes (p : ChainPort) (f : ChainFrame) (s : State) : Prop :=
  canReceive (getCPort s p) = true ∧ f.version = 1 ∧ f.hops.toNat < 63 ∧ hopRepeat s p f = false

/-- A request for this unit gets through to its rule: it passes the checks of R295, a broadcast finds its place in the outgoing
queue or no way out (R297, R298), and it is not a repeat (R309). -/
def Delivered (p : ChainPort) (f : ChainFrame) (s : State) : Prop :=
  Passes p f s ∧ actedOn s f = true ∧ cachedResponse s f.seq = none ∧
    (broadcast f = true → (getCPort s (otherPort p)).up = true → (getCPort s (otherPort p)).queue.length < 64)

/-- A command reaches its own rule: the core runs, the phase allows it (R50), its Length is right (R311), and the life cycle leaves it
open or its signature is valid (R313). -/
def Runs (code : Byte) (p : ChainPort) (f : ChainFrame) (s : State) : Prop :=
  f.ftype = 3 ∧ f.code = code ∧ Delivered p f s ∧ coreRuns s = true ∧ commandPhase s.tank.phase code = true ∧
    f.payload.length = commandLength code ∧ f.length.toNat = f.payload.length ∧
    (lifeGate s.otp.life code = 0 ∨ (lifeGate s.otp.life code = 1 ∧ authorised s f = true))

/-- The RESPONSE to a request is the newest in the repeat cache, with this status and payload (R307, R309). -/
def Answered (f : ChainFrame) (status : Byte) (payload : List Byte) (t : State) : Prop :=
  ∃ r rest, t.chain.cache = (f.seq, r, t.tank.clockUs) :: rest ∧ r.ftype = 4 ∧ r.status = status ∧ r.payload = payload ∧
    r.seq = f.seq ∧ r.tag = f.tag ∧ r.code = f.code

/-- A frame stands in a chain port's transmit queue or has left it. -/
def Leaves (p : ChainPort) (f : ChainFrame) (t : State) : Prop :=
  (∃ e ∈ t.chainSent, e.port = p ∧ e.frame = f) ∨ f ∈ (getCPort t p).queue

/-- The counter of a chain port's record at `off` has counted one (R318). -/
def CountedOn (p : ChainPort) (off : Nat) (s t : State) : Prop :=
  Map.get 0 (((if p = .chu then 0x100 else 0x200) + off) / 4) t.ctr.chain =
    satAdd max32 (Map.get 0 (((if p = .chu then 0x100 else 0x200) + off) / 4) s.ctr.chain) 1

/-- The port counter of index i has counted n (R81, R82). -/
def PortCounted (port i n : Nat) (s t : State) : Prop :=
  Map.get 0 (port * 32 + i) t.ctr.port = satAdd max48 (Map.get 0 (port * 32 + i) s.ctr.port) n

/-! ### The data ports -/

/-- A frame of a priority that a port sends, other than a PFC frame, leaves with its interface's fields, or joins the port's queue
while the priority is paused (R63, R70). -/
def Emitted (p prio : Nat) (i : Iface) (f : TxFrame) (s t : State) : Prop :=
  silent s p = false → (getPort s p).discarding.getLsbD prio = false →
    ((getPort s p).paused.getLsbD prio = false → t.dataSent = (p, sentFrame i prio f) :: s.dataSent) ∧
    ((getPort s p).paused.getLsbD prio = true → (prio, f) ∈ (getPort t p).queue)

/-- A frame of a priority leaves a port of an interface with its FCS decided, others perhaps after it, or waits in the port's queue while the
priority is paused (R63, R70, R144). -/
def Departs (p prio : Nat) (i : Iface) (f : TxFrame) (s t : State) : Prop :=
  silent s p = false → (getPort s p).discarding.getLsbD prio = false →
    ((getPort s p).paused.getLsbD prio = false → (p, sentFrame i prio (withFcs f)) ∈ t.dataSent) ∧
    ((getPort s p).paused.getLsbD prio = true → (prio, f) ∈ (getPort t p).queue)

/-- A packet of a QP with the given fields departs, with its class's priority, on the member of the transmit set that its QPN selects (R64, R70). -/
def PacketDeparts (n : BitVec 24) (q : Qp) (fields : RdmaTx → Prop) (s t : State) : Prop :=
  ∀ p i prio, egress s q.iface n = some p → ifaceOf s (p / 4) = some i → prio = ((classRec s q.cls).map (fun r => r.pfc)).getD 0 →
    ∃ x : RdmaTx, fields x ∧ x.dqp = q.remoteQpn ∧ x.ip = q.remote ∧ Departs p prio i (.rdma x) s t

/-- A frame of a priority finds its place in the packet buffer: share and headroom for a lossless one, the shared pool for another (R68, R69). -/
def FitsBuffer (s : State) (p prio len : Nat) : Prop :=
  if (getPort s p).lossless.getLsbD prio then
    Map.get 0 prio (getPort s p).use + len ≤ xoffShare s (p / 4) + headroom (quadMode s (p / 4)).1
  else poolUse s (p / 4) + len ≤ sharedPool s (p / 4)

/-- A request command with the operation that its opcode names (R83). -/
def RequestOf (k : Pkt) (o : ReqOp) (c : Instr) : Prop :=
  (o, c) ∈ [(.read, .rdmaReadRequest k), (.writeFirst, .rdmaWriteFirst k), (.writeMiddle, .rdmaWriteMiddle k),
    (.writeLast, .rdmaWriteLast k), (.writeOnly, .rdmaWriteOnly k), (.cmpSwap, .cmpSwap k), (.fetchAdd, .fetchAdd k)]

/-! ### The memory -/

/-- The data bytes and the poison of every line outside the system rows stand as before (R155). -/
def TenantsKept (s t : State) : Prop :=
  (∀ a, isSystemLine (a / 64) = false → Map.get (fillByte a) a t.dram.data = Map.get (fillByte a) a s.dram.data) ∧
    ∀ l, isSystemLine l = false → isPoisoned t l = isPoisoned s l

/-- The lease-state record of a region holds what its entry now says, at the place it had before (R112, R159). -/
def RecordKept (i : Nat) (s t : State) : Prop :=
  lineBytes t (leaseHome s i).1 (leaseHome s i).2 16 = leaseBytes (recOf (getRegion t i))

/-! ### The stored tables -/

/-- The stored memories stand in their canonical form: DRAM data and symbol errors, the flash, the OTP cells, the set of poisoned
lines. -/
def Stored (s : State) : Prop :=
  Memory.wf fillByte s.dram.data = true ∧ Map.wf (fun _ => (0 : Byte)) s.dram.upsets = true ∧ s.dram.poison.Pairwise (· < ·) ∧
    Memory.wf flashByte s.flash = true ∧ Map.wf (fun _ => (0 : BitVec 39)) s.otp.cells = true

/-- Every bit that is set in the OTP cells of `a` is set in those of `b`. -/
def OtpKept (a b : Table (BitVec 39)) : Prop := ∀ w, Map.get 0 w a &&& Map.get 0 w b = Map.get 0 w a

end Sys2Proof.Safety
end

