-- ==== Sys2Proof/Certificates/Slice0/Obligations.lean ====
section
/-! DEFINITION. The statements for the provers. Each is about `exec` or `step` from any state and operands that meet its hypotheses;
its docstring names the rules of spec/ that it rests on. -/

open Sys2Proof Sys2Proof.Machine Sys2Proof.Safety

/-! ### Commands over the chain (R306 to R313) -/

/-- ANCHOR (R47, R115): the first anchor sets device time in phases 0x05 and 0x06; in any other phase the value is held; a value ahead of
device time is taken over; one up to 60 minutes behind the present minute makes device time stand still until it is reached.
What the model chose in it, not the spec: notes/assumptions/72.md. -/
def Obligations.AnchorSetsDeviceTime : Prop :=
  ∀ (p : ChainPort) (f : ChainFrame) (s : State) (m us : Nat),
    Runs 0x01 p f s → m = field f.payload 0 4 → us = field f.payload 4 4 → us < 60000000 →
    (s.tank.anchored = false → s.tank.phase = 0x05 ∨ s.tank.phase = 0x06 →
      ∃ t, exec (.anchor p f) s = .next t ∧ Answered f 0x00 (timeBytes s) t ∧
        Commanded { s with tank := { s.tank with anchored := true, timeSource := false, unsync := false, minute := BitVec.ofNat 32 m,
                                                 usec := us, holdUs := 0, held := none, roundMinute := BitVec.ofNat 32 m },
                           records := { s.records with openMinute := m } } t) ∧
    (s.tank.anchored = false → s.tank.phase ≠ 0x05 → s.tank.phase ≠ 0x06 →
      ∃ t, exec (.anchor p f) s = .next t ∧ Answered f 0x00 (timeBytes s) t ∧
        Commanded { s with tank := { s.tank with held := some (BitVec.ofNat 32 m, us), unsync := false } } t) ∧
    (s.tank.anchored = true → deviceUs s ≤ m * 60000000 + us →
      ∃ t, exec (.anchor p f) s = .next t ∧ Answered f 0x00 (timeBytes s) t ∧ t.tank.minute = BitVec.ofNat 32 m ∧ t.tank.usec = us ∧
        t.tank.holdUs = 0 ∧ t.tank.unsync = false) ∧
    (s.tank.anchored = true → m * 60000000 + us < deviceUs s → s.tank.minute.toNat * 60000000 ≤ m * 60000000 + us + 3600000000 →
      ∃ t, exec (.anchor p f) s = .next t ∧ Answered f 0x00 (timeBytes s) t ∧
        Commanded { s with tank := { s.tank with holdUs := deviceUs s - (m * 60000000 + us), unsync := false, timeSource := false } } t)

/-- TRIM (R116): device time moves by the signed milliseconds: forward at once, backward by standing still. Before the first anchor the
held clock moves.
What the model chose in it, not the spec: notes/assumptions/72.md. -/
def Obligations.TrimMovesDeviceTime : Prop :=
  ∀ (p : ChainPort) (f : ChainFrame) (s : State) (d : Int),
    Runs 0x02 p f s → d = signedOf 32 (field f.payload 0 4) → d ≠ 0 → d.natAbs ≤ 1000 →
    (∀ h v, s.tank.anchored = false → s.tank.held = some h → v = addUs (h.1.toNat * 60000000 + h.2) (d * 1000) →
      ∃ t, exec (.trim p f) s = .next t ∧ Answered f 0x00 (timeBytes s) t ∧
        Commanded { s with tank := { s.tank with held := some (BitVec.ofNat 32 (v / 60000000), v % 60000000) } } t) ∧
    (s.tank.anchored = true → addUs (deviceUs s - s.tank.holdUs) (d * 1000) < deviceUs s →
      ∃ t, exec (.trim p f) s = .next t ∧ Answered f 0x00 (timeBytes s) t ∧
        Commanded { s with tank := { s.tank with holdUs := deviceUs s - addUs (deviceUs s - s.tank.holdUs) (d * 1000) } } t) ∧
    (s.tank.anchored = true → deviceUs s ≤ addUs (deviceUs s - s.tank.holdUs) (d * 1000) →
      ∃ t, exec (.trim p f) s = .next t ∧ t.tank.holdUs = 0 ∧
        t.tank.minute = BitVec.ofNat 32 (addUs (deviceUs s - s.tank.holdUs) (d * 1000) / 60000000) ∧
        t.tank.usec = addUs (deviceUs s - s.tank.holdUs) (d * 1000) % 60000000)

/-- REVOKE_LEASE (R124): an accepted revoke marks the region that it names with its minute, and no other region. -/
def Obligations.RevokeLeaseMarksItsRegion : Prop :=
  ∀ (p : ChainPort) (f : ChainFrame) (s : State) (w : Nat) (id m : BitVec 32),
    Runs 0x05 p f s → w = field f.payload 0 4 → id = BitVec.ofNat 32 (field f.payload 4 4) →
    m = BitVec.ofNat 32 (field f.payload 8 4) → w < 131072 → (getRegion s w).inUse = true → id ≠ 0 →
    (getRegion s w).leaseId = id ∨ (getRegion s w).foId = id → s.tank.minute.toNat < m.toNat →
    m.toNat ≤ namedEnd (getRegion s w) id →
    (getRegion s w).revokeMinute = 0xFFFFFFFF ∨ m.toNat < (getRegion s w).revokeMinute.toNat →
    ∃ t, exec (.revokeLease p f) s = .next t ∧ Answered f 0x00 [] t ∧
      getRegion t w = { getRegion s w with revoked := true, revokeMinute := m, revokeId := id } ∧
      ∀ i, i ≠ w → getRegion t i = getRegion s i

/-- STAGE_OPEN (R277), STAGING_WRITE (R278), STAGE_COMMIT (R279) and STAGE_ABORT (R280): opening empties the bank by its magic alone and
begins the erase; a WRITE at the next offset joins the program buffer; a commit begins; an abort empties the bank and closes the
staging. No other flash byte changes. -/
def Obligations.StagingCommandsAct : Prop :=
  ∀ (p : ChainPort) (f : ChainFrame) (s : State) (k : Bank),
    (Runs 0x03 p f s → k = bankOf (field f.payload 1 1) → field f.payload 1 1 ≤ 1 → field f.payload 2 2 = 0 →
      (field f.payload 0 1 = 1 → 72 ≤ field f.payload 4 4 → field f.payload 4 4 ≤ 0x01800000 → s.plans.target = none →
        ¬(s.tank.phase = 0x08 ∧ s.plans.inForce = some k) → s.plans.preparing ≠ some k →
        ∃ t, exec (.stageOpen p f) s = .next t ∧ Answered f 0x00 [] t ∧ t.plans.target = some k ∧ t.plans.operation = 1 ∧
          t.plans.declared = field f.payload 4 4 ∧ t.plans.erased = 0 ∧ t.plans.written = 0 ∧ (getBS t k).state = 2 ∧
          ∀ a, Map.get (flashByte a) a t.flash =
            if bankBase k ≤ a ∧ a < bankBase k + 4 then 0 else Map.get (flashByte a) a s.flash) ∧
      (field f.payload 0 1 = 2 → field f.payload 4 4 = 0 → s.plans.target = some k → s.plans.declared ≤ s.plans.written →
        ∃ t, exec (.stageCommit p f) s = .next t ∧ Answered f 0x01 [] t ∧
          Commanded { s with plans := { s.plans with operation := 3 } } t) ∧
      (field f.payload 0 1 = 3 → field f.payload 4 4 = 0 → s.plans.target = some k →
        ∃ t, exec (.stageAbort p f) s = .next t ∧ Answered f 0x00 [] t ∧ t.plans.target = none ∧ (getBS t k).state = 0 ∧
          ∀ a, Map.get (flashByte a) a t.flash =
            if bankBase k ≤ a ∧ a < bankBase k + 4 then 0 else Map.get (flashByte a) a s.flash)) ∧
    (∀ o, f.ftype = 2 → Delivered p f s → coreRuns s = true → ordinaryPhase s.tank.phase = true →
      windowBank f.addr.toNat = some (k, o) → s.plans.target = some k → s.plans.operation ≠ 3 → o = s.plans.written → f.payload ≠ [] →
      f.payload.length ≤ 1024 → o + f.payload.length ≤ s.plans.erased → o + f.payload.length ≤ s.plans.declared →
      s.plans.progBuf.length + f.payload.length ≤ 65536 → f.addr.toNat + f.payload.length ≤ 0x14000000 →
      ∃ t, exec (.stagingWrite p f) s = .next t ∧ Answered f 0x00 [] t ∧
        Commanded { s with plans := { s.plans with written := s.plans.written + f.payload.length,
                                                   progBuf := s.plans.progBuf ++ unarmBytes o f.payload } } t)

/-- SECTOR_ERASE_COMPLETE (R277), PAGE_PROGRAM_COMPLETE (R278) and STAGE_COMMIT_END (R279): while a staging is open, the next 64 KiB sector reads as erased,
and the erase is over once the declared length is reached; the next page, or the last part of one, goes from the program buffer to the flash, where
programming only clears bits; the end of a commit programs what is left and closes the staging: a bank that passes the checks is staged, another is empty,
with its reason. No other byte of the flash changes, but the first four bytes of a bank that becomes empty read as 0. -/
def Obligations.StagingWorkAdvances : Prop :=
  ∀ (s : State) (k : Bank), s.plans.target = some k →
    (s.plans.operation = 1 →
      ∃ t, exec .sectorEraseComplete s = .next t ∧ t.plans.erased = s.plans.erased + 65536 ∧
        t.plans.operation = (if s.plans.declared ≤ s.plans.erased + 65536 then 2 else 1) ∧ t.dram = s.dram ∧ t.tank = s.tank ∧
        ∀ a, Map.get (flashByte a) a t.flash =
          if bankBase k + s.plans.erased ≤ a ∧ a < bankBase k + s.plans.erased + 65536 then 0xFF
          else Map.get (flashByte a) a s.flash) ∧
    (∀ n, n = 256 - s.plans.progAt % 256 → s.plans.progBuf ≠ [] → n ≤ s.plans.progBuf.length ∨ s.plans.declared ≤ s.plans.written →
      ∃ t, exec .pageProgramComplete s = .next t ∧ t.plans.progBuf = s.plans.progBuf.drop n ∧ t.plans.progAt = s.plans.progAt + n ∧
        t.dram = s.dram ∧ t.tank = s.tank ∧
        (∀ i x, i < n → s.plans.progBuf[i]? = some x → Map.get 0xFF (bankBase k + s.plans.progAt + i) t.flash =
          (Map.get 0xFF (bankBase k + s.plans.progAt + i) s.flash &&& x)) ∧
        ∀ a, a < bankBase k + s.plans.progAt ∨ bankBase k + s.plans.progAt + min n s.plans.progBuf.length ≤ a →
          Map.get (flashByte a) a t.flash = Map.get (flashByte a) a s.flash) ∧
    (∀ u, s.plans.operation = 3 → u = drawn (programPage k s.plans.progBuf.length s) →
      ∃ t, exec .stageCommitEnd s = .next t ∧ t.plans.target = none ∧ t.plans.operation = 0 ∧ t.dram = s.dram ∧ t.tank = s.tank ∧
        t.plans.lastResult = BitVec.ofNat 8 (commitResult u k).1 ∧
        ((commitResult u k).1 = 0 → (getBS t k).state = 3 ∧ t.flash = u.flash) ∧
        ((commitResult u k).1 ≠ 0 → (getBS t k).state = 0 ∧ (getBS t k).reason = BitVec.ofNat 8 (commitResult u k).1 ∧
          ∀ a, Map.get (flashByte a) a t.flash =
            if bankBase k ≤ a ∧ a < bankBase k + 4 then 0 else Map.get (flashByte a) a u.flash))

/-- ADOPT and ADOPT_CANCEL (R281): in service a staged, newer bank with time left becomes pending; in a cold halt the bank is armed and
the start goes on at phase 0x04; a cancel disarms the pending bank.
What the model chose in it, not the spec: notes/assumptions/50.md. -/
def Obligations.AdoptArmsAndCancelDisarms : Prop :=
  ∀ (p : ChainPort) (f : ChainFrame) (s : State) (k : Bank),
    Runs 0x04 p f s → k = bankOf (field f.payload 1 1) → field f.payload 1 1 ≤ 1 → field f.payload 2 2 = 0 →
    (field f.payload 0 1 = 1 → s.tank.phase = 0x08 → s.plans.inForce ≠ some k → (getBS s k).state = 3 →
      (∀ q, s.plans.plan = some q → newerSeq (getBS s k).seq q.seq = true) → s.tank.minute.toNat + 2 ≤ (getBS s k).adoptAt.toNat →
      ∃ t, exec (.adopt p f) s = .next t ∧ Answered f 0x00 [] t ∧ (getBS t k).state = 4 ∧ t.plans.lastResult = 0 ∧
        getBS t (otherBank k) = getBS s (otherBank k)) ∧
    (field f.payload 0 1 = 1 → s.tank.phase = 0xE0 → s.tank.lastReset = 0 → (getBS s k).state = 3 →
      ∃ t, exec (.adopt p f) s = .next t ∧ Answered f 0x00 [] t ∧ (getBS t k).state = 4 ∧ t.tank.phase = 0x04 ∧
        t.plans.forced = some k) ∧
    (field f.payload 0 1 = 2 → (getBS s k).state = 4 →
      ¬((getBS s k).adoptAt.toNat ≤ s.tank.roundMinute.toNat ∧ s.tank.phase = 0x08) →
      ∃ t, exec (.adoptCancel p f) s = .next t ∧ Answered f 0x00 [] t ∧ (getBS t k).state = 7 ∧ t.plans.prepared = false ∧
        t.plans.preparing = none)

/-- RETIRE_PAGE (R227), the copy of a line that LINE_DECODE brings, and UNIT_COPY (R230 to R232): an accepted retirement is recorded with its units, whose
remap entries are Valid; each line of a unit goes, through the bank queues, to the spare page with its metadata entry, corrected, or as poison; with 64 lines
copied the entry is committed, and a spare page that held the unit before is Bad. A unit that the device does not have is no unit: the step stops.
What the model chose in it, not the spec: notes/assumptions/75.md. -/
def Obligations.RetirementTakesSpares : Prop :=
  (∀ (p : ChainPort) (f : ChainFrame) (s : State) (units : List (Nat × Nat × Nat)) (skipped : Nat),
    Runs 0x06 p f s → retirePageRule (field f.payload 0 4) s = .inr (units, skipped) → units ≠ [] →
    ∃ t, exec (.retirePage p f) s = .next t ∧ Answered f 0x01 [BitVec.ofNat 8 units.length, BitVec.ofNat 8 skipped, 0, 0] t ∧
      (∃ r ∈ t.retirements, r.page = field f.payload 0 4 ∧ r.units = units ∧ r.placed = 0) ∧
      ∀ x ∈ units, getRemap t x.1 x.2.2 = { Remap.zero with valid := true, page := field f.payload 0 4, unit := x.2.1 }) ∧
  (∀ (s u : State) (ch : Fin 64) (ups path mu : Errors) (b : Burst) (rest : List Burst) (loc i j : Nat) (e : Remap) (m : Nat × BitVec 56) (d : Decoded),
    inFlight s ch.val = b :: rest → stalls s ch.val = false → b.req.kind = .copy → loc = (homeOf s b.req.dma).2 → j = loc % 64 →
    copyingSpare s ch.val (loc / 64) = some (i, e) → e.copied = j →
    (m, u) = copyMeta ch.val loc mu (unlockVisit b.req (addUpsets (dataHome s ch.val loc) ups (setInFlight ch.val rest s))) →
    d = (decodeLine u (dataHome u ch.val loc) path).1 →
    ∃ t, exec (.lineDecode ch ups path mu) s = .next t ∧ inFlight t ch.val = rest ∧ (getRemap t ch.val i).copied = j + 1 ∧
      lineBytes t (spareMeta ch.val i j).1 (spareMeta ch.val i j).2 8 = metaBytes m.1 m.2 ∧
      (∀ bs, d = .clean bs → lineData t (spareLine ch.val i j) = padTo 64 bs ∧ isPoisoned t (spareLine ch.val i j) = false) ∧
      (∀ bs lanes n er, d = .corrected bs lanes n er → lineData t (spareLine ch.val i j) = padTo 64 bs ∧ isPoisoned t (spareLine ch.val i j) = false) ∧
      (d = .poisoned ∨ d = .uncorrectable → isPoisoned t (spareLine ch.val i j) = true)) ∧
  (∀ (s : State) (ch : Fin 64) (u i : Nat) (r : Retirement), u < unitCount →
    s.retirements.find? (fun r => r.units.any (fun x => x.1 = ch.val && x.2.1 = u)) = some r →
    r.units.find? (fun x => x.1 = ch.val && x.2.1 = u) = some (ch.val, u, i) →
    (ownOpen s ch.val = true → 64 ≤ (getRemap s ch.val i).copied →
      ∃ t, exec (.unitCopy ch u) s = .next t ∧
        getRemap t ch.val i = { valid := true, committed := true, bad := false, page := r.page, unit := u, copied := 0 } ∧
        ∀ o, committedSpare s ch.val u = some o → o ≠ i → (getRemap t ch.val o).bad = true ∧ (getRemap t ch.val o).committed = false) ∧
    (ownOpen s ch.val = false ∨ (getRemap s ch.val i).copied < 64 → exec (.unitCopy ch u) s = .next s)) ∧
  (∀ (s : State) (ch : Fin 64) (u : Nat), unitCount ≤ u → exec (.unitCopy ch u) s = .fault .noSuchObject)

/-- QUIESCE_PORT, its drain's end, and QUIESCE_PORT_RESUME (R67): the port leaves the transmit set and drains; what remains is
discarded; on resume it may enter the set again.
What the model chose in it, not the spec: notes/assumptions/30.md, notes/assumptions/95.md. -/
def Obligations.QuiesceTakesPortOut : Prop :=
  ∀ (p : ChainPort) (f : ChainFrame) (s : State) (n : Nat),
    (Runs 0x07 p f s → n = field f.payload 0 1 → n ≤ 15 → field f.payload 2 2 = 0 → (getPort s n).present = true →
      (field f.payload 1 1 = 1 → (getPort s n).quiesced = false → members s (n / 4) ≠ [n] →
        ∃ t, exec (.quiescePort p f) s = .next t ∧ Answered f 0x01 [] t ∧
          Commanded (abandonRecal (portLanes (quadMode s (n / 4)).1 n)
            (setPort n { getPort s n with quiesced := true, draining := true } s)) t) ∧
      (field f.payload 1 1 = 2 →
        ∃ t, exec (.quiescePortResume p f) s = .next t ∧ Answered f 0x01 [] t ∧ (getPort t n).quiesced = false ∧
          (getPort t n).draining = false ∧ t.dram = s.dram)) ∧
    (∀ q : Fin 16, (getPort s q.val).draining = true →
      exec (.quiesceDrainEnd q) s = .next (setPort q.val { getPort s q.val with draining := false, queue := [] } s))

/-- WARM_RESET (R51): the command is answered first; DRAIN_BEGIN, 20 µs later, starts the drain with Last reset 2 and Warm count raised.
WRST_N low for 50 ns or more does the same with Last reset 1.
What the model chose in it, not the spec: notes/assumptions/12.md. -/
def Obligations.WarmResetsBeginADrain : Prop :=
  (∀ (p : ChainPort) (f : ChainFrame) (s : State), Runs 0x08 p f s → field f.payload 0 4 = 0x57525354 →
    ∃ t, exec (.warmReset p f) s = .next t ∧ Answered f 0x00 [] t ∧
      Commanded { s with tank := { s.tank with warmPending := true } } t) ∧
  (∀ s : State, s.tank.warmPending = true → s.tank.drain = none → s.pins.powerFail = false → commandPhase s.tank.phase 0x08 = true →
    ∃ t, exec .drainBegin s = .next t ∧ t.tank.phase = 0x10 ∧ t.tank.lastReset = 2 ∧
      t.tank.warmCount.toNat = min 255 (s.tank.warmCount.toNat + 1) ∧ t.tank.drainAt = stamp s ∧ t.tank.warmPending = false ∧
      (∀ q, (getPort t q).up = false) ∧ t.dram = s.dram ∧ t.keys = s.keys ∧ t.regions = s.regions ∧ t.qps = s.qps) ∧
  (∀ (s : State) (ns : Nat), s.pins.porN = true → s.pins.powerFail = false → s.pins.refclkHold = false → 50 ≤ ns →
    s.tank.drain = none → s.tank.phase = 0x08 ∨ s.tank.phase = 0xE0 ∨ s.tank.phase = 0xE1 ∨ s.tank.phase = 0xF0 ∨ s.tank.phase = 0x11 →
    ∃ t, exec (.wrstNFall ns) s = .next t ∧ t.tank.phase = 0x10 ∧ t.tank.lastReset = 1 ∧
      t.tank.warmCount.toNat = min 255 (s.tank.warmCount.toNat + 1) ∧ (∀ q, (getPort t q).up = false) ∧ t.dram = s.dram) ∧
  (∀ (s : State) (ns : Nat), ns < 20 → exec (.wrstNFall ns) s = .next s)

/-- SNAPSHOT_TAKE, _TAKE_CLEAR, _RELEASE and SNAPSHOT_EXPIRY (R312): every group named gets a view of the counters for 60 s, the others keep
theirs; take and clear clears the groups; a release or the time ends the views. -/
def Obligations.SnapshotsHoldViews : Prop :=
  ∀ (p : ChainPort) (f : ChainFrame) (s : State),
    (Runs 0x09 p f s → snapshotPrefix f s = none →
      (field f.payload 0 1 = 1 →
        ∃ t, exec (.snapshotTake p f) s = .next t ∧ Answered f 0x00 (timeBytes s) t ∧
          (∀ g ∈ snapshotGroups f, g ≠ 5 → ∃ v ∈ t.views, v.group = g ∧ v.untilUs = s.tank.clockUs + 60000000 ∧
            v.c = groupCounters g (field f.payload 2 2) (field f.payload 4 2) s.ctr) ∧
          (∀ v ∈ s.views, v.group ∉ snapshotGroups f → v ∈ t.views) ∧ t.ctr.port = s.ctr.port ∧ t.ctr.tenant = s.ctr.tenant) ∧
      (field f.payload 0 1 = 2 →
        ∃ t, exec (.snapshotTakeClear p f) s = .next t ∧ Answered f 0x00 (timeBytes s) t ∧
          (∀ g ∈ snapshotGroups f, g ≠ 5 → ∃ v ∈ t.views, v.group = g ∧
            v.c = groupCounters g (field f.payload 2 2) (field f.payload 4 2) s.ctr) ∧
          (1 ∈ snapshotGroups f → t.ctr.port = []) ∧ (2 ∈ snapshotGroups f → t.ctr.cls = []) ∧
          (3 ∈ snapshotGroups f → t.ctr.chan = []) ∧ (4 ∈ snapshotGroups f → t.ctr.ce = []) ∧
          (1 ∉ snapshotGroups f → t.ctr.port = s.ctr.port)) ∧
      (field f.payload 0 1 = 3 →
        ∃ t, exec (.snapshotRelease p f) s = .next t ∧ Answered f 0x00 (timeBytes s) t ∧
          Commanded { s with views := s.views.filter (fun v => !(snapshotGroups f).contains v.group) } t)) ∧
    (∀ g : Fin 6, exec (.snapshotExpiry g) s = .next { s with views := s.views.filter (fun v => v.group ≠ g.val) })

/-- BIST_START and BIST_ABORT (R363, R368): a test starts on the mask that it names; an abort ends the running test as aborted, and does
nothing where none runs. -/
def Obligations.BistCommandsStartAndAbort : Prop :=
  ∀ (p : ChainPort) (f : ChainFrame) (s : State), Runs 0x0A p f s → bistPrefix f s = none →
    (field f.payload 0 1 = 1 → ¬(inField s = true ∧ 3 ≤ field f.payload 1 1) → s.bist.state ≠ 1 → otpBusy s = false →
      maskUsable s (field f.payload 1 1) (BitVec.ofNat 64 (field f.payload 8 8)) = true →
      ∃ t, exec (.bistStart p f) s = .next t ∧ Answered f 0x01 [] t ∧ t.bist.state = 1 ∧
        t.bist.test = BitVec.ofNat 8 (field f.payload 1 1) ∧ t.bist.mask = BitVec.ofNat 64 (field f.payload 8 8) ∧ t.bist.result = 0 ∧
        t.bist.failures = s.bist.failures ∧ t.dram = s.dram) ∧
    (field f.payload 0 1 = 2 → s.bist.state = 1 →
      ∃ t, exec (.bistAbort p f) s = .next t ∧ Answered f 0x01 [] t ∧ t.bist.state = 3) ∧
    (field f.payload 0 1 = 2 → s.bist.state ≠ 1 →
      ∃ t, exec (.bistAbort p f) s = .next t ∧ Answered f 0x01 [] t ∧ Commanded s t)

/-- BIST_BATCH and BIST_END (R363 to R368): the lane, SRAM and SerDes tests are done with a channel or lane in one step; an array batch waits for the requests
at work on its rows, writes its marker with phase saving, runs the march, which leaves its background in the rows, goes on to restoring, and clears its marker,
its rows counted; the test ends as completed when every one is done.
What the model chose in it, not the spec: notes/assumptions/69.md. -/
def Obligations.BistRunsToItsEnd : Prop :=
  ∀ (s : State), s.bist.state = 1 → upkeepRuns s = true →
    (∀ (ch : Fin 64) (fails still : List BistFail) (items : List Nat), masked s ch.val = true → (getBist s ch.val).done = false →
      (s.bist.test.toNat ≤ 2 → (getChan s ch.val).selfRefresh = false ∧ s.retiring.contains ch.val = false) →
      (∀ form rows steps, s.bist.test = 1 → s.tank.filled = true → (getBist s ch.val).marker = none → nextBatch s ch.val = (form, rows, steps) →
        (rows = [] → ∃ t, exec (.bistBatch ch fails still items) s = .next t ∧ (getBist t ch.val).done = true ∧ t.dram = s.dram) ∧
        (rows ≠ [] → rowsBusy s ch.val rows = true → exec (.bistBatch ch fails still items) s = .next s) ∧
        (rows ≠ [] → rowsBusy s ch.val rows = false →
          ∃ t, exec (.bistBatch ch fails still items) s = .next t ∧
            (getBist t ch.val).marker = some { form := form, phase := .saving, count := rows.length, rows := rows })) ∧
      (∀ m, s.bist.test = 1 → s.tank.filled = true → (getBist s ch.val).marker = some m →
        (m.phase = .saving →
          ∃ t, exec (.bistBatch ch fails still items) s = .next t ∧ (getBist t ch.val).marker = some { m with phase := .testing } ∧
            ((∀ x ∈ m.rows, x.1 < 32 ∧ x.2 < 32768) → ∀ x ∈ m.rows, ∀ j < 16,
              lineData t (physLine ch.val x.1 x.2 j) = List.replicate 64 (background true x.2))) ∧
        (m.phase = .testing →
          ∃ t, exec (.bistBatch ch fails still items) s = .next t ∧ (getBist t ch.val).marker = some { m with phase := .restoring }) ∧
        (m.phase = .restoring →
          ∃ t, exec (.bistBatch ch fails still items) s = .next t ∧ (getBist t ch.val).marker = none ∧
            t.bist.rows = satAdd max32 s.bist.rows m.rows.length)) ∧
      (2 ≤ s.bist.test.toNat → ∃ t, exec (.bistBatch ch fails still items) s = .next t ∧ (getBist t ch.val).done = true)) ∧
    ((∀ n < 64, masked s n = true → (getBist s n).done = true) → ∃ t, exec .bistEnd s = .next t ∧ t.bist.state = 2)

/-- OTP_PROGRAM (R356), OTP_PULSE (R357) and LIFECYCLE_ADVANCE (R350): a program begins on its word; a pulse sets bits of the intended word
only, in that word only; an advance begins with the first word of its fuse group, to RETURN after the keys are zeroised.
What the model chose in it, not the spec: notes/assumptions/14.md, notes/assumptions/70.md. -/
def Obligations.OtpIsProgrammed : Prop :=
  (∀ (p : ChainPort) (f : ChainFrame) (s : State) (vddio vprog w d : Nat), Runs 0x0B p f s → w = field f.payload 0 2 →
    d = field f.payload 4 4 → w < 2048 → field f.payload 2 2 = 0 → programCondition (otpNow s) w d = none →
    suppliesOk vddio vprog = true →
    ∃ t, exec (.otpProgram p f vddio vprog) s = .next t ∧ Answered f 0x01 [] t ∧
      Commanded { s with otp := { s.otp with vddio := vddio, vprog := vprog, op := 1, result := 0, pulses := 0, word := w,
                                             data := BitVec.ofNat 32 d } } t) ∧
  (∀ (s : State) (normal low high : BitVec 39) (vddio vprog : Nat), s.otp.op = 1 → coreRuns s = true → s.tank.phase ≠ 0x10 →
    ∃ t, exec (.otpPulse normal low high vddio vprog) s = .next t ∧
      Map.get 0 s.otp.word t.otp.cells = Map.get 0 s.otp.word s.otp.cells ||| (normal &&& otpCode s.otp.data) ∧
      (∀ w, w ≠ s.otp.word → Map.get 0 w t.otp.cells = Map.get 0 w s.otp.cells) ∧
      (suppliesOk vddio vprog = true → verified normal low high s.otp.data = false → s.otp.pulses < 7 →
        t.otp.op = 1 ∧ t.otp.pulses = s.otp.pulses + 1) ∧
      (s.otp.advance = none → suppliesOk vddio vprog = true → verified normal low high s.otp.data = true →
        t.otp.op = 2 ∧ t.otp.result = 0x00) ∧
      (s.otp.advance = none → verified normal low high s.otp.data = false → suppliesOk vddio vprog = false ∨ 7 ≤ s.otp.pulses →
        t.otp.op = 2 ∧ t.otp.result = 0x43)) ∧
  (∀ (p : ChainPort) (f : ChainFrame) (s : State) (vddio vprog g : Nat), Runs 0x0C p f s → g = field f.payload 0 1 → g ≠ 0 → g ≤ 4 →
    field f.payload 1 3 = 0 → advanceCondition (otpNow s) g = none → suppliesOk vddio vprog = true →
    ∃ t, exec (.lifecycleAdvance p f vddio vprog) s = .next t ∧ Answered f 0x01 [] t ∧
      t.otp.advance = some (BitVec.ofNat 8 g, [4 * g - 3, 4 * g - 2, 4 * g - 1]) ∧ t.otp.op = 1 ∧ t.otp.word = 4 * g - 4 ∧
      t.otp.data = BitVec.ofNat 32 (fuseValue (g - 1)) ∧ t.keys = (if g = 3 then [] else s.keys) ∧ t.otp.cells = s.otp.cells)

/-- PEAK_READ (R4, R247, R306), REGISTER_WRITE and UC_PENDING_CLEAR (R339, R344, R374, R375): a READ returns the words of its block, of every block, as they
stand when the frame has been received and counted, and resets the Peak fields that it returns; a WRITE changes the writable fields that it names.
What the model chose in it, not the spec: notes/assumptions/74.md. -/
def Obligations.ObjectAccessesAct : Prop :=
  ∀ (p : ChainPort) (f : ChainFrame) (s : State), Delivered p f s →
    (∀ b, f.ftype = 1 → accessStatus s f = (0x00, some b) →
      ∃ t u pl, exec (.peakRead p f) s = .next t ∧ Answered f 0x00 pl t ∧ Links s u ∧ pl = objectRead u b f.addr.toNat (requestLength f) ∧
        (b ≠ .chain → u.churn.ceDropped = s.churn.ceDropped → pl = objectRead s b f.addr.toNat (requestLength f)) ∧
        ∀ i < 16, getLayer t i =
          if f.addr.toNat ≤ 0x40420 + 64 * i ∧ 0x40420 + 64 * i < f.addr.toNat + requestLength f then { getLayer s i with peak := none }
          else getLayer s i) ∧
    (∀ b, f.ftype = 2 → accessStatus s f = (0x00, some b) → b ≠ .staging →
      (clearsUc f = false →
        ∃ t, exec (.registerWrite p f) s = .next t ∧ Answered f 0x00 [] t ∧ t.sel = (writeWords f.addr.toNat f.payload s).sel ∧
          Commanded { s with sel := t.sel } t) ∧
      (clearsUc f = true →
        ∃ t, exec (.ucPendingClear p f) s = .next t ∧ Answered f 0x00 [] t ∧ t.churn.ucPending = false ∧
          t.churn.records = s.churn.records))

/-- UNKNOWN_COMMAND (R308, R315) and REPEATED_RESPONSE (R309): a code that no command has draws status 0x12, or 0x10 in a phase that takes no command, or 0x21
from the hardware where the core does not run, and nothing else; a request whose Sequence is in the repeat cache is not run again, and the RESPONSE kept leaves
once more with its flag.
What the model chose in it, not the spec: notes/assumptions/114.md. -/
def Obligations.UnknownAndRepeatedRunNothing : Prop :=
  ∀ (p : ChainPort) (f : ChainFrame) (s : State),
    (∀ st : Byte, f.ftype = 3 → f.code = 0 ∨ 0x0C < f.code.toNat → Delivered p f s →
      st = (if coreRuns s = false then 0x21 else if ordinaryPhase s.tank.phase then 0x12 else 0x10) →
      ∃ t, exec (.unknownCommand p f) s = .next t ∧ Commanded s t ∧ (st ≠ 0x10 → Answered f st [] t) ∧
        (broadcast f = false → (getCPort s p).queue.length < 64 → Leaves p (responseOf s f st [] (!coreRuns s)) t)) ∧
    (∀ c, Passes p f s → actedOn s f = true → cachedResponse s f.seq = some c → broadcast f = false →
      ∃ t, exec (.repeatedResponse p f) s = .next t ∧ Links s t ∧
        ((getCPort s p).queue.length < 64 → Leaves p { c with flags := c.flags ||| 0x10 } t))

/-! ### The chain link (R288 to R305, R316) -/

/-- CHAIN_LINK_UP, CHAIN_LINK_DOWN and CHAIN_LINK_RETRY (R288, R289, R299): a port comes up running continuously; going down breaks its hop and empties
its queues; an attempt is noted. The other port keeps its link.
What the model chose in it, not the spec: notes/assumptions/17.md. -/
def Obligations.ChainLinksComeAndGo : Prop :=
  ∀ (p : ChainPort) (s : State),
    ((getCPort s p).up = false → chainRuns s = true →
      (∃ t, exec (.chainLinkUp p) s = .next t ∧ (getCPort t p).up = true ∧ (getCPort t p).rx = .continuous ∧
        (getCPort t p).quiet = false ∧ (getCPort t p).driverOn = true ∧ (getCPort t p).partnerUnit = false ∧
        getCPort t (otherPort p) = getCPort s (otherPort p) ∧ t.tank = s.tank ∧ t.dram = s.dram) ∧
      exec (.chainLinkRetry p) s = .next (setCPort p { getCPort s p with retryUs := s.tank.clockUs } s)) ∧
    ((getCPort s p).up = true →
      ∃ t, exec (.chainLinkDown p) s = .next t ∧ Links s t ∧ (getCPort t p).up = false ∧ (getCPort t p).broken = true ∧
        (getCPort t p).queue = [] ∧ (getCPort t p).awaiting = [] ∧ (getCPort t (otherPort p)).up = (getCPort s (otherPort p)).up)

/-- CHAIN_FRAME_REJECT (R295) and CHAIN_FRAME_FORWARD (R296): the first failed check is counted and nothing else happens; a frame for another unit goes on
with its Hop count raised. -/
def Obligations.FramesAreRejectedOrForwarded : Prop :=
  ∀ (p : ChainPort) (s : State), canReceive (getCPort s p) = true →
    (∀ rx : RxChain,
      (rx.fcsOk = false → ∃ t, exec (.chainFrameReject p rx) s = .next t ∧ Links s t ∧ CountedOn p 0x0C s t) ∧
      (rx.fcsOk = true → (rx.macOk && rx.lengthOk) = false →
        ∃ t, exec (.chainFrameReject p rx) s = .next t ∧ Links s t ∧ CountedOn p 0x14 s t) ∧
      (rx.fcsOk = true → rx.macOk = true → rx.lengthOk = true → rx.crcOk = false →
        ∃ t, exec (.chainFrameReject p rx) s = .next t ∧ Links s t ∧ CountedOn p 0x10 s t)) ∧
    (∀ f : ChainFrame, Passes p f s → 1 ≤ f.ftype.toNat → f.ftype.toNat ≤ 5 → ownFrame s f = false → broadcast f = false →
      ¬(s.tank.addr ≠ 0 ∧ f.source.toNat = s.tank.addr.toNat) → (getCPort s (otherPort p)).up = true →
      (getCPort s (otherPort p)).queue.length < 64 →
      ∃ t, exec (.chainFrameForward p f) s = .next t ∧ Links s t ∧
        Leaves (otherPort p) { f with hops := f.hops + 1, flags := (f.flags &&& 0xDF) ||| 0x80 } t)

/-- HOP_ACK_RECEIVE and HOP_RESEND (R298, R299): an acknowledgement makes the hop work and releases its frame; the oldest frame is sent again up to three
times, and then the hop is broken. -/
def Obligations.HopsAcknowledgeAndResend : Prop :=
  ∀ (p : ChainPort) (s : State),
    (∀ f : ChainFrame, canReceive (getCPort s p) = true → f.version = 1 → f.ftype = 8 →
      ∃ t, exec (.hopAckReceive p f) s = .next t ∧ Links s t ∧ (getCPort t p).broken = false ∧
        ((getCPort s p).queue = [] → (getCPort t p).awaiting =
          (getCPort s p).awaiting.eraseP (fun a => hopKey a.frame = (f.code.toNat, f.source.toNat, f.seq.toNat)))) ∧
    (∀ (a : Awaiting) (rest : List Awaiting), (getCPort s p).awaiting = a :: rest → (getCPort s p).up = true →
      (getCPort s p).broken = false → isBeacon a.frame = false →
      (a.sends < 4 → ∃ t, exec (.hopResend p) s = .next t ∧ Links s t ∧
        (getCPort t p).awaiting = rest ++ [{ frame := { a.frame with flags := a.frame.flags ||| 0x20 }, sends := a.sends + 1 }] ∧
        (∃ w, t.chainSent = { port := p, frame := { a.frame with flags := a.frame.flags ||| 0x20 }, wire := w } :: s.chainSent ∧
          w = chainWire p (s.tank.addr.setWidth 8) { a.frame with flags := a.frame.flags ||| 0x20 })) ∧
      (4 ≤ a.sends → ∃ t, exec (.hopResend p) s = .next t ∧ Links s t ∧ (getCPort t p).broken = true))

/-- ENUMERATE, HEAD_SELF_ENUMERATE and CONFIRM (R303 to R305): a unit without an address takes the next one; one with another address notes the mismatch; a
HEAD unit that has heard none takes address 1; CONFIRM leaves the address alone and goes on with the unit's record. -/
def Obligations.UnitsTakeAddresses : Prop :=
  (∀ (f : ChainFrame) (s : State), Passes .chu f s → f.ftype = 6 →
    ¬(s.tank.addr ≠ 0 ∧ f.source.toNat = s.tank.addr.toNat) →
    ((getCPort s .chd).up = true → (getCPort s .chd).queue.length < 64) →
    ∃ t, exec (.enumerate .chu f) s = .next t ∧ t.chain.heardEnum = true ∧
      (s.tank.addr = 0 → f.hops.toNat + 1 ≤ 62 →
        t.tank = { s.tank with addr := BitVec.ofNat 6 (f.hops.toNat + 1), addrFromBmc := decide (f.source = 0) }) ∧
      (s.tank.addr ≠ 0 → s.tank.addr.toNat ≠ f.hops.toNat + 1 → t.tank = { s.tank with mismatch := true }) ∧
      (s.tank.addr ≠ 0 → s.tank.addr.toNat = f.hops.toNat + 1 → t.tank = s.tank)) ∧
  (∀ s : State, s.pins.head = true → s.chain.selfEnumDone = false → s.chain.heardEnum = false → s.tank.addr = 0 →
    (getCPort s .chu).up = true ∨ (getCPort s .chd).up = true →
    ∃ t, exec .headSelfEnumerate s = .next t ∧ t.tank = { s.tank with addr := 1, addrFromBmc := false } ∧
      t.chain.selfEnumDone = true ∧ t.chain.ownSeq = s.chain.ownSeq + 1) ∧
  (∀ (f : ChainFrame) (s : State), Passes .chd f s → f.ftype = 7 →
    ¬(s.tank.addr ≠ 0 ∧ f.source.toNat = s.tank.addr.toNat) → (getCPort s .chu).up = true → (getCPort s .chu).queue.length < 64 →
    ∃ t g, exec (.confirm .chd f) s = .next t ∧ Links s t ∧ Leaves .chu g t ∧ g.hops = f.hops + 1 ∧
      g.payload = f.payload ++ unitRecord (f.hops.toNat + 1) false s)

/-- QUIET_TURN_OFF, KEEPALIVE, WAKE_DETECT, FALSE_WAKE, BLOCK_LOCK and PARTNER_DRIVER_OFF (R289 to R291): the transmitter's driver follows the mode; the
receiver goes from listening over acquiring to locked or back. -/
def Obligations.QuietLinksSleepAndWake : Prop :=
  ∀ (p : ChainPort) (s : State),
    ((getCPort s p).up = true → (getCPort s p).queue = [] →
      exec (.quietTurnOff p) s = .next (setCPort p
        { getCPort s p with quiet := quietWanted s (getCPort s p), driverOn := !quietWanted s (getCPort s p) } s)) ∧
    ((getCPort s p).up = true → (getCPort s p).quiet = true → (getCPort s p).driverOn = false →
      ∃ t, exec (.keepalive p) s = .next t ∧ Links s t ∧ t.chain = s.chain ∧ CountedOn p 0x28 s t) ∧
    ((getCPort s p).rx = .listening →
      ∃ t, exec (.wakeDetect p) s = .next t ∧ Links s t ∧ getCPort t p = { getCPort s p with rx := .acquiring } ∧ CountedOn p 0x2C s t) ∧
    ((getCPort s p).rx = .acquiring →
      (∃ t, exec (.falseWake p) s = .next t ∧ Links s t ∧ getCPort t p = { getCPort s p with rx := .listening } ∧ CountedOn p 0x30 s t) ∧
      ∃ t, exec (.blockLock p) s = .next t ∧ (getCPort t p).rx = .locked ∧ (getCPort t p).queue = (getCPort s p).queue ∧
        t.tank = s.tank) ∧
    ((getCPort s p).up = true → (getCPort s p).partnerUnit = true → (getCPort s p).rx = .locked ∨ (getCPort s p).rx = .continuous →
      exec (.partnerDriverOff p) s = .next (setCPort p { getCPort s p with rx := .listening } s))

/-- BEACON (R316), the row of the moment that comes every 1 ms: in safe state of either severity the chain-port hardware sends an EVENT with Destination 0, the
causing kind, Object address 0x0000_8000 and bytes 0 to 63 of the black box out of every chain port that is up and has room, whatever the plan's chain options;
it is not counted against EVENT limit, waits for its hop acknowledgement, and is never sent again. -/
def Obligations.BeaconsShowTheBlackBox : Prop :=
  (∀ s : State, safePhase s.tank.phase = true →
    ∃ t f, exec .beacon s = .next t ∧ t.chain.ownSeq = s.chain.ownSeq + 1 ∧ t.tank = s.tank ∧ f.ftype = 5 ∧ f.dest = 0 ∧ f.seq = s.chain.ownSeq ∧
      f.addr = 0x00008000 ∧ f.payload = blackBoxHead s ∧ f.payload = (blackBox s).take 64 ∧ (∀ m, s.churn.causeMsg = some m → f.code = m.kind) ∧
      t.chain.eventCount = s.chain.eventCount ∧ t.chain.eventSecond = s.chain.eventSecond ∧
      ∀ p, (getCPort s p).up = true → (getCPort s p).queue.length < 64 → Leaves p f t ∧
        ((getCPort s p).queue = [] → (getCPort s p).awaiting.length < 16 → ∃ w ∈ (getCPort t p).awaiting, w.frame = f)) ∧
  ∀ (p : ChainPort) (s : State) (w : Awaiting) (rest : List Awaiting), (getCPort s p).awaiting = w :: rest → isBeacon w.frame = true →
    (getCPort s p).queue = [] → ∃ t, exec (.hopResend p) s = .next t ∧ t.chainSent = s.chainSent ∧ (getCPort t p).awaiting = rest

/-! ### Faults and the journal (R10, R319 to R347) -/

/-- FAULT_MESSAGE (R334, R336, R340, R342, R345): the message taken stands in the fault log under the next number; UC sets UC pending; stop severity
latches safe state and lock severity locks the device with its keys zeroised. -/
def Obligations.FaultMessagesAreTaken : Prop :=
  ∀ (s : State) (m : FaultMsg), s.pins.porN = true → nextMessage s = some m →
    ∃ t r, exec .faultMessage s = .next t ∧ t.churn.next = s.churn.next + 1 ∧
      Map.get FaultRecord.zero (s.churn.next.toNat % 1024) t.churn.records = r ∧ r.msg = m ∧ r.valid = true ∧ r.number = s.churn.next ∧
      r.minute = (stamp s).1 ∧ r.usec = (stamp s).2 ∧ r.phase = s.tank.phase ∧
      (m.cls = 1 → t.churn.ucPending = true) ∧ (m.severity = 0 → t.tank = s.tank) ∧
      (m.severity = 1 → t.tank.stopLatch = 7 ∧
        (s.tank.drain = none → s.tank.phase ≠ 0xF0 → s.tank.phase ≠ 0xF1 → t.tank.phase = 0xF0)) ∧
      (m.severity = 2 → t.tank.phase = 0xF1 ∧ t.tank.lockLatch = 7 ∧ t.tank.coreHeld = true ∧ t.keys = [] ∧ t.dram = s.dram)

/-- CHURN_FAULT (R343), HANDSHAKE_TIMEOUT (R10, R333), HEARTBEAT and WATCHDOG_EXPIRY (R341): a fault of the Churn locks the device; a stuck crossing between
units that the list of sources names raises kind 0x61; a heartbeat is noted; a core without one is held with kind 0x64.
What the model chose in it, not the spec: notes/assumptions/65.md. -/
def Obligations.CoreAndChurnAreWatched : Prop :=
  ∀ s : State,
    (s.pins.porN = true →
      (∀ (c : ChurnCause) (ok : Bool), ∃ t, exec (.churnFault c ok) s = .next t ∧ t.tank.phase = 0xF1 ∧ t.tank.lockLatch = 7 ∧
        t.churn.safe = 2 ∧ t.keys = [] ∧ (ok = false → t.churn.cause = 0xFFFFFFFF) ∧ t.dram = s.dram) ∧
      (∀ a b : BitVec 12, sourceAssigned a = true → sourceAssigned b = true → b ≠ 0x0F0 → exec (.handshakeTimeout a b) s = .next (pushMsg
        { source := a, kind := 0x61, cls := 2, severity := 1, addr := b.setWidth 36, ownEntry := false, detail := 0 } s)) ∧
      ∀ a b : BitVec 12, sourceAssigned a = false ∨ sourceAssigned b = false → exec (.handshakeTimeout a b) s = .next s) ∧
    (coreRuns s = true → exec .heartbeat s = .next { s with tank := { s.tank with heartbeatUs := 0 } }) ∧
    (coreRuns s = true → s.tank.phase ≠ 0x01 → s.tank.phase ≠ 0x10 → s.tank.phase ≠ 0xF1 →
      exec .watchdogExpiry s = .next (pushMsg
        { source := 0x080, kind := 0x64, cls := 2, severity := 1, addr := 1, ownEntry := false, detail := 0 }
        { s with tank := { s.tank with coreHeld := true } }))

/-- A message joins its source's buffer of 8; where that is full, a CE message is dropped and counted, a UC or FT message takes the place of the newest CE
message of the source, and where there is none the source stalls with it until a place frees. No UC or FT message is lost, and the 10 µs of a handshake do
not apply to the Churn's crossing, which a fault of the Churn itself governs (R335). -/
def Obligations.BuffersHoldEightMessages : Prop :=
  ∀ (m : FaultMsg) (s : State) (mine : List FaultMsg), mine = s.churn.inbox.filter (fun x => x.source = m.source) →
    (mine.length < 8 → pushMsg m s = { s with churn := { s.churn with inbox := s.churn.inbox ++ [m] } }) ∧
    (8 ≤ mine.length → m.cls = 0 →
      pushMsg m s = { s with churn := { s.churn with ceDropped := sat32 s.churn.ceDropped 1 } }) ∧
    (8 ≤ mine.length → m.cls ≠ 0 → ∀ old x new, s.churn.inbox = old ++ x :: new → x.source = m.source → x.cls = 0 →
      (∀ y ∈ new, y.source = m.source → y.cls ≠ 0) →
      pushMsg m s = { s with churn := { s.churn with inbox := old ++ new ++ [m], ceDropped := sat32 s.churn.ceDropped 1 } }) ∧
    (8 ≤ mine.length → m.cls ≠ 0 → (∀ x ∈ mine, x.cls ≠ 0) →
      pushMsg m s = { s with churn := { s.churn with stalled := s.churn.stalled ++ [m] } }) ∧
    (∀ x, x.cls ≠ 0 → x = m ∨ x ∈ s.churn.inbox ∨ x ∈ s.churn.stalled →
      x ∈ (pushMsg m s).churn.inbox ∨ x ∈ (pushMsg m s).churn.stalled) ∧
    (∀ x, s.churn.stalled.find? (fun y => y.source = m.source) = some x →
      dropMessage m s = { s with churn := { s.churn with inbox := s.churn.inbox.erase m ++ [x], stalled := s.churn.stalled.erase x } }) ∧
    (∀ sender, exec (.handshakeTimeout sender 0x0F0) s = .next s) ∧
    (∀ ok, s.pins.porN = true → ∃ t, exec (.churnFault .stalled ok) s = .next t ∧ t.tank.phase = 0xF1 ∧ t.tank.lockLatch = 7)

/-- JOURNAL_WRITE (R319 to R321): the oldest entry goes, 64 bytes, into the slot of its sequence; no other byte of memory changes. -/
def Obligations.JournalEntriesReachTheirSlots : Prop :=
  ∀ (s : State) (e : JEntry) (rest : List JEntry) (q : BitVec 64), s.journal.queue = e :: rest → e.seq = some q →
    (getChan s (q.toNat % 64)).selfRefresh = false → markedRow s (journalLine q.toNat) = false →
    ∃ t, exec .journalWrite s = .next t ∧ t.journal.written = q + 1 ∧
      lineBytes t (journalLine q.toNat) 0 64 = padTo 64 (entryBytes e) ∧
      (∀ a, a / 64 ≠ journalLine q.toNat → Map.get (fillByte a) a t.dram.data = Map.get (fillByte a) a s.dram.data) ∧
      t.tank = s.tank ∧ t.flash = s.flash

/-! ### Starts and resets (R42 to R58) -/

/-- POR_N_RISE and ISLAND_PLL_LOCK (R27, R44): the cold start begins at phase 0x01 with the start word reset, HEAD sampled, no plan and no key; what OTP and
flash hold stays. The PLLs lock and the core runs. -/
def Obligations.ColdStartBegins : Prop :=
  ∀ s : State,
    (∀ head : Bool, s.pins.porN = false → s.tank.phase ≠ 0xF1 → majority s.tank.lockLatch = false →
      ∃ t, exec (.porNRise head) s = .next t ∧ startWord t = 0x01000000 ∧ t.pins.porN = true ∧ t.pins.head = head ∧
        t.tank.addr = 0 ∧ t.tank.filled = false ∧ t.plans = .reset ∧ t.keys = [] ∧ t.regions = [] ∧ t.qps = [] ∧ t.ctr = .zero ∧
        t.journal = .reset ∧ t.churn.records = [] ∧ t.drbg.instantiated = true ∧ t.otp.cells = s.otp.cells ∧ t.flash = s.flash) ∧
    (s.pins.porN = true → s.pins.pllLocked = false → s.pins.refclkOk = true →
      exec .islandPllLock s = .next
        { s with pins := { s.pins with pllLocked := true }, tank := { s.tank with coreRunning := true, heartbeatUs := 0 } })

/-- OTP_MARGIN_READ (R44, R49, R349, R353): the OTP is read at its references, and the fuse groups give the life-cycle state: BLANK and END halt the start, the
other states go on. -/
def Obligations.OtpIsReadAtTheStart : Prop :=
  ∀ (s : State) (weak : List WeakWord), s.tank.phase = 0x01 → coreRuns s = true →
    ∃ t, exec (.otpMarginRead weak) s = .next t ∧ t.otp.read = marginRead weak s.otp.cells ∧ t.otp.live = t.otp.read ∧
      t.otp.life = BitVec.ofNat 8 (fuseState t) ∧ t.otp.cells = s.otp.cells ∧ t.dram = s.dram ∧
      (fuseState t ≠ 0 → fuseState t ≠ 4 → t.tank = { s.tank with phase := 0x02, haltReason := 0 }) ∧
      (fuseState t = 0 → s.pins.wrstUntil ≤ s.tank.clockUs → t.tank = { s.tank with phase := 0xE1, haltReason := 2 }) ∧
      (fuseState t = 4 → s.pins.wrstUntil ≤ s.tank.clockUs → t.tank = { s.tank with phase := 0xE1, haltReason := 5 })

/-- LAYER_INITIALISATION and FACTORY_AREA_CHECK (R44, R49, R55, R180, R251, R252): every channel engine is initialised; the SHA-384 of all 8 MiB of the factory area must
equal the OTP's hash, at step 7 of a cold start and at step 2 of a warm start: an area with the right hash has its tables read, and the start goes on;
another halts the start with kind 0x30 at address 0.
What the model chose in it, not the spec: notes/assumptions/7.md. -/
def Obligations.LayersAndFactoryAreaAreMadeReady : Prop :=
  ∀ s : State,
    (∀ bad : List (Fin 64 × Fin 92), s.tank.phase = 0x02 → (getChan s 0).initialised = false → s.pins.powerFail = false →
      ∃ t, exec (.layerInitialisation bad) s = .next t ∧ (∀ ch < 64, (getChan t ch).initialised = true) ∧ t.tank = s.tank ∧
        t.otp.cells = s.otp.cells ∧ t.flash = s.flash) ∧
    (factoryMatches s = true ↔ otpHash s 80 = some (sha384 (flashRead s 0 (8 * 1024 * 1024)))) ∧
    ∀ m : FaultMsg, m = { source := 0x086, kind := 0x30, cls := 1, severity := 0, addr := 0, ownEntry := false, detail := 0 } →
      (s.tank.phase = 0x02 → (getChan s 0).initialised = true → s.pins.wrstUntil ≤ s.tank.clockUs →
        ∃ t, exec .factoryAreaCheck s = .next t ∧ t.flash = s.flash ∧ t.otp.cells = s.otp.cells ∧
          (factoryMatches s = true → t.factory.checked = true ∧ t.factory.laneDelays = tableBytes s 1 12288 ∧
            t.factory.therm.length = 16 ∧ t.factory.serdes.length = 16 ∧ t.tank = { s.tank with phase := 0x03, haltReason := 0 } ∧
            t.churn = s.churn) ∧
          (factoryMatches s = false → t.tank = { s.tank with phase := 0xE1, haltReason := 1 } ∧ t.churn = (pushMsg m s).churn)) ∧
      (∀ weak, s.tank.phase = 0x11 → s.tank.drain = none → s.pins.refclkOk = true → s.pins.powerFail = false → s.tank.lastReset ≠ 0 →
        factoryMatches s = false →
        ∃ t, exec (.warmStart weak) s = .next t ∧ t.tank = { s.tank with phase := 0xE1, haltReason := 1 } ∧
          t.churn = (pushMsg m s).churn ∧ t.flash = s.flash ∧ t.otp.cells = s.otp.cells)

/-- MEMORY_FILL (R44, R46, R214): every byte of memory takes its fill value, no line is poisoned and no error stands; the BIST markers and the remap table are
empty; the Skimmer runs; the journal begins with the type 0x01 entry.
What the model chose in it, not the spec: notes/assumptions/10.md. -/
def Obligations.MemoryIsFilled : Prop :=
  ∀ s : State, s.tank.phase = 0x03 → s.pins.powerFail = false →
    ∃ t e rest, exec .memoryFill s = .next t ∧ (∀ a, Map.get (fillByte a) a t.dram.data = fillByte a) ∧ t.dram.poison = [] ∧
      t.dram.upsets = [] ∧ t.tank = { s.tank with phase := 0x04, haltReason := 0, filled := true } ∧ t.skim.running = true ∧
      t.remap = [] ∧ (∀ ch, (getBist t ch).marker = none) ∧ t.journal.queue = e :: rest ∧ e.etype = 0x01 ∧ (s.retired = 0 → e.seq = some 0) ∧ t.journal.written = 0

/-- PLAN_BANK_CHECK, PLAN_SELECTION and SERVICE_OPEN (R42, R44, R45, R47 to R49, R257, R259): a bank that fails a check is empty or invalid with its reason, an armed one that
passes takes part; with an armed bank the start goes on to phase 0x05, without one it halts in 0xE0 with Halt reason 0x03; phase 0x06
follows once the unit can set its time; the first bank, passing the checks, compatibility and admission, comes into force and its ports train, and with no bank
left the start halts; with address, time, plan and every present port's training at an outcome, service opens.
What the model chose in it, not the spec: notes/assumptions/48.md. -/
def Obligations.PlanSelectionLeadsToService : Prop :=
  ∀ s : State, s.pins.wrstUntil ≤ s.tank.clockUs → s.pins.powerFail = false →
    (s.tank.phase = 0x04 →
      ∃ t, exec .planBankCheck s = .next t ∧ t.tank.haltReason = (if armed t .a || armed t .b then 0 else 3) ∧
        t.tank.phase = (if armed t .a || armed t .b then 0x05 else 0xE0) ∧ t.flash = s.flash ∧ t.dram = s.dram ∧ ∀ j, s.plans.target = none →
          (∀ e, checkBankForm s j = .error e → (getBS t j).state = (if e.1 = 1 then 0 else 1) ∧ (getBS t j).reason = BitVec.ofNat 8 e.1 ∧
            (getBS t j).detail = BitVec.ofNat 32 e.2) ∧
          (∀ l, checkBankForm s j = .ok l → armWord s j = 0x5A5A5A5A → (getBS t j).state = 6)) ∧
    (s.tank.phase = 0x05 → timeReady s = true →
      exec .planSelection s = .next { s with tank := { s.tank with phase := 0x06, haltReason := 0 } }) ∧
    (s.tank.phase = 0x06 → bankOrder s = [] →
      ∃ t, exec .planSelection s = .next t ∧ t.tank = { s.tank with phase := 0xE0, haltReason := 3 }) ∧
    (∀ k rest p now, s.tank.phase = 0x06 → bankOrder s = k :: rest → checkBank s k = .ok p →
      now = (if s.tank.anchored then s.tank.minute.toNat else p.autoStart.toNat) → p.adoptAt.toNat ≤ now ∨ s.plans.forced = some k →
      compat s p now true = none → admission p s.retired = none →
      ∃ t, exec .planSelection s = .next t ∧ t.tank.phase = 0x07 ∧ t.tank.anchored = true ∧ t.plans.plan = some p ∧
        t.plans.inForce = some k ∧ (getBS t k).state = 5 ∧ t.otp.cells = s.otp.cells ∧
        ∀ q < 16, (getPort t q).present = portPresent t q ∧ (getPort t q).training = portPresent t q ∧ (getPort t q).up = false) ∧
    (s.tank.phase = 0x07 → s.tank.addr ≠ 0 → s.tank.anchored = true → s.plans.plan.isSome = true →
      (∀ p < 16, (getPort s p).present = true → (getPort s p).trained = true) →
      ∃ t, exec .serviceOpen s = .next t ∧ t.tank = { s.tank with phase := 0x08, haltReason := 0 } ∧ t.regions = s.regions ∧
        t.dram = s.dram ∧ t.plans = s.plans)

/-- CHANNEL_SELF_REFRESH_ACK and DRAIN_TIMEOUT (R52, R53, R340): a channel completes its writes; with none left it enters self-refresh and acknowledges, and with
some left it does not; after 2.0 µs the others are forced, and what their pending-write lists hold is torn. The core stops for a warm reset.
What the model chose in it, not the spec: notes/assumptions/46.md. -/
def Obligations.DrainsEnd : Prop :=
  ∀ (s : State) (d : Drain), s.tank.drain = some d → d.timedOut = false →
    (∀ (ch : Fin 64) (u : State), d.acked.getLsbD ch.val = false → u = finishChannel ch.val s →
      (writesLeft u ch.val = false →
        ∃ t, exec (.channelSelfRefreshAck ch) s = .next t ∧ (getChan t ch.val).selfRefresh = true ∧ t.dram = u.dram ∧
          (d.cause ≠ .stop → t.tank = { u.tank with drain := some { d with acked := d.acked ||| (1#64 <<< ch.val) } })) ∧
      (writesLeft u ch.val = true → exec (.channelSelfRefreshAck ch) s = .next u)) ∧
    (∃ t, exec .drainTimeout s = .next t ∧ (∀ ch < 64, d.acked.getLsbD ch = false → (getChan t ch).selfRefresh = true) ∧
      (∀ e ∈ s.tank.pendingWrites, e.1 < 64 → d.acked.getLsbD e.1 = false → e ∈ t.tank.torn) ∧ t.dram = s.dram ∧ t.keys = s.keys ∧
      (d.cause ≠ .stop → t.tank.coreRunning = false ∧ t.tank.drain = some { d with timedOut := true } ∧ t.path = .empty) ∧
      (d.cause = .stop → d.wrstAfter = false → t.tank.drain = none ∧ t.tank.coreRunning = s.tank.coreRunning ∧ t.path = .empty))

/-- WARM_START (R53 to R56, R58): once the drain is over and WRST_N is high again the warm start begins in phase 0x11 with the QPs gone and the OTP read again; a
device that was never filled takes the cold steps from phase 0x02; BLANK and END halt it. A stop fault that came during the drain is entered instead. A
factory area that fails its check halts the start in 0xE1; with a good one a device still too hot goes back to safe state, and another ends its BIST batches,
poisons its torn lines with kind 0x70, records the type 0x02 entry, and puts the first armed bank that passes back into force, at phase 0x07, or halts in 0xE0.
What the model chose in it, not the spec: notes/assumptions/47.md, notes/assumptions/48.md. -/
def Obligations.WarmStartFollowsTheDrain : Prop :=
  ∀ (s : State) (weak : List WeakWord), s.pins.refclkOk = true → s.pins.powerFail = false →
    (∀ d, s.tank.drain = some d → s.tank.phase = 0x10 → drainOver d = true → s.pins.wrstUntil ≤ s.tank.clockUs →
      (d.stopAfter = false →
        ∃ t, exec (.warmStart weak) s = .next t ∧ t.qps = [] ∧ t.tank.drain = none ∧ t.tank.stopLatch = 0 ∧
          t.otp.cells = s.otp.cells ∧ t.flash = s.flash ∧ t.otp.read = marginRead weak s.otp.cells ∧
          t.otp.life = BitVec.ofNat 8 (fuseState t) ∧ (s.tank.filled = true → t.dram = s.dram ∧ t.keys = s.keys) ∧
          (fuseState t ≠ 0 → fuseState t ≠ 4 → t.tank.phase = (if s.tank.filled then 0x11 else 0x02)) ∧
          (fuseState t = 0 → t.tank.phase = 0xE1 ∧ t.tank.haltReason = 2) ∧
          (fuseState t = 4 → t.tank.phase = 0xE1 ∧ t.tank.haltReason = 5)) ∧
      (d.stopAfter = true →
        exec (.warmStart weak) s = .next
          { s with tank := { s.tank with phase := 0xF0, drain := none, coreRunning := true, heartbeatUs := 0 } })) ∧
    (s.tank.drain = none → s.tank.phase = 0x11 → factoryMatches s = false → s.tank.lastReset ≠ 0 →
      ∃ t, exec (.warmStart weak) s = .next t ∧ t.tank = { s.tank with phase := 0xE1, haltReason := 1 } ∧ t.dram = s.dram) ∧
    (s.tank.drain = none → s.tank.phase = 0x11 → factoryMatches s = true →
      (s.thermal.recheck = true → atThreshold s = true →
        ∃ t, exec (.warmStart weak) s = .next t ∧ t.tank = { s.tank with phase := 0xF0, stopLatch := 7 } ∧ t.dram = s.dram) ∧
      (s.thermal.recheck = false ∨ atThreshold s = false →
        ∃ t u, exec (.warmStart weak) s = .next t ∧ t = (if u.tank.phase = 0x11 then selectWarm u else u) ∧
          (∀ ch, (getBist u ch).marker = none) ∧ u.tank.torn = [] ∧ u.tank.tornMeta = [] ∧ u.tank.tornSystem = [] ∧
          (s.tank.filled = true → u.tank.phase = 0x11 → ∃ e ∈ u.journal.queue, e.etype = 0x02))) ∧
    (∀ e ∈ s.tank.torn,
      (∃ m, (m ∈ (tearLines s).churn.inbox ∨ m ∈ (tearLines s).churn.stalled) ∧ m.kind = 0x70 ∧ m.addr = BitVec.ofNat 36 e.2) ∧
      (isRetired s (homeOf s e.2).1 = false → s.tank.tornSystem = [] →
        isPoisoned (tearLines s) (dataHome s (homeOf s e.2).1 (homeOf s e.2).2) = true)) ∧
    ∀ w : State, w = checkAtWarm .b (checkAtWarm .a s) →
      (armed w .a = false → armed w .b = false → w.tank.lastReset ≠ 0 → (selectWarm s).tank = { w.tank with phase := 0xE0, haltReason := 3 }) ∧
      (∀ (k : Bank) (rest : List Bank) (p : Plan) (r : List (Nat × List Byte) × State), armed w k = true → w.tank.anchored = true →
        w.plans.plan.isSome = true → bankOrder w = k :: rest → checkBank w k = .ok p →
        p.adoptAt.toNat ≤ w.tank.minute.toNat ∨ w.plans.forced = some k → r = readRecords w →
        compat (viewOf r.1 r.2) p w.tank.minute.toNat true = none → admission p r.2.retired = none →
        (selectWarm s).tank.phase = 0x07 ∧
          (w.tank.roundMinute = w.tank.minute → (selectWarm s).plans.plan = some p ∧ (selectWarm s).plans.inForce = some k))

/-- POR_N_FALL and SUPPLY_REMOVAL (R34, R44, R57, R347): a low of POR_N that is seen resets the device, and so does the loss of VDDK; OTP and flash keep what they hold;
lock-severity safe state is left by the supply alone.
What the model chose in it, not the spec: notes/assumptions/12.md, notes/assumptions/45.md, notes/assumptions/97.md. -/
def Obligations.ColdResetsKeepOtpAndFlash : Prop :=
  ∀ s : State,
    (∀ us, s.pins.porN = true → 10 ≤ us → majority s.tank.lockLatch = false →
      ∃ t, exec (.porNFall us) s = .next t ∧ t.pins.porN = false ∧ t.tank.phase = 0x01 ∧ t.tank.filled = false ∧ t.keys = [] ∧
        t.plans = .reset ∧ t.dram.data = [] ∧ t.otp.cells = s.otp.cells ∧ t.flash = s.flash) ∧
    (∀ us, s.pins.porN = true → 10 ≤ us → majority s.tank.lockLatch = true →
      ∃ t, exec (.porNFall us) s = .next t ∧ t.tank = s.tank ∧ t.churn = s.churn ∧ t.pins.porN = false) ∧
    (∀ us, us ≤ 1 → exec (.porNFall us) s = .next s) ∧
    (∃ t, exec .supplyRemoval s = .next t ∧ t.tank.phase = 0x01 ∧ t.tank.lockLatch = 0 ∧ t.pins.up = 0 ∧ t.pins.porN = false ∧
      t.keys = [] ∧ t.dram.data = [] ∧ t.otp.cells = s.otp.cells ∧ t.flash = s.flash)

/-! ### Supplies and REFCLK (R28 to R38) -/

/-- SUPPLY_OUT_OF_WINDOW, SUPPLY_SEQUENCE_VIOLATION and REFCLK_OFF_FREQUENCY (R36, R37): each, where its condition holds, raises its kind from source 0x0FF with event,
layer and rail in the address; before POR_N rises a sequence violation latches the lock itself.
What the model chose in it, not the spec: notes/assumptions/43.md. -/
def Obligations.MonitorMessagesCarryTheirCodes : Prop :=
  ∀ s : State,
    (∀ (r : Rail) (high : Bool) (ns : Nat), 20 ≤ ns → s.pins.pwrOk = true → railBit s.pins.up .vddk = true →
      exec (.supplyOutOfWindow r none high ns) s = .next (pushMsg
        { source := 0x0FF, kind := 0x50, cls := 1, severity := 0,
          addr := BitVec.ofNat 36 ((if high then 1 else 0) * 256 + railCode r), ownEntry := false, detail := 0 } s)) ∧
    (∀ (r : Rail) (l : Fin 16) (high : Bool) (ns : Nat), 20 ≤ ns → r = .vdda ∨ r = .vpp → high = false ∨ s.pins.pwrOk = true →
      railBit s.pins.up .vddk = true →
      exec (.supplyOutOfWindow r (some l) high ns) s = .next (pushMsg
        { source := 0x0FF, kind := 0x50, cls := 1, severity := 0,
          addr := BitVec.ofNat 36 ((if high then 1 else 0) * 256 + l.val * 16 + railCode r), ownEntry := false, detail := 0 } s)) ∧
    (∀ (e : SeqEvent) (r : Rail), eventHolds e r s = true →
      ∃ t, exec (.supplySequenceViolation e r) s = .next t ∧
        t.tank = (if s.pins.porN then s.tank else { s.tank with lockLatch := 7 }) ∧
        Messages { s with tank := t.tank } t ∧
        ((s.churn.inbox.filter (fun x => x.source = 0x0FF)).length < 8 → t.churn.inbox = s.churn.inbox ++ [
          { source := 0x0FF, kind := 0x51, cls := 2, severity := 2, addr := BitVec.ofNat 36 (seqCode e * 256 + railCode r),
            ownEntry := false, detail := 0 }])) ∧
    (s.pins.porN = true → s.pins.refclkOk = true →
      exec .refclkOffFrequency s = .next (pushMsg
        { source := 0x0FF, kind := 0x52, cls := 2, severity := 1, addr := 0x70C, ownEntry := false, detail := 0 }
        { s with pins := { s.pins with refclkHold := true } }))

/-- REFCLK_STOPPED and REFCLK_RESTORED (R36, R38): without REFCLK the core stops, device time is unsynchronised, both chain ports are down and kind 0x52 is raised; with it, and WRST_N
high, the PLLs lock and the core runs again.
What the model chose in it, not the spec: notes/assumptions/42.md. -/
def Obligations.RefclkStopsAndComesBack : Prop :=
  ∀ s : State, s.pins.porN = true →
    (s.pins.refclkOk = true →
      ∃ t, exec .refclkStopped s = .next t ∧ t.pins = { s.pins with refclkOk := false, refclkHold := true, pllLocked := false } ∧
        t.tank = { s.tank with unsync := true, coreRunning := false } ∧ (getCPort t .chu).up = false ∧ (getCPort t .chd).up = false ∧
        t.dram = s.dram ∧ t.ctr = s.ctr ∧ t.chainSent = s.chainSent ∧
        ∀ m : FaultMsg, m = { source := 0x0FF, kind := 0x52, cls := 2, severity := 1, addr := 0x60C, ownEntry := false, detail := 0 } →
          (m ∈ t.churn.inbox ∨ m ∈ t.churn.stalled) ∧
            ((s.churn.inbox.filter (fun x => x.source = 0x0FF)).length < 8 → m ∈ t.churn.inbox)) ∧
    (s.pins.refclkHold = true → s.pins.wrstUntil ≤ s.tank.clockUs →
      ∃ t, exec .refclkRestored s = .next t ∧ t.pins = { s.pins with refclkOk := true, refclkHold := false, pllLocked := true } ∧
        t.tank.coreRunning = (s.tank.coreRunning || !s.pins.refclkOk) ∧ t.dram = s.dram ∧ t.churn = s.churn ∧ t.chain = s.chain)

/-- RAIL_UP, PWR_OK_RISE and PWR_OK_FALL (R31, R35, R36): a rail starts and, at 90 % of nominal, is up; with VDDK up, a rail that starts before those of an earlier
step latches the lock while POR_N is low; a rail that goes down with PWR_OK low is neither up nor started; PWR_OK rising is noted; PWR_OK falling raises kind 0x50,
writes the type 0x03 entry while the rails hold, puts every initialised channel into self-refresh, empties the memory path and idles the ports, and the device keeps
power failure until a cold reset.
What the model chose in it, not the spec: notes/assumptions/43.md, notes/assumptions/44.md. -/
def Obligations.PowerComesAndGoes : Prop :=
  ∀ s : State,
    (∀ (r : Rail) (full : Bool), ∃ t, exec (.railUp r full) s = .next t ∧ railBit t.pins.started r = true ∧
      (full = true → railBit t.pins.up r = true) ∧ t.dram = s.dram ∧
      (railBit s.pins.up .vddk = true → railBit s.pins.started r = false → earlierUp s.pins.up r = false → s.pins.porN = false →
        t.tank.lockLatch = 7)) ∧
    (∀ (r : Rail) (ns : Nat), 20 ≤ ns → s.pins.pwrOk = false → railBit s.pins.up .vddk = true → r ≠ .vddk →
      ∃ t, exec (.supplyOutOfWindow r none false ns) s = .next t ∧ railBit t.pins.up r = false ∧ railBit t.pins.started r = false ∧
        t.dram = s.dram ∧ t.tank = s.tank ∧ t.churn = s.churn) ∧
    exec .pwrOkRise s = .next { s with pins := { s.pins with pwrOk := true } } ∧
    (∀ (rails : Byte) (stable : Bool), s.pins.pwrOk = true → s.pins.porN = true →
      ∃ t, exec (.pwrOkFall rails stable) s = .next t ∧ t.pins = { s.pins with pwrOk := false, powerFail := true } ∧ t.path = .empty ∧
        (∀ ch < 64, (getChan t ch).initialised = (getChan s ch).initialised ∧
          ((getChan s ch).initialised = true → (getChan t ch).selfRefresh = true)) ∧
        (∀ q, (getPort t q).up = false) ∧ t.tank = s.tank ∧ t.keys = s.keys ∧ t.flash = s.flash ∧
        (∀ m : FaultMsg, m = { source := 0x0FF, kind := 0x50, cls := 1, severity := 0, addr := 0x40F, ownEntry := false, detail := 0 } →
          (m ∈ t.churn.inbox ∨ m ∈ t.churn.stalled) ∧
            ((s.churn.inbox.filter (fun x => x.source = 0x0FF)).length < 8 → m ∈ t.churn.inbox)) ∧
        (stable = false → t.dram = s.dram ∧ t.journal = s.journal) ∧
        ∀ q : BitVec 64, stable = true → s.tank.filled = true → s.journal.queue = [] → q = skipRetired s.retired 64 s.journal.nextSeq →
          (getChan s (q.toNat % 64)).selfRefresh = false → markedRow s (journalLine q.toNat) = false →
          t.journal.queue = [] ∧ t.journal.written = q + 1 ∧ ∃ e : JEntry, e.etype = 0x03 ∧ e.seq = some q ∧ e.args = padTo 40 [rails] ∧
            lineBytes t (journalLine q.toNat) 0 64 = padTo 64 (entryBytes e))

/-! ### The data ports (R59 to R81) -/

/-- LINK_TRAINING_COMPLETE, PORT_JOIN_SET, PORT_RETRAIN, PORT_DOWN and FEC_THRESHOLD (R44, R64 to R66, R75, R76): a trained port comes up held out, with the
coefficients of its lanes and the previous ones as their rollback sets; it joins the transmit set later; a port that fails to train stays as it was; one that goes
down drops its queue and trains again; FEC trouble holds a port out.
What the model chose in it, not the spec: notes/assumptions/90.md. -/
def Obligations.PortsTrainAndRejoin : Prop :=
  ∀ (port : Fin 16) (s : State) (p : Nat), p = port.val →
    ((getPort s p).present = true → (getPort s p).training = true → s.pins.powerFail = false → ∀ sets : List (List Byte),
      (∃ t, exec (.linkTrainingComplete port true sets) s = .next t ∧ (getPort t p).up = true ∧ (getPort t p).heldOut = true ∧
        (getPort t p).trained = true ∧ (getPort t p).training = false ∧ t.tank = s.tank ∧ t.dram = s.dram ∧
        ∀ i < (portLanes (quadMode s (p / 4)).1 p).length, (getLane t (p + i)).coeffs = (sets[i]?).getD [] ∧
          (getLane t (p + i)).rollback = (getLane s (p + i)).coeffs ∧ (getLane t (p + i)).locked = true) ∧
      ∃ t, exec (.linkTrainingComplete port false sets) s = .next t ∧ (getPort t p).trained = true ∧ (getPort t p).training = false ∧
        (getPort t p).up = (getPort s p).up ∧ Messages (setPort p (getPort t p) s) t) ∧
    ((getPort s p).up = true → (getPort s p).heldOut = true →
      ∃ t, exec (.portJoinSet port) s = .next t ∧ (getPort t p).heldOut = false ∧ (getPort t p).everDown = false ∧
        (getPort t p).up = true ∧ t.tank = s.tank ∧ t.dram = s.dram) ∧
    ((getPort s p).present = true → (getPort s p).up = false → (getPort s p).training = false → s.pins.powerFail = false →
      s.tank.phase = 0x07 ∨ s.tank.phase = 0x08 →
      exec (.portRetrain port) s = .next (setPort p { getPort s p with training := true } s)) ∧
    ((getPort s p).up = true →
      (∃ t, exec (.portDown port) s = .next t ∧ (getPort t p).up = false ∧ (getPort t p).trained = false ∧
        (getPort t p).training = true ∧ (getPort t p).everDown = true ∧ (getPort t p).queue = [] ∧ PortCounted p 22 1 s t ∧
        t.tank = s.tank ∧ t.dram = s.dram) ∧
      ∃ t, exec (.fecThreshold port) s = .next t ∧ (getPort t p).up = true ∧ (getPort t p).heldOut = true ∧ t.tank = s.tank ∧
        t.dram = s.dram)

/-- DATA_FRAME_RECEIVE (R62, R68, R69, R73, R84, R100): a frame that fails a check is counted for it and nothing else happens; a RoCEv2 frame takes its length of its
priority's buffer or is dropped and counted; another takes a token and its place in its quad's reserve for the slow path, or is dropped and counted; an MRA and a
frame that the slow path does not know take the token alone, a header error counted where a packet to QP1 shows another transport version or P_Key.
What the model chose in it, not the spec: notes/assumptions/31.md, notes/assumptions/101.md. -/
def Obligations.DataFramesTakeTheirPlace : Prop :=
  ∀ (port : Fin 16) (f : DataFrame) (s : State) (i : Iface) (p : Nat), p = port.val → ifaceOf s (p / 4) = some i →
    (getPort s p).up = true →
    (∀ n, acceptance i f = some n → ∃ t, exec (.dataFrameReceive port f) s = .next t ∧ PortCounts s t ∧ PortCounted p n 1 s t) ∧
    (acceptance i f = none → f.ethertype ≠ 0x0806 → f.ethertype ≠ 0x8808 → f.ipNext = 17 → f.udpPort = 4791 → f.destQp ≠ 1 →
      (FitsBuffer s p (framePriority i f) f.length →
        ∃ t, exec (.dataFrameReceive port f) s = .next t ∧ Sends s t ∧ PortCounted p 4 1 s t ∧
          Map.get 0 (framePriority i f) (getPort t p).use = Map.get 0 (framePriority i f) (getPort s p).use + f.length) ∧
      (¬FitsBuffer s p (framePriority i f) f.length →
        ∃ t, exec (.dataFrameReceive port f) s = .next t ∧ PortCounts s t ∧ PortCounted p 4 1 s t ∧ PortCounted p 9 1 s t)) ∧
    (acceptance i f = none → f.ethertype = 0x8808 → ∃ t, exec (.dataFrameReceive port f) s = .next t ∧ PortCounts s t) ∧
    (acceptance i f = none → f.ethertype ≠ 0x8808 →
      f.ethertype = 0x0806 ∨ f.ipNext ≠ 17 ∨ f.udpPort ≠ 4791 ∨ f.destQp = 1 →
      (s.slow.tokens ≠ 0 → reserveUse s (p / 4) + f.length ≤ 65536 →
        (f.slowKind ≠ .other → f.slowKind ≠ .mra →
          ∃ t, exec (.dataFrameReceive port f) s = .next t ∧ PortCounted p 10 1 s t ∧
            PortCounts { s with slow := { s.slow with tokens := s.slow.tokens - 1, reserve := s.slow.reserve ++ [(p / 4, f.length)] } } t) ∧
        (f.slowKind = .other ∨ f.slowKind = .mra →
          ∃ t, exec (.dataFrameReceive port f) s = .next t ∧ PortCounted p 10 1 s t ∧
            (isQp1 f = true → f.tver ≠ 0 ∨ f.pkey ≠ 0xFFFF → PortCounted p 25 1 s t) ∧
            (isQp1 f = false ∨ (f.tver = 0 ∧ f.pkey = 0xFFFF) → f.slowKind = .other → PortCounted p 12 1 s t) ∧
            PortCounts { s with slow := { s.slow with tokens := s.slow.tokens - 1 } } t)) ∧
      (s.slow.tokens = 0 ∨ 65536 < reserveUse s (p / 4) + f.length →
        ∃ t, exec (.dataFrameReceive port f) s = .next t ∧ PortCounts s t ∧ PortCounted p 11 1 s t))

/-- PFC_RECEIVE, PFC_PAUSE_EXPIRY, PFC_WATCHDOG, PFC_XOFF_REPEAT and PFC_XON (R69, R70, R192): each enabled priority is paused by its quanta and resumed by quanta 0,
when its queued frames leave a port that can send; the watchdog discards and counts them; XOFF is repeated while the use stays high, and ends with quanta 0. The
bytes that requests waiting for a class queue hold are not freed.
What the model chose in it, not the spec: notes/assumptions/88.md, notes/assumptions/99.md. -/
def Obligations.PausesHoldPriorities : Prop :=
  ∀ (port : Fin 16) (s : State) (p : Nat) (i : Iface), p = port.val → ifaceOf s (p / 4) = some i →
    (∀ (enable : Byte) (quanta : List W16), (getPort s p).up = true →
      ∃ t, exec (.pfcReceive port enable quanta) s = .next t ∧ Flushes s t ∧ PortCounted p 18 1 s t ∧ ∀ b < 8,
        (enable.getLsbD b = false → (getPort t p).paused.getLsbD b = (getPort s p).paused.getLsbD b) ∧
        (enable.getLsbD b = true → (quanta[b]?).getD 0 ≠ 0 → (getPort t p).paused.getLsbD b = true) ∧
        (enable.getLsbD b = true → (quanta[b]?).getD 0 = 0 → (getPort t p).paused.getLsbD b = false ∧ (silent s p = false →
          ∀ e ∈ (getPort s p).queue, e.1 = b → (p, sentFrame i b (withFcs e.2)) ∈ t.dataSent))) ∧
    ∀ b : Fin 8,
      (∃ t, exec (.pfcPauseExpiry port b) s = .next t ∧ Flushes s t ∧ (getPort t p).paused.getLsbD b.val = false ∧
        (silent s p = false →
          (∀ e ∈ (getPort s p).queue, e.1 = b.val → (p, sentFrame i b.val (withFcs e.2)) ∈ t.dataSent) ∧
          (getPort t p).queue = (getPort s p).queue.filter (fun e => e.1 ≠ b.val))) ∧
      ((getPort s p).paused.getLsbD b.val = true →
        ∃ t, exec (.pfcWatchdog port b) s = .next t ∧ Sends s t ∧ (getPort t p).discarding.getLsbD b.val = true ∧
          (getPort t p).queue = (getPort s p).queue.filter (fun e => e.1 ≠ b.val) ∧
          PortCounted p 21 ((getPort s p).queue.filter (fun e => e.1 = b.val)).length s t) ∧
      ((getPort s p).pausing.getLsbD b.val = true → xoffShare s (p / 4) ≤ Map.get 0 b.val (getPort s p).use + 8704 → silent s p = false →
        ∃ t, exec (.pfcXoffRepeat port b) s = .next t ∧ PortCounted p 19 1 s t ∧
          PortCounts { s with dataSent := (p, sentFrame i b.val (.pfc b.val 0xFFFF)) :: s.dataSent } t) ∧
      (∀ freed use u : Nat, use = Map.get 0 b.val (getPort s p).use → u = max (use - freed) (min use (heldBytes s p b.val)) →
        ∃ t, exec (.pfcXon port b freed) s = .next t ∧ Sends s t ∧ Map.get 0 b.val (getPort t p).use = u ∧
          ((getPort s p).pausing.getLsbD b.val = true → u + 8704 < xoffShare s (p / 4) → (getPort t p).pausing.getLsbD b.val = false ∧
            (silent s p = false → t.dataSent = (p, sentFrame i b.val (.pfc b.val 0)) :: s.dataSent)))

/-- ARP_REQUEST, NEIGHBOUR_SOLICITATION, ECHO_REQUEST and SLOW_PATH_TOKEN (R73): a request for the interface's own address is answered on the port it came from, at
most 1,000 echo replies per second; the frame leaves its quad's reserve, also where it is not answered; tokens come back up to 64.
What the model chose in it, not the spec: notes/assumptions/31.md, notes/assumptions/89.md, notes/assumptions/101.md. -/
def Obligations.SlowPathAnswers : Prop :=
  ∀ (port : Fin 16) (s u : State) (i : Iface) (p : Nat), p = port.val → u = takeReserve (p / 4) s →
    (coreRuns s = true → slowOpen s p = true → ifaceOf s (p / 4) = some i → s.pins.powerFail = false →
      (∀ q : AddrQuery, i.hasV4 = true → q.target = .v4 i.v4 →
        ∃ t, exec (.arpRequest port q) s = .next t ∧ Emitted p i.controlPrio i (.arpReply q.srcMac q.srcIp) u t ∧ Sends u t) ∧
      (∀ q : AddrQuery, i.hasV6 = true → q.target = .v6 i.v6 →
        ∃ t, exec (.neighbourSolicitation port q) s = .next t ∧
          Emitted p i.controlPrio i (.advertisement q.srcMac q.srcIp q.target) u t ∧ Sends u t) ∧
      (∀ (e : Echo) (n : Nat),
        n = (if s.slow.echoSecond = s.tank.clockUs / 1000000 then Map.get 0 (p / 4) s.slow.echoCount else 0) →
        (e.ipBytes ≤ 1500 → n < 1000 →
          ∃ t, exec (.echoRequest port e) s = .next t ∧ Emitted p i.controlPrio i (.echoReply e.srcMac e.srcIp e.body) u t ∧
            t.slow.reserve = u.slow.reserve ∧ t.slow.echoSecond = s.tank.clockUs / 1000000 ∧
            Map.get 0 (p / 4) t.slow.echoCount = n + 1 ∧ t.tank = s.tank) ∧
        (1500 < e.ipBytes ∨ 1000 ≤ n → exec (.echoRequest port e) s = .next u))) ∧
    (coreRuns s = true → slowOpen s p = false →
      (∀ q, exec (.arpRequest port q) s = .next u ∧ exec (.neighbourSolicitation port q) s = .next u) ∧
      ∀ e, exec (.echoRequest port e) s = .next u) ∧
    exec .slowPathToken s = .next { s with slow := { s.slow with tokens := min 64 (s.slow.tokens + 1) } }

/-- LANE_QUALITY_SAMPLE, LANE_SNR_LOW, RECAL_START, RECAL_DECISION and RECAL_RETRY (R74, R75, R77 to R80): a sample sets the figures; a low SNR places the lane at the
head of the queue; the next lane starts its attempt; the candidate is swapped in, or counted as no gain, or makes the lane marginal for 60 s.
What the model chose in it, not the spec: notes/assumptions/32.md, notes/assumptions/102.md. -/
def Obligations.LanesAreWatchedAndRecalibrated : Prop :=
  ∀ (lane : Fin 16) (s : State) (l : Nat), l = lane.val →
    (∀ m : LaneSample,
      ∃ t, exec (.laneQualitySample lane m) s = .next t ∧ t = setLane l (getLane t l) s ∧
        (getLane t l).snr = BitVec.ofNat 16 (snrOf m) ∧ (getLane t l).margin = BitVec.ofNat 8 (marginOf m) ∧
        (getLane t l).coeffs = (getLane s l).coeffs ∧ ((calibration s).2 + 5 ≤ snrOf m → (getLane s l).okSince = some 999 →
          (getLane t l).lowRaised = false)) ∧
    ((getLane s l).snr.toNat < (calibration s).2 → (getLane s l).lowRaised = false → (getPort s (lanePort s l)).up = true →
      ∃ t, exec (.laneSnrLow lane) s = .next t ∧ (getLane t l).lowRaised = true ∧ t.tank = s.tank ∧
        (laneRuns s l = true →
          t.recal = { s.recal with urgent := l :: s.recal.urgent.filter (· ≠ l), queue := s.recal.queue.filter (· ≠ l) })) ∧
    (s.tank.phase = 0x08 → s.recal.active = none → nextLane s = some l →
      ∃ t, exec .recalStart s = .next t ∧ t.recal.urgent = s.recal.urgent.filter (· ≠ l) ∧
        t.recal.queue = s.recal.queue.filter (· ≠ l) ∧ t.recal.active = some l ∧ (getLane t l).calibrating = true ∧ (getLane t l).refTemp = laneTemp s l ∧
        (getLane t l).coeffs = (getLane s l).coeffs ∧ t.ports = s.ports) ∧
    (∀ (candidate current : W16) (set : List Byte), s.recal.active = some l →
      ∃ t, exec (.recalDecision candidate current set) s = .next t ∧ t.recal = { s.recal with active := none } ∧
        (getLane t l).calibrating = false ∧
        (candidate.toNat < (calibration s).2 → (getLane t l).marginal = true ∧ (getLane t l).coeffs = (getLane s l).coeffs ∧
          (getLane t l).retryDue = some (s.tank.clockUs + 60000000)) ∧
        ((calibration s).2 ≤ candidate.toNat → candidate.toNat + 10 < current.toNat →
          (getLane t l).coeffs = (getLane s l).coeffs ∧ PortCounted (lanePort s l) 23 1 s t) ∧
        ((calibration s).2 ≤ candidate.toNat → current.toNat ≤ candidate.toNat + 10 →
          (getLane t l).coeffs = set ∧ (getLane t l).rollback = (getLane s l).coeffs ∧ (getLane t l).marginal = false)) ∧
    ((getLane s l).marginal = true → (getLane s l).retryDue ≠ none →
      ∃ t, exec (.recalRetry lane) s = .next t ∧ getLane t l = getLane s l ∧ t.ports = s.ports ∧
        (mayQueue s l = true → t.recal = { s.recal with queue := s.recal.queue ++ [l] }) ∧ (mayQueue s l = false → t = s))

/-! ### The remote memory service (R71, R72, R83 to R106) -/

/-- RDMA_READ_REQUEST, RDMA_WRITE_FIRST, _MIDDLE, _LAST and _ONLY, CMPSWAP and FETCHADD (R88, R90 to R92, R94, R97): a packet is classified by its distance from the
expected PSN modulo 2^24 (R92); an expected one that passes every check moves the expected PSN on by 1, or by a READ's response packets, and its request
joins the QP's order; no byte of memory changes yet. A WRITE of no bytes is done at once; a READ or atomic that finds no read tracker is discarded and counted, and
the expected PSN stands. -/
def Obligations.RequestsAreTakenInOrder : Prop :=
  (∀ psn epsn : BitVec 24, psnClass psn epsn =
    if (psn - epsn).toNat = 0 then .expected else if (psn - epsn).toNat ≤ 2 ^ 23 - 1 then .ahead else .duplicate) ∧
  (∀ (k : Pkt) (o : ReqOp) (c : Instr) (s u : State), RequestOf k o c → packetsRun s k.port.val = true → admitPacket k s = (true, u) →
    psnClass k.psn (getQp u k.dqp).epsn = .expected → checkRequest u (getQp u k.dqp) o k false false = none →
    (o.answers = true → trackerFree u (getQp u k.dqp) = true) →
    ∃ t, exec c s = .next t ∧
      (o ≠ .read → (getQp t k.dqp).epsn = (getQp u k.dqp).epsn + 1) ∧
      (o = .read → k.dmaLen = 0 → (getQp t k.dqp).epsn = (getQp u k.dqp).epsn + 1) ∧
      (∀ mtu, o = .read → k.dmaLen ≠ 0 → mtu = mtuBytes (getQp u k.dqp).mtu.toNat →
        (getQp t k.dqp).epsn = (getQp u k.dqp).epsn + BitVec.ofNat 24 ((k.dmaLen.toNat + mtu - 1) / mtu)) ∧
      (getQp t k.dqp).seqNak = false ∧ (getQp t k.dqp).state = .established ∧
      (getQp t k.dqp).outstanding = (getQp u k.dqp).outstanding + (if o.answers then 1 else 0) ∧
      (o.answers = true → ∃ x ∈ (getQp t k.dqp).ops, x.psn = k.psn ∧ x.kind = (if o = .read then .read else .atomic)) ∧
      (o.answers = false → k.payload ≠ [] → ∃ x ∈ (getQp t k.dqp).ops, x.psn = k.psn ∧ x.kind = .write) ∧
      (o = .writeFirst → (getQp t k.dqp).writeOpen = true ∧ (getQp t k.dqp).writeRkey = k.rkey ∧
        (getQp t k.dqp).writeRemaining = k.dmaLen.toNat - k.payload.length) ∧
      (o = .writeLast → (getQp t k.dqp).writeOpen = false) ∧
      (o.answers = false → k.payload = [] → (getQp u k.dqp).ops = [] →
        (getQp t k.dqp).ops = [] ∧ (getQp t k.dqp).donePsn = k.psn ∧ (getQp t k.dqp).msn = (getQp u k.dqp).msn + 1 ∧ t.path = s.path) ∧
      t.dram = s.dram ∧ t.regions = s.regions ∧ t.keys = s.keys ∧ t.flash = s.flash) ∧
  ∀ (k : Pkt) (o : ReqOp) (c : Instr) (s u : State), RequestOf k o c → packetsRun s k.port.val = true → admitPacket k s = (true, u) →
    psnClass k.psn (getQp u k.dqp).epsn = .expected → checkRequest u (getQp u k.dqp) o k false false = none →
    o.answers = true → trackerFree u (getQp u k.dqp) = false →
    ∃ t, exec c s = .next t ∧ PortCounts u t ∧ PortCounted k.port.val 28 1 u t

/-- The checks that come first, and duplicates (R83, R90 to R94): a packet that fails checks 1 to 4 is counted and changes nothing else; one for a QP in error or disconnecting is
discarded; one ahead of its order draws one NAK; a request that fails a later check, and an unsupported opcode of the reliable-connection group, put the QP in error;
one of another group is discarded after those checks. A duplicate leaves the expected PSN: an atomic of the replay ring is answered from it, and one that is
neither there nor at work puts the QP in error; a WRITE packet is not applied again; a READ is answered anew, in the slot of its original where that is still being
answered.
What the model chose in it, not the spec: notes/assumptions/34.md, notes/assumptions/37.md. -/
def Obligations.PacketsAreCheckedInOrder : Prop :=
  ∀ (k : Pkt) (o : ReqOp) (c : Instr) (s : State) (p : Nat), RequestOf k o c → p = k.port.val → packetsRun s p = true →
    (∀ n, (k.sramBad = true ∧ n = 29) ∨ (k.sramBad = false ∧ k.icrcOk = false ∧ n = 24) ∨
      (k.sramBad = false ∧ k.icrcOk = true ∧ (k.tver ≠ 0 ∨ k.pkey ≠ 0xFFFF ∨ k.padOk = false) ∧ n = 25) ∨
      (k.sramBad = false ∧ k.icrcOk = true ∧ k.tver = 0 ∧ k.pkey = 0xFFFF ∧ k.padOk = true ∧
        ((qpnExists k.dqp = false ∨ (getQp s k.dqp).state = .free) ∧ n = 26 ∨
          qpnExists k.dqp = true ∧ ((getQp s k.dqp).state = .connecting ∨ (getQp s k.dqp).state = .established) ∧
            ((getQp s k.dqp).remote ≠ k.srcIp ∧ n = 27 ∨
              (getQp s k.dqp).remote = k.srcIp ∧ (getQp s k.dqp).iface ≠ p / 4 ∧ n = 7))) →
      ∃ t, exec c s = .next t ∧ PortCounts s t ∧ PortCounted p n 1 s t) ∧
    (k.sramBad = false → k.icrcOk = true → k.tver = 0 → k.pkey = 0xFFFF → k.padOk = true → qpnExists k.dqp = true →
      (getQp s k.dqp).state = .error ∨ (getQp s k.dqp).state = .disconnecting → exec c s = .next s) ∧
    ∀ u, admitPacket k s = (true, u) →
      (psnClass k.psn (getQp u k.dqp).epsn = .ahead → (getQp u k.dqp).seqNak = true → exec c s = .next u) ∧
      (psnClass k.psn (getQp u k.dqp).epsn = .ahead →
        ∃ t, exec c s = .next t ∧ (getQp t k.dqp).seqNak = true ∧ (getQp t k.dqp).epsn = (getQp u k.dqp).epsn ∧
          (getQp t k.dqp).state = .established ∧ t.dram = s.dram) ∧
      (∀ syn, (getQp u k.dqp).epsn = k.psn → checkRequest u (getQp u k.dqp) o k false false = some syn →
        ∃ t, exec c s = .next t ∧ (getQp t k.dqp).state = .error ∧ (getQp t k.dqp).epsn = k.psn ∧ t.dram = s.dram) ∧
      (supportedOpcode k.opcode = false → k.opcode.toNat < 0x20 → psnClass k.psn (getQp u k.dqp).epsn ≠ .ahead →
        ∃ t, exec (.unsupportedOpcode k) s = .next t ∧ (getQp t k.dqp).state = .error ∧ t.dram = s.dram) ∧
      (0x20 ≤ k.opcode.toNat → exec (.unsupportedOpcode k) s = .next u) ∧
      ∀ q : Qp, q = getQp u k.dqp → psnClass k.psn q.epsn = .duplicate →
        (∀ e, o.atomic = true → q.ring.find? (fun x => x.psn = k.psn) = some e →
          ∃ t, exec c s = .next t ∧ (getQp t k.dqp).epsn = q.epsn ∧ (getQp t k.dqp).outstanding = q.outstanding ∧
            (∃ x ∈ (getQp t k.dqp).ops, x.kind = .atomic ∧ x.psn = k.psn ∧ x.result = some e.orig ∧ x.dup = true) ∧
            t.path = u.path ∧ t.dram = u.dram) ∧
        (o.atomic = true → q.ring.find? (fun x => x.psn = k.psn) = none →
          (q.ops.any (fun x => x.kind = .atomic && x.psn = k.psn) = false →
            ∃ t, exec c s = .next t ∧ (getQp t k.dqp).state = .error ∧ t.dram = u.dram) ∧
          (q.ops.any (fun x => x.kind = .atomic && x.psn = k.psn) = true → checkRequest u q o k true true = none →
            ∃ t, exec c s = .next t ∧ getQp t k.dqp = q ∧ t.path = u.path ∧ t.dram = u.dram)) ∧
        (o.answers = false → checkRequest u q o k true false = none →
          ∃ t, exec c s = .next t ∧ (getQp t k.dqp).epsn = q.epsn ∧ (getQp t k.dqp).outstanding = q.outstanding ∧ t.path = u.path ∧
            t.dram = u.dram) ∧
        (o = .read → originalRead q k.psn = none → checkRequest u q o k true false = none →
          (trackerFree u q = true →
            ∃ t, exec c s = .next t ∧ (getQp t k.dqp).epsn = q.epsn ∧ (getQp t k.dqp).outstanding = q.outstanding + 1 ∧
              (∃ x ∈ (getQp t k.dqp).ops, x.kind = .read ∧ x.psn = k.psn ∧ x.sent = 0 ∧ x.dup = true ∧ x.lastOfMsg = false) ∧ t.dram = u.dram) ∧
          (trackerFree u q = false → ∃ t, exec c s = .next t ∧ getQp t k.dqp = q ∧ PortCounted p 28 1 u t)) ∧
        (∀ x, o = .read → originalRead q k.psn = some x → checkRequest u q o k true true = none →
          ∃ t, exec c s = .next t ∧ (getQp t k.dqp).epsn = q.epsn ∧ (getQp t k.dqp).outstanding = q.outstanding - 1 + 1 ∧
            (∃ y ∈ (getQp t k.dqp).ops, y.kind = .read ∧ y.psn = k.psn ∧ y.sent = 0 ∧ y.dup = true ∧ y.lastOfMsg = x.lastOfMsg) ∧
            t.dram = u.dram)

/-- CNP_RECEIVE, RP_ALPHA_DECAY and RP_INCREASE (R71, R72): a CNP that passes the checks is counted, and, none having been acted on for 50 µs, makes the present rate
the target, cuts the rate by half of α and raises α; without one α falls by g; the increase goes half way to the target, and raises the target after five
stages.
What the model chose in it, not the spec: notes/assumptions/33.md, notes/assumptions/100.md. -/
def Obligations.LimiterFollowsCnps : Prop :=
  (∀ (k : Pkt) (s u : State) (p : Nat) (q : Qp), p = k.port.val → packetsRun s p = true → admitPacket k s = (true, u) → q = getQp u k.dqp →
    ((∀ n, q.cnpActedAt = some n → n + 50 ≤ s.tank.clockUs) →
      ∃ t r, exec (.cnpReceive k) s = .next t ∧ PortCounts (setQp k.dqp r u) t ∧ PortCounted p 16 1 u t ∧ r.target = q.rate ∧
        r.rate = max (limiter u q).minRate (q.rate * (2048 - q.alpha.toNat) / 2048) ∧ r.stage = 0 ∧
        r.alpha = BitVec.ofNat 10 (min 0x3FF (((1024 - (limiter u q).gain) * q.alpha.toNat + (limiter u q).gain * 1024) / 1024)) ∧
        r.epsn = q.epsn ∧ r.ops = q.ops ∧ r.state = q.state) ∧
    (∀ n, q.cnpActedAt = some n → s.tank.clockUs < n + 50 →
      ∃ t, exec (.cnpReceive k) s = .next t ∧ PortCounts u t ∧ PortCounted p 16 1 u t)) ∧
  ∀ (n : BitVec 24) (s : State) (q : Qp), q = getQp s n → q.state = .established →
    exec (.rpAlphaDecay n) s = .next (setQp n
      { q with alpha := BitVec.ofNat 10 ((1024 - (limiter s q).gain) * q.alpha.toNat / 1024) } s) ∧
    ∃ t, exec (.rpIncrease n) s = .next t ∧ t = setQp n (getQp t n) s ∧
      (getQp t n).stage.toNat = min 255 (q.stage.toNat + 1) ∧
      (q.stage.toNat < 5 → (getQp t n).target = min (qpPortRate s n) q.target ∧
        (getQp t n).rate = min (qpPortRate s n) ((q.target + q.rate) / 2)) ∧
      (5 ≤ q.stage.toNat → (getQp t n).target = min (qpPortRate s n) (q.target + (limiter s q).step) ∧
        (getQp t n).rate = min (qpPortRate s n) ((q.target + (limiter s q).step + q.rate) / 2))

/-- RESPONSE_SEND and ACK_DEADLINE (R64, R70, R83, R95, R98, R99): a response packet of the READ at the head of a QP's order leaves on the QP's port, or joins the
port's queue while its priority is paused, and acknowledges what is before it; the last packet, an ATOMIC Acknowledge and a NAK for a bad line leave and give the
slot back; a pending ACK leaves at its deadline.
What the model chose in it, not the spec: notes/assumptions/35.md. -/
def Obligations.ResponsesLeaveInOrder : Prop :=
  ∀ (n : BitVec 24) (s : State) (q : Qp), q = getQp s n →
    (∀ (o : QpOp) (rest : List QpOp), q.ops = o :: rest →
      (∀ lines t, o.kind = .read → (∀ b, o.badPkt = some b → o.sent < b) → packetLines q o = some lines → exec (.responseSend n) s = .next t →
        PacketDeparts n q (fun x => x.opcode = readOpcode o.sent o.npkts ∧ x.psn = o.psn + BitVec.ofNat 24 o.sent ∧
          x.payload = (lines.map (packetBytes o)).flatten) s t) ∧
      (∀ lines, o.kind = .read → (∀ b, o.badPkt = some b → o.sent < b) → packetLines q o = some lines →
        (o.sent + 1 ≠ o.npkts →
          ∃ t, exec (.responseSend n) s = .next t ∧ (getQp t n).ops = { o with sent := o.sent + 1 } :: rest ∧
            (getQp t n).ackPsn = o.psn + BitVec.ofNat 24 o.sent ∧ (o.dup = false → (getQp t n).unacked = 0) ∧
            (getQp t n).outstanding = q.outstanding ∧ (getQp t n).state = q.state) ∧
        (o.sent + 1 = o.npkts →
          ∃ t, exec (.responseSend n) s = .next t ∧ (getQp t n).outstanding = q.outstanding - 1 ∧ (getQp t n).state = q.state)) ∧
      (∀ b, o.kind = .read → o.badPkt = some b → b ≤ o.sent →
        ∃ t, exec (.responseSend n) s = .next t ∧ (getQp t n).outstanding = q.outstanding - 1 ∧ t.dram = s.dram ∧
          PacketDeparts n q (fun x => x.opcode = 0x11 ∧ x.psn = o.psn + BitVec.ofNat 24 o.sent ∧ x.syndrome = some 0x63) s t) ∧
      (∀ v, o.kind = .atomic → o.result = some v → o.dup = false →
        ∃ t, exec (.responseSend n) s = .next t ∧ (getQp t n).outstanding = q.outstanding - 1 ∧ t.dram = s.dram ∧
          PacketDeparts n q (fun x => x.opcode = 0x12 ∧ x.psn = o.psn ∧ x.syndrome = some 0x1F ∧ x.orig = some v) s t)) ∧
    (0 < q.unacked →
      ∃ t, exec (.ackDeadline n) s = .next t ∧ Sends (setQp n { nothingDue q with ackPsn := ackPsnOf q } s) t ∧
        PacketDeparts n q (fun x => x.opcode = 0x11 ∧ x.psn = ackPsnOf q ∧ x.syndrome = some 0x1F) s t)

/-- CM_REQ, CM_RTU, CM_REJ_RECEIVE, CM_DREQ, DISCONNECT_COMPLETE, REP_TIMEOUT and QP_ERROR_TIMEOUT (R86, R87, R96, R100 to R105): a matched REQ takes a context with its fields, and the REP leaves;
RTU establishes it; REJ frees it; DREQ draws a DREP, and disconnects it or frees one in error; with its requests complete a disconnecting one is freed; the timers send the REP again or
free the context. Other contexts stay.
What the model chose in it, not the spec: notes/assumptions/39.md, notes/assumptions/92.md. -/
def Obligations.ConnectionsAreManaged : Prop :=
  (∀ (m : Mad) (s : State), coreRuns s = true → slowOpen s m.port.val = true → m.tver = 0 → m.pkey = 0xFFFF → madOk m = true → m.classVersion = 2 →
    (∀ (r : TenantRec) (n : Nat), staleContext s m = none → matchReq s m = none → tenantOf s m = some r →
      findQpn s 262144 s.qpnPtr.toNat = some n →
      ∃ t comm, exec (.cmReq m) s = .next t ∧ getQp t (BitVec.ofNat 24 n) = newContext r m comm ∧
        (∀ i, ifaceOf s (m.port.val / 4) = some i → Emitted m.port.val i.controlPrio i (repFrame (BitVec.ofNat 24 n) (newContext r m comm) s) s t) ∧
        t.qpnPtr = BitVec.ofNat 24 (nextQpn n) ∧ (∀ x, x ≠ BitVec.ofNat 24 n → getQp t x = getQp s x) ∧ t.dram = s.dram) ∧
    (∀ (n : Nat) (q : Qp), matchingContext s m = some (n, q) →
      (q.state = .connecting →
        (∃ t, exec (.cmRtu m) s = .next t ∧ (getQp t (BitVec.ofNat 24 n)).state = .established ∧
          (getQp t (BitVec.ofNat 24 n)).wasEstablished = true ∧ (∀ x, x ≠ BitVec.ofNat 24 n → getQp t x = getQp s x) ∧
          t.dram = s.dram) ∧
        ∃ t, exec (.cmRejReceive m) s = .next t ∧ getQp t (BitVec.ofNat 24 n) = Qp.zero ∧
          (∀ x, x ≠ BitVec.ofNat 24 n → getQp t x = getQp s x) ∧ t.dram = s.dram) ∧
      ∃ t, exec (.cmDreq m) s = .next t ∧
        (∀ i, ifaceOf s (m.port.val / 4) = some i → Departs m.port.val i.controlPrio i (drepFrame m) s t) ∧ (q.state = .error → getQp t (BitVec.ofNat 24 n) = Qp.zero) ∧
        (q.state ≠ .error → (getQp t (BitVec.ofNat 24 n)).state = .disconnecting) ∧
        (∀ x, x ≠ BitVec.ofNat 24 n → getQp t x = getQp s x) ∧ t.dram = s.dram)) ∧
  ∀ (n : BitVec 24) (s : State) (q : Qp), q = getQp s n →
    (q.state = .disconnecting → q.ops = [] →
      ∃ t, exec (.disconnectComplete n) s = .next t ∧ getQp t n = Qp.zero ∧ (∀ x, x ≠ n → getQp t x = getQp s x) ∧ t.dram = s.dram) ∧
    (q.state = .connecting → q.repSends < 3 →
      ∃ t, exec (.repTimeout n) s = .next t ∧ Sends (setQp n { q with repSends := q.repSends + 1 } s) t ∧
        ∀ i, ifaceOf s (q.reqPort / 4) = some i → q.iface = q.reqPort / 4 → Emitted q.reqPort i.controlPrio i (repFrame n q s) s t) ∧
    (q.state = .connecting → 3 ≤ q.repSends →
      ∃ t, exec (.repTimeout n) s = .next t ∧ getQp t n = Qp.zero ∧ (∀ x, x ≠ n → getQp t x = getQp s x) ∧ t.dram = s.dram) ∧
    (q.state = .error →
      ∃ t, exec (.qpErrorTimeout n) s = .next t ∧ getQp t n = Qp.zero ∧ (∀ x, x ≠ n → getQp t x = getQp s x) ∧ t.dram = s.dram)

/-! ### The memory path (R137 to R153, R166 to R180) -/

/-- ORDERING_POINT_PASS, LINE_DECODE and TAG_CHECK (R12, R13, R98, R138, R139, R142, R144, R166, R172, R193, R209, R335): with no held write, line of an exhausted
page's move or older visit before it, the oldest head of a channel's class queues passes: a READ of a fresh page is staged as zeros; the first write to one begins its initialisation; another request takes its
bank-queue entry, and a read-modify-write locks its line. A clean burst enters the crypto lane as its column command found it; a tag that fails poisons its line,
unless a later write has taken it. A unit whose messages find their buffer full decodes and checks nothing.
What the model chose in it, not the spec: notes/assumptions/21.md. -/
def Obligations.RequestsPassTheirLines : Prop :=
  ∀ (ch : Fin 64) (s : State),
    (∀ (u : State) (cls : Fin 16) (es path : Errors) (r : LineReq) (rest : List LineReq) (w : BitVec 32) (b : Nat),
      u = noteWaiting ch.val s → classQ u ch.val cls.val = r :: rest → passHeld ch.val u = none → whenOpen u ch.val (nextMove ch.val u) = none →
      (if visitOlder u ch.val then passVisit ch.val u else none) = none →
      (∀ (c : Nat) (q : LineReq), c ≠ cls.val → (classQ u ch.val c).head? = some q → headBefore r q = true) →
      isRetired u ch.val = false → pointWaits u ch.val cls.val r = false → pageHit u (r.dma / 4096) = true →
      w = pageWord u (r.dma / 4096) → b = lineBank (reqLine u ch.val r) →
      (r.kind = .read → pwFresh w = true →
        ∃ t, exec (.orderingPointPass ch es path) s = .next t ∧ t.dram = s.dram ∧
          ∀ i o, opIndex (getQp u r.qpn) r = some i → (getQp u r.qpn).ops[i]? = some o →
            (getQp t r.qpn).ops[i]? = some { o with staged := o.staged ++
              [{ dma := r.dma, data := ((List.replicate 64 (0 : Byte)).drop r.off).take r.len, tag := .pass, cls := r.cls, slot := r.slot }] }) ∧
      (isWrite r.kind = true → pwFresh w = true → sepRoom u = true → (∀ x ∈ u.sep.inits, x.page ≠ r.dma / 4096) →
        ∃ t, exec (.orderingPointPass ch es path) s = .next t ∧ t.dram = s.dram ∧ isLocked t r.dma = true ∧
          t.sep.inits = u.sep.inits ++ [{ page := r.dma / 4096, done := 0, heldReqs := [r] }]) ∧
      (pwFresh w = false → bankRoom u ch.val b cls.val = true →
        r.kind = .read ∨ (isWrite r.kind = true ∧ pageDue u (r.dma / 4096) = false ∧ rewriteOf u (r.dma / 4096) = none ∧ pwMajor w ≠ exhaustedMajor ∧
          pageLost u (r.dma / 4096) = false ∧ (metaEntry u ch.val (homeOf u r.dma).2).1 + passedWrites u ch.val r.dma < 255) →
        ∃ t e, exec (.orderingPointPass ch es path) s = .next t ∧ t.dram = s.dram ∧ e.req = r ∧
          bankQ t ch.val b = bankQ u ch.val b ++ [e] ∧ (isRmw r.kind = true → isLocked t r.dma = true) ∧
          (getCls t ch.val cls.val).outstanding = (getCls u ch.val cls.val).outstanding + 1)) ∧
    (∀ (ups path mu : Errors), stalls s ch.val = true → exec (.lineDecode ch ups path mu) s = .next s) ∧
    (∀ (ups path mu : Errors) (b : Burst) (rest : List Burst), inFlight s ch.val = b :: rest → stalls s ch.val = false →
      (∃ t, exec (.lineDecode ch ups path mu) s = .next t ∧ inFlight t ch.val = rest) ∧
      (b.req.kind ≠ .copy → b.withMeta = false → b.poisoned = false → b.errors = [] →
        ∃ t e, exec (.lineDecode ch [] [] mu) s = .next t ∧ t.dram = s.dram ∧ inCrypto t ch.val = inCrypto s ch.val ++ [e] ∧
          e.req = b.req ∧ e.ct = b.data ∧ e.minor = b.minor ∧ e.major = b.major ∧ e.slot = b.slot ∧ e.tag = b.tag)) ∧
    (stalls s (0x040 + ch.val / 4) = true → exec (.tagCheck ch) s = .next s) ∧
    (∀ (e : CryptoEntry) (rest : List CryptoEntry) (h : Nat × Nat), inCrypto s ch.val = e :: rest → h = homeOf s e.req.dma →
      stalls s (0x040 + ch.val / 4) = false →
      ∃ t, exec (.tagCheck ch) s = .next t ∧ inCrypto t ch.val = rest ∧
        (e.late = true → t.dram = s.dram) ∧
        (e.late = false → tagOk s e = true → t.dram = s.dram ∧
          (e.req.kind ≠ .read → halves t ch.val = halves s ch.val ++ [{ req := e.req, plain := plainOf s e }])) ∧
        (e.late = false → tagOk s e = false → isRetired s ch.val = false → stillStored s ch.val h.2 e.minor e.tag = true →
          (e.req.kind = .carry → copyHome s h.1 h.2 = none ∧ (metaHome s h.1 h.2).1 ≠ dataHome s ch.val h.2) →
            isPoisoned t (dataHome s ch.val h.2) = true) ∧
        (e.late = false → tagOk s e = false → e.req.kind ≠ .carry → stillStored s ch.val h.2 e.minor e.tag = false → t.dram = s.dram))

/-- WRITE_HALF and the write of a line (R99, R137, R138, R145, R146, R150, R171, R173): when its column commands can be issued, a read-modify-write is stored under its line's next
minor counter, ciphertext and metadata entry, and no other line changes; its lock is released. A line that a rewrite or move carries is stored under its page's next key and counter, at
minor 0, and is then moved. When the column commands cannot be issued, and no turn of the calendar is due, the half waits.
What the model chose in it, not the spec: notes/assumptions/7.md. -/
def Obligations.WritesTakeTheNextCounter : Prop :=
  (∀ (ch : Fin 64) (s : State) (h : HalfEntry) (rest : List HalfEntry), halves s ch.val = h :: rest → turnDue s ch.val = false →
    (halfLegal s ch.val h.req = false → exec (.writeHalf ch) s = .next s) ∧
    (∀ (c loc : Nat) (x : Rewrite), halfLegal s ch.val h.req = true → h.req.kind = .carry → homeOf s h.req.dma = (c, loc) →
      rewriteOf s (h.req.dma / 4096) = some x → lineMoved s x h.req.dma = false →
      ∃ t, exec (.writeHalf ch) s = .next t ∧ halves t ch.val = rest ∧ NSet.has (lockKey h.req) t.path.locks = false ∧
        t.dram = (storeLine c loc h.req.dma (newKey s x).1 (newKey s x).2 0 h.plain s).dram ∧
        ∃ x', rewriteOf t (h.req.dma / 4096) = some x' ∧ x'.moved.getLsbD (h.req.dma / 64 % 64) = true) ∧
    ∀ (c loc : Nat) (k : Nat × Nat), halfLegal s ch.val h.req = true → h.req.kind ≠ .carry → homeOf s h.req.dma = (c, loc) →
      lineKey s h.req.region h.req.dma = k → rewriteOf s (h.req.dma / 4096) = none → (metaEntry s c loc).1 < 255 →
      ∃ t, exec (.writeHalf ch) s = .next t ∧ halves t ch.val = rest ∧ isLocked t h.req.dma = false ∧
        (∀ l, modified h.req h.plain = some l → t.dram =
          (storeLine c loc h.req.dma k.1 k.2 ((metaEntry s c loc).1 + 1) l s).dram) ∧
        (modified h.req h.plain = none → t.dram = s.dram)) ∧
  ∀ (s u : State) (c loc dma slot major minor : Nat) (l ct : List Byte), u = storeLine c loc dma slot major minor l s →
    ct = cipherLine (getKey s slot) slot dma major minor l → copyHome s c loc = none → dataHome s c loc ≠ (metaHome s c loc).1 → minor < 256 →
    lineData u (dataHome s c loc) = padTo 64 ct ∧ metaEntry u c loc = (minor, tagOf (getKey s slot) slot dma major minor ct) ∧
      isPoisoned u (dataHome s c loc) = false ∧
      ∀ a, a / 64 ≠ dataHome s c loc → a / 64 ≠ (metaHome s c loc).1 → Map.get (fillByte a) a u.dram.data = Map.get (fillByte a) a s.dram.data

/-- BURST_OPPORTUNITY, REFRESH_INTERVAL, NEIGHBOUR_REFRESH_DEADLINE, EXPRESS_ROW_TIMEOUT and ROW_DISTURB_RESEED (R166 to R171, R173, R175 to R177, R179, R195): a channel's opportunity passes, and its column command is
the one that a write half has taken, or a waiting second one, or that of the request which the pick chooses from the class that the slot names: a burst sets out, a visit's
arrives, or a second command is to follow; an activate opens the row that its request needs. A bank owes one refresh more; an overdue neighbour is forced; a stale express row closes; the generator
starts anew from a seed of the DRBG.
What the model chose in it, not the spec: notes/assumptions/19.md, notes/assumptions/59.md, notes/assumptions/104.md. -/
def Obligations.EnginesKeepTheirRows : Prop :=
  ∀ (ch : Fin 64) (s : State),
    (engineRuns s ch.val = true →
      (∃ t, exec (.burstOpportunity ch) s = .next t ∧ (getChan t ch.val).opp = (getChan s ch.val).opp + 1 ∧
        (∀ c, c ≠ ch.val → (getChan t c).opp = (getChan s c).opp) ∧ t.keys = s.keys ∧ t.flash = s.flash ∧
        (∀ n, (getChan s ch.val).colBusy = n + 1 → (getChan t ch.val).colBusy = n) ∧
        ((getChan s ch.val).colBusy = 0 → (getChan s ch.val).second ≠ none → (getChan t ch.val).second = none)) ∧
      (∀ (b i : Nat) (e : BankEntry) (u : State), turnDue s ch.val = false → (getChan s ch.val).colBusy = 0 → (getChan s ch.val).second = none →
        choosePick s ch.val (columnEligible s ch.val) = (some (b, i, e), u) →
        ∃ t, exec (.burstOpportunity ch) s = .next t ∧
          (∃ c m, namedClass s ch.val (fun d => (pick s ch.val d (columnEligible s ch.val)).isSome) = some (c, m) ∧ e.req.cls = c ∧
            (bankQ s ch.val b)[i]? = some e ∧ columnEligible s ch.val b (bankQ s ch.val b) i e = true) ∧
          if e.req.kind = .fullWrite ∧ e.metaIssued = false then bankQ t ch.val b = (bankQ s ch.val b).set i { e with metaIssued := true }
          else
            bankQ t ch.val b = (bankQ s ch.val b).eraseIdx i ∧
              if (writesNext e = true ∧ e.req.kind ≠ .erase) ∨ e.metaIssued = false
              then (getChan t ch.val).second = some { bank := b, entry := e, left := 1 }
              else if e.req.kind = .visit then arrivedVisits t ch.val = arrivedVisits s ch.val ++ [e.req]
              else if e.req.kind = .erase then t.dram = (eraseWords e.req.region (reqLine s ch.val e.req) s).dram
              else inFlight t ch.val = inFlight s ch.val ++ [readBurst ch.val e.req false s]) ∧
      (turnDue s ch.val = false → (getChan s ch.val).colBusy = 0 → (getChan s ch.val).second = none →
        (choosePick s ch.val (columnEligible s ch.val)).1 = none →
        ∃ t, exec (.burstOpportunity ch) s = .next t ∧ t.path = s.path ∧ t.dram = s.dram) ∧
      (∀ (b i : Nat) (e : BankEntry) (u v : State), turnDue s ch.val = false → u = (columnCommand ch.val s).2 →
        (∀ d < 32, (forcedCommand u ch.val d).isNone = true) → choosePick u ch.val (rowEligible u ch.val) = (some (b, i, e), v) →
        (getBank v ch.val b).openRow = none →
        ∃ t, exec (.burstOpportunity ch) s = .next t ∧ (getBank t ch.val b).openRow = some (rowOf v ch.val e.req) ∧
          (getBank t ch.val b).colOk = cycleOf v ch.val + 42) ∧
      ∀ b : Fin 32,
        (∃ t, exec (.refreshInterval ch b) s = .next t ∧ Messages (setBank ch.val b.val (getBank t ch.val b.val) s) t ∧
          (getBank t ch.val b.val).owed = (getBank s ch.val b.val).owed + 1 ∧
          (getBank t ch.val b.val).forcedRefresh = (if 8 ≤ (getBank s ch.val b.val).owed + 1
            then satAdd max32 (getBank s ch.val b.val).forcedRefresh 1 else (getBank s ch.val b.val).forcedRefresh)) ∧
        ((∃ n ∈ (getBank s ch.val b.val).neighbours, n.forced = false) →
          ∃ t, exec (.neighbourRefreshDeadline ch b) s = .next t ∧ Messages (setBank ch.val b.val (getBank t ch.val b.val) s) t ∧
            (getBank t ch.val b.val).neighbours = forceFirst (getBank s ch.val b.val).neighbours ∧
            (getBank t ch.val b.val).forcedNeighbour = satAdd max32 (getBank s ch.val b.val).forcedNeighbour 1) ∧
        (staleRow s ch.val b.val = true →
          ∃ t, exec (.expressRowTimeout ch b) s = .next t ∧ t = setBank ch.val b.val (getBank t ch.val b.val) s ∧
            (getBank t ch.val b.val).openRow = none ∧ cycleOf s ch.val + 42 ≤ (getBank t ch.val b.val).actOk)) ∧
    (s.drbg.instantiated = true →
      ∃ t, exec (.rowDisturbReseed ch) s = .next t ∧ (getChan t ch.val).sampleDraws = 0 ∧ (getChan t ch.val).sampleSeed = (generate 64 s).1 ∧
        t.drbg.requests = (if 1024 ≤ s.drbg.requests then 1 else s.drbg.requests + 1) ∧
        t.banks = s.banks ∧ t.dram = s.dram)

/-- PAGE_INIT_COMPLETE and PAGE_REWRITE_COMPLETE (R139, R146 to R148): once every line of the page is written, its page word takes Fresh 0, or the next major counter; the
trigger's locks are released, and the writes that were held go to pass their ordering points. Until then, and while the page's channels are closed, nothing happens. An
exhausted page starts a re-key. A page that the device does not have is no page: the step stops.
What the model chose in it, not the spec: notes/assumptions/75.md. -/
def Obligations.PagesArePrepared : Prop :=
  ∀ (page : Nat) (s : State),
    (pageCount ≤ page → exec (.pageInitComplete page) s = .fault .noSuchObject ∧ exec (.pageRewriteComplete page) s = .fault .noSuchObject) ∧
    (page < pageCount → ∀ x, s.sep.inits.find? (fun y => y.page = page) = some x →
      (pageOpen s page = false ∨ initReady s x (fun _ => false) = false → exec (.pageInitComplete page) s = .next s) ∧
      (pageOpen s page = true → initReady s x (fun _ => false) = true →
        ∃ t, exec (.pageInitComplete page) s = .next t ∧ t.keys = s.keys ∧ t.flash = s.flash ∧
          t.sep.inits = s.sep.inits.filter (fun y => y.page ≠ page) ∧
          ∀ r rest, x.heldReqs = r :: rest → (∀ q ∈ r :: rest, isLocked t q.dma = false) ∧ t.sep.waiting = s.sep.waiting ++ rest ∧
            pageWord t page = mkPageWord (pwGen (pageWord s page)) false (pwMajor (pageWord s page)))) ∧
    (page < pageCount → ∀ x, rewriteOf s page = some x →
      (x.move = true ∨ pageOpen s page = false ∨ carryReady s x = false → exec (.pageRewriteComplete page) s = .next s) ∧
      (x.move = false → pageOpen s page = true → carryReady s x = true →
        ∃ t, exec (.pageRewriteComplete page) s = .next t ∧ t.keys = s.keys ∧ t.flash = s.flash ∧
          pageWord t page = mkPageWord (pwGen (pageWord s page)) (pwFresh (pageWord s page)) (x.major + 1) ∧
          t.sep.waiting = s.sep.waiting ++ x.heldReqs ∧ (pageDue s page = false → rewriteOf t page = none) ∧
          (x.major + 1 = exhaustedMajor → (rekeyOf t x.region).isSome = true)))

/-- KEY_DRAW, PAGE_MOVE, REKEY_SWEEP_STEP, KEY_RETIREMENT, DRBG_RESEED, ENTROPY_SAMPLE and ENTROPY_FAILURE (R112, R132, R133, R148 to R153): a next key is drawn from the DRBG; the pages move to
it one by one, a fresh page by its page word alone and another by a move that begins with its record and ends once its lines have moved; the old slot is zeroised with its round keys and the next key becomes the current one. A sample that a health test fails is discarded and counted.
What the model chose in it, not the spec: notes/assumptions/7.md, notes/assumptions/57.md, notes/assumptions/75.md, notes/assumptions/82.md, notes/assumptions/83.md. -/
def Obligations.RegionsRekey : Prop :=
  (∀ (region : Fin 131072) (s : State) (k : Rekey) (i : Nat) (r : Region), i = region.val → r = getRegion s i → rekeyOf s i = some k →
    (upkeepRuns s = true → markedRow s (leaseHome s i).1 = false → k.state = .draw → keyReady s = true → ∀ slot, firstFree s 8192 0 = some slot →
      ∃ t, exec (.keyDraw region) s = .next t ∧ (getRegion t i).nextSlot = slot ∧ (getRegion t i).nextValid = true ∧
        getKey t slot = { key := (generate 256 s).1, hash := hashSubkey (generate 256 s).1, state := .next, region := i } ∧
        rekeyOf t i = some { k with state := .move, newSlot := slot } ∧ RecordKept i s t ∧ TenantsKept s t) ∧
    (∀ page, pageCount ≤ page → exec (.pageMove region page) s = .fault .noSuchObject) ∧
    (∀ page, page < pageCount → pageOpen s page = false → exec (.pageMove region page) s = .next s) ∧
    (∀ page lost, page < pageCount → k.state = .move ∨ (lost = true ∧ k.state = .flush) → nextListed s k = some (page, lost) → pageBusy s page = false →
      pageOpen s page = true → ∃ t, exec (.pageMove region page) s = .next t ∧
        if lost = false ∧ pwFresh (pageWord s page) = true then
          (getRegion t i).pagesRemaining = r.pagesRemaining - 1 ∧ pageWord t page = mkPageWord (!r.curBit) true 0 ∧
            ∃ k', rekeyOf t i = some k' ∧ k'.moved = k.moved + 1
        else t.dram = s.dram ∧ rewriteOf t page = some { page := page, region := i, major := pwMajor (pageWord s page), moved := 0, move := true,
                                                         recover := false, heldReqs := [] }) ∧
    (∀ page x, page < pageCount → rewriteOf s page = some x → moveReady s i x = true →
      ∃ t, exec (.pageMove region page) s = .next t ∧ (getRegion t i).pagesRemaining = r.pagesRemaining - 1 ∧
        pageWord t page = mkPageWord (!r.curBit) false 0 ∧ (∃ k', rekeyOf t i = some k' ∧ k'.moved = k.moved + 1) ∧
        t.sep.waiting = s.sep.waiting ++ x.heldReqs ∧ (pageDue s page = false → rewriteOf t page = none)) ∧
    ((∀ x ∈ s.sep.rewrites, moveReady s i x = false) → k.state = .move → upkeepRuns s = true →
      (∀ page, page = r.slab * 16 + k.sweep → k.sweep < regionPages r →
        if unmoved s i page = false ∨ page ∈ k.lost ∨ (rewriteOf s page).any (fun x => x.move) = true then
          ∃ t k', exec (.rekeySweepStep region) s = .next t ∧ rekeyOf t i = some k' ∧ k'.sweep = k.sweep + 1 ∧ t.dram = s.dram ∧
            (getRegion t i).pagesRemaining = r.pagesRemaining
        else if pageBusy s page = true ∨ pageOpen s page = false then exec (.rekeySweepStep region) s = .next s
        else ∃ t k', exec (.rekeySweepStep region) s = .next t ∧ rekeyOf t i = some k' ∧ k'.sweep = k.sweep + 1 ∧
          if pwFresh (pageWord s page) = true then
            (getRegion t i).pagesRemaining = r.pagesRemaining - 1 ∧ pageWord t page = mkPageWord (!r.curBit) true 0
          else t.dram = s.dram ∧ rewriteOf t page = some { page := page, region := i, major := pwMajor (pageWord s page), moved := 0, move := true,
                                                           recover := false, heldReqs := [] }) ∧
      (regionPages r ≤ k.sweep →
        if k.lost = [] ∧ ∀ j < regionPages r, unmoved s i (r.slab * 16 + j) = false then
          ∃ t, exec (.rekeySweepStep region) s = .next t ∧ rekeyOf t i = some { k with state := .flush } ∧ (getKey t r.curSlot).state = .retiring
        else exec (.rekeySweepStep region) s = .next s)) ∧
    (upkeepRuns s = true → markedRow s (leaseHome s i).1 = false → k.state = .flush → k.lost = [] → slotQuiet s r.curSlot = true →
      ∃ t, exec (.keyRetirement region) s = .next t ∧ (getRegion t i).curSlot = r.nextSlot ∧ (getRegion t i).curBit = !r.curBit ∧
        (getKey t r.nextSlot).state = .current ∧ (r.curSlot ≠ r.nextSlot → getKey t r.curSlot = KeySlot.zero) ∧
        (∀ e ∈ t.path.roundKeys, r.curSlot ∉ e.2) ∧ (k.again = [] → rekeyOf t i = none ∧ (getRegion t i).rekeying = false) ∧
        (k.again ≠ [] → (rekeyOf t i).isSome = true) ∧ RecordKept i s t ∧ TenantsKept s t)) ∧
  ∀ s : State,
    (s.drbg.instantiated = true → s.drbg.entropyOk = true →
      exec .drbgReseed s = .next { s with drbg := { updateSeed (freshSeed s) s.drbg with requests := 0, reseedUs := s.tank.clockUs }, free := s.free + 1 }) ∧
    (s.pins.porN = true →
      (∀ x : Byte, sampleFails x s.drbg = false →
        exec (.entropySample x []) s = .next { s with drbg := { testedSample x s.drbg with entropyOk := true, lastGoodUs := s.tank.clockUs } }) ∧
      (∀ x : Byte, sampleFails x s.drbg = true → exec (.entropySample x []) s = .next { s with
        drbg := { testedSample x s.drbg with entropyOk := false },
        stats := { s.stats with entropyDiscards := satAdd max32 s.stats.entropyDiscards 1 } }) ∧
      (∀ (x y : Byte) (l : List Byte) (t : State), exec (.entropySample x []) s = .next t →
        exec (.entropySample x (y :: l)) s = exec (.entropySample y l) t) ∧
      ∃ t, exec .entropyFailure s = .next t ∧ t.drbg.entropyOk = false ∧ Messages { s with drbg := t.drbg } t ∧
        ((s.churn.inbox.filter (fun x => x.source = 0x084)).length < 8 → t.churn.inbox = s.churn.inbox ++ [
          { source := 0x084, kind := 0x35, cls := 2, severity := 2, addr := 0x10000, ownEntry := false, detail := 0 }]))

/-! ### Leases and plans (R112, R119 to R124, R282 to R286) -/

/-- MINUTE_BOUNDARY, HELD_LEASE_START, ERASE_DRAIN_COMPLETE and CRYPTO_ERASE_COMPLETE (R118 to R123, R126, R127, R283): the minute rises, and while the Round runs its boundary is
processed: a prepared bank whose minute it is is adopted; a lease that ends begins its erase, or is carried on by its follow-on; the minute is closed, a record filling its
slot. A start that has waited takes a key and a new generation; an erase begins when no request of the region is left, and ends when its page words are fresh, its slots
zeroised.
What the model chose in it, not the spec: notes/assumptions/56.md, notes/assumptions/82.md, notes/assumptions/83.md. -/
def Obligations.LeasesBeginAndEnd : Prop :=
  (∀ s : State, s.pins.porN = true → s.tank.anchored = true → s.tank.holdUs = 0 →
    ∃ t, exec .minuteBoundary s = .next t ∧ t.tank.minute = s.tank.minute + 1 ∧ t.tank.usec = 0 ∧ t.tank.anchored = true ∧
      t.tank.phase = s.tank.phase ∧ t.otp.cells = s.otp.cells ∧
      (roundRuns s = false → t.regions = s.regions ∧ t.plans = s.plans ∧ t.keys = s.keys) ∧
      ∀ m, m = s.tank.minute.toNat + 1 → m < 2 ^ 32 → s.tank.roundMinute = s.tank.minute → roundRuns s = true → boundariesHeld s = false →
        s.records.openMinute < m →
        t.tank.roundMinute.toNat = m ∧ t.records.openMinute = m ∧ t.records.lastMinute.toNat = m - 1 ∧
        (∀ k p, pendingBank s = some k → (getBS s k).adoptAt.toNat = m → s.plans.prepared = true → s.plans.buffer = some p →
          compat s p m false = none → admission p s.retired = none →
          t.plans.plan = some p ∧ t.plans.inForce = some k ∧ (getBS t k).state = 5 ∧ t.plans.rewritePending = true ∧ t.plans.prepared = false) ∧
        ∀ i r, r = getRegion s i → pendingBank s = none → r.inUse = true → r.active = true → r.leaseEnd.toNat = m →
          (r.foId = 0 → (getRegion t i).active = false ∧ (getRegion t i).erasePending = true ∧ (getRegion t i).erase = .draining ∧
            (getRegion t i).endMinute.toNat = m) ∧
          (∀ (p : RegionRec) (l : Lease), r.foId ≠ 0 → (∀ j, (getRegion s j).revokeMinute.toNat ≠ m) → (∀ e ∈ s.records.laterRevokes, e.2 ≠ m) →
            regionRec s i = some p → (openLeases s p).find? (fun x => x.id = r.foId) = some l → l.stop.toNat ≠ m →
            (getRegion t i).active = true ∧ (getRegion t i).leaseId = l.id ∧ (getRegion t i).leaseEnd = l.stop ∧
              (getRegion t i).gen = r.gen ∧ (getRegion t i).curSlot = r.curSlot)) ∧
  (∀ (s u : State) (q : BitVec 32) (line minute tenant span : Nat) (stepped ended : Bool) (v : Nat → Nat),
    q = nextRecordSeq s.retired 64 s.records.next → line = systemLine (recordSlot q.toNat).1 (recordSlot q.toNat).2 → markedRow s line = false →
    u = putRecord minute tenant span stepped ended v s →
    lineData u line = minuteRecord q minute tenant (8 + bit (tenantSaturated s tenant) 2 + bit stepped 1 + bit ended 0) span v ∧
      u.records.next = q + 1 ∧ ∀ a, a / 64 ≠ line → Map.get (fillByte a) a u.dram.data = Map.get (fillByte a) a s.dram.data) ∧
  ∀ (region : Fin 131072) (s : State) (i : Nat) (r : Region), i = region.val → r = getRegion s i →
    (isHeld s i = true → roundRuns s = true → r.erasePending = false →
      (leaseAt s i s.tank.roundMinute.toNat = none →
        exec (.heldLeaseStart region) s = .next (settleRound { s with held := s.held.filter (fun h => h.1 ≠ i) })) ∧
      (∀ l k, leaseAt s i s.tank.roundMinute.toNat = some l → s.otp.life = 2 → s.plans.reloadFailed.contains i = false →
        eraseBlocks (loadEntry i s) i = false → keyReady s = true → firstFree s 8192 0 = some k → markedRow s (leaseHome s i).1 = false →
        ∃ (u : State) (key : BitVec 256), exec (.heldLeaseStart region) s = .next (settleRound u) ∧ (getRegion u i).active = true ∧
          (getRegion u i).gen = (getRegion (loadEntry i s) i).gen + 1 ∧ (getRegion u i).curSlot = k ∧ key = (generate 256 (loadEntry i s)).1 ∧
          getKey u k = { key := key, hash := hashSubkey key, state := .current, region := i } ∧ isHeld u i = false ∧
          RecordKept i s u ∧ TenantsKept s u)) ∧
    (r.erase = .draining → regionQuiet s i = true → upkeepRuns s = true →
      ∃ t, exec (.eraseDrainComplete region) s = .next t ∧ (getRegion t i).erase = .erasing ∧ (getRegion t i).rekeying = false ∧
        (getRegion t i).pagesRemaining = (unerased s i).length ∧ rekeyOf t i = none ∧ (∀ w ∈ t.sep.rewrites, w.region ≠ i) ∧ t.dram = s.dram) ∧
    (r.erase = .erasing → unerased s i ≠ [] → exec (.cryptoEraseComplete region) s = .next s) ∧
    (r.erase = .erasing → upkeepRuns s = true → unerased s i = [] →
      ∃ t, exec (.cryptoEraseComplete region) s = .next t ∧ (getRegion t i).erasePending = false ∧
        (r.active = false → (getRegion t i).active = false) ∧ getKey t r.curSlot = KeySlot.zero ∧ (r.nextValid = true → getKey t r.nextSlot = KeySlot.zero) ∧
        ∀ j < regionPages r, (pageWordHome s (r.slab * 16 + j)).1 ≠ (leaseHome s i).1 →
          pageWord t (r.slab * 16 + j) = mkPageWord false true 0)

/-- ADOPTION_PREPARED, REGION_TABLE_REWRITE and SECTION_RELOAD (R112, R282, R283, R286): a bank that passes is prepared, another is refused with its reason; entries that are neither
active nor erase-pending take the plan's; a damaged entry is loaded again from the plan and its lease-state record, or remembered as damaged.
What the model chose in it, not the spec: notes/assumptions/68.md. -/
def Obligations.PlansAreLaidOut : Prop :=
  ∀ s : State,
    (∀ k : Bank, s.plans.preparing = some k →
      ∃ t, exec .adoptionPrepared s = .next t ∧ t.plans.preparing = none ∧ t.dram = s.dram ∧
        match checkBank s k with
        | .error e => (getBS t k).state = 7 ∧ (getBS t k).reason = BitVec.ofNat 8 e.1 ∧ t.plans.prepared = false
        | .ok p =>
          match compat s p p.adoptAt.toNat false with
          | some c => (getBS t k).state = 7 ∧ (getBS t k).reason = 0x11 ∧ (getBS t k).detail = BitVec.ofNat 32 c ∧ t.plans.prepared = false
          | none =>
            match admission p s.retired with
            | some c => (getBS t k).state = 7 ∧ (getBS t k).reason = 0x10 ∧ (getBS t k).detail = BitVec.ofNat 32 c.2 ∧ t.plans.prepared = false
            | none => t = { s with plans := { s.plans with prepared := true, preparing := none, buffer := some p } }) ∧
    (s.plans.rewritePending = true →
      ∃ t, exec .regionTableRewrite s = .next t ∧ t.plans.rewritePending = false ∧ t.plans.tableWritten = true ∧ t.keys = s.keys ∧ t.flash = s.flash ∧
        (∀ i, (getRegion s i).active = true ∨ (getRegion s i).erasePending = true → getRegion t i = getRegion s i) ∧
        ∀ i, (getRegion s i).active = false → (getRegion s i).erasePending = false →
          (regionRec s i = none → getRegion t i = Region.unnamed ∨ (getRegion s i = Region.zero ∧ getRegion t i = Region.zero)) ∧
          ∀ p, regionRec s i = some p → (getRegion t i).inUse = true ∧ (getRegion t i).tenant = p.tenant ∧ (getRegion t i).slab = p.slab ∧
            (getRegion t i).slabs = p.slabs ∧ (getRegion t i).vbase = p.vbase) ∧
    (∀ (item : ReloadItem) (k : Bank), s.plans.inForce = some k →
      (sectionIntact s k (reloadKey item).1 = true →
        ∃ t, exec (.sectionReload item) s = .next t ∧ NSet.has (waitKey (reloadKey item).2.2) t.plans.reloadFailed = false ∧ TenantsKept s t ∧
          ∀ i p, item = .region i → regionRec s i.val = some p →
            (getRegion t i.val).tenant = p.tenant ∧ (getRegion t i.val).slab = p.slab ∧ (getRegion t i.val).slabs = p.slabs ∧
            (getRegion t i.val).vbase = p.vbase ∧ ((getRegion s i.val).active = true → (getRegion s i.val).erasePending = false →
              (getRegion t i.val).active = (readRec i.val s).1.active ∧ (getRegion t i.val).gen = (readRec i.val s).1.gen ∧
              (getRegion t i.val).curSlot = (readRec i.val s).1.curSlot ∧ (getRegion t i.val).nextSlot = (readRec i.val s).1.nextSlot)) ∧
      (sectionIntact s k (reloadKey item).1 = false →
        ∃ t, exec (.sectionReload item) s = .next t ∧ NSet.has (reloadKey item).2.2 t.plans.reloadFailed = true ∧ (getBS t k).reason = 0x0A ∧
          (∀ i, item = .region i → (getRegion t i.val).active = false) ∧ t.dram = s.dram))

/-! ### Upkeep of the stored data, the Parlour and heat (R183 to R224, R234 to R247) -/

/-- LANE_ERROR_WINDOW, RELIEF_COPY_COMPLETE, SKIMMER_STEP, SKIMMER_VISIT and SRAM_SCRUB (R12, R183, R186, R206, R212, R213, R220 to R223, R238): a window closes with its bad lanes failed; a channel is
retired with its relief; the walk queues its next visit, which passes its ordering point with the line lock when no client came before it; a visit writes back what it corrects and
poisons what it cannot; SRAM words are counted by area.
What the model chose in it, not the spec: notes/assumptions/11.md, notes/assumptions/60.md, notes/assumptions/63.md, notes/assumptions/67.md. -/
def Obligations.StoredDataIsTended : Prop :=
  ∀ s : State,
    (∀ ch : Fin 64, isRetired s ch.val = false → 4096 ≤ (getChan s ch.val).windowBursts →
      ∃ t, exec (.laneErrorWindow ch) s = .next t ∧ (getChan t ch.val).windowBursts = 0 ∧ (getChan t ch.val).laneErrors = [] ∧
        (∀ e ∈ (getChan s ch.val).laneErrors, 64 ≤ e.2 → e.1 ∈ (getChan t ch.val).failedLanes) ∧ t.dram = s.dram) ∧
    (∀ (ch : Fin 64) (r : Nat), s.retiring.contains ch.val = true → engineIdle s ch.val = true → upkeepRuns s = true → reliefChannel s ch.val = some r →
      ∃ t, exec (.reliefCopyComplete ch) s = .next t ∧ isRetired t ch.val = true ∧ (ch.val, r) ∈ t.relief ∧
        t.retiring.contains ch.val = false ∧ (getChan t ch.val).visits = []) ∧
    (s.skim.running = true →
      (∃ t, exec .skimmerStep s = .next t ∧ t.dram = s.dram) ∧
      (s.skim.behind = 0 → upkeepRuns s = true → (∀ x, (stepVisit s).2 = some x → (getChan s (stepVisit s).1).visits.length < 16) →
        ∃ t, exec .skimmerStep s = .next t ∧ t.skim = { advanceSkim s with behind := 0 } ∧
          ∀ x, (stepVisit s).2 = some x → (getChan t (stepVisit s).1).visits =
            (getChan s (stepVisit s).1).visits ++ [{ x with since := cycleOf s (stepVisit s).1 }])) ∧
    (∀ (ch : Fin 64) (es path : Errors) (v : Visit) (rest : List Visit) (r : LineReq) (b : Nat), s.skim.running = true → passHeld ch.val s = none →
      whenOpen s ch.val (nextMove ch.val s) = none → (∀ c < 16, classQ s ch.val c = []) → ownOpen s ch.val = true →
      (getChan s ch.val).early ++ (getChan s ch.val).visits = v :: rest → r = visitReq v (cycleOf s ch.val) → b = lineBank (reqLine s ch.val r) →
      NSet.has (lockKey r) s.path.locks = false → markedRow s (reqLine s ch.val r) = false → (bankQ s ch.val b).length < 16 →
      ∃ t e, exec (.orderingPointPass ch es path) s = .next t ∧ t.dram = s.dram ∧ (getChan t ch.val).early ++ (getChan t ch.val).visits = rest ∧
        bankQ t ch.val b = bankQ s ch.val b ++ [e] ∧ e.req = r ∧ NSet.has (lockKey r) t.path.locks = true) ∧
    (∀ (ch : Fin 64) (ups path : Errors) (r : LineReq) (rest : List LineReq) (l : Nat) (d : Decoded),
      arrivedVisits s ch.val = r :: rest → stalls s ch.val = false → l = reqLine s ch.val r → d = decodeOutcome (addUpsets l ups s) l path s.free →
      ∃ t, exec (.skimmerVisit ch ups path) s = .next t ∧ arrivedVisits t ch.val = rest ∧ NSet.has (lockKey r) t.path.locks = false ∧
        (getLayer t (ch.val / 4)).visits = (getLayer s (ch.val / 4)).visits + 1 ∧
        (∀ bs, d = .clean bs → t.dram = (addUpsets l ups s).dram) ∧ (d = .poisoned → t.dram = (addUpsets l ups s).dram) ∧
        (∀ bs lanes n er, d = .corrected bs lanes n er → burstErrors t l [] = [] ∧ lineData t l = padTo 64 bs) ∧
        (d = .uncorrectable → isRetired s ch.val = false → r.target.bind (fun v => v.dma) = some r.dma → isPoisoned t l = true)) ∧
    exec (.sramScrub none) s = .next s ∧
    (∀ f : SramFinding, s.pins.porN = true →
      (f.double = false →
        ∃ t, exec (.sramScrub (some f)) s = .next t ∧ t.dram = s.dram ∧
          Map.get 0 (512 + f.area.val) t.ctr.chan = satAdd max16 (Map.get 0 (512 + f.area.val) s.ctr.chan) 1) ∧
      (f.double = true →
        ∃ t, exec (.sramScrub (some f)) s = .next t ∧
          (f.area ≠ 9 → Map.get 0 (544 + f.area.val) t.ctr.chan = satAdd max16 (Map.get 0 (544 + f.area.val) s.ctr.chan) 1) ∧
          (f.area = 0 → getQp t (BitVec.ofNat 24 f.item) = Qp.zero ∨ (getQp s (BitVec.ofNat 24 f.item)).state = .free) ∧
          (f.area = 2 → f.item ∉ t.metaCache ∧ f.item ∉ t.pageCache ∧ t.dram = s.dram) ∧
          (f.area = 6 → t.tank = { s.tank with coreHeld := true }) ∧
          (f.area = 9 → f.item < 131072 → Map.get 0 f.item t.ctr.tenant = max64)))

/-- CALENDAR_TURN and LATENCY_UPDATE (R198, R199, R202 to R205, R241, R242): at slot 0 a channel's calendar is the plan's, throttled by the higher of its layer's step and the one that the
base die imposes, without a cut while the plan allows for the band; elsewhere a turn brings nothing. After 64 samples E moves an eighth of the way to their mean and its
level is looked up.
What the model chose in it, not the spec: notes/assumptions/61.md. -/
def Obligations.CalendarsTurn : Prop :=
  ∀ (ch : Fin 64) (s : State),
    (turnDue s ch.val = false → exec (.calendarTurn ch) s = .next s) ∧
    (∀ p, engineRuns s ch.val = true → turnDue s ch.val = true → calendarsLoaded s = true → s.plans.plan = some p →
      ∃ t, exec (.calendarTurn ch) s = .next t ∧ turnDue t ch.val = false ∧ (getParlour t ch.val).planCal = planCalendar p ch.val ∧
        (getParlour t ch.val).band = layerBand s ch.val ∧
        (getParlour t ch.val).step = max (getLayer s (ch.val / 4)).step (if 2 ≤ s.thermal.baseState then 2 else 0) ∧
        (layerBand s ch.val ≤ p.band → (getParlour t ch.val).cuts = [] ∧
          (getParlour t ch.val).cal = throttle (getParlour t ch.val).step (planCalendar p ch.val)) ∧
        t.dram = s.dram ∧ t.thermal = s.thermal) ∧
    (∀ (cls : Fin 16) (m : Nat), 64 ≤ (getCls s ch.val cls.val).window.length → m = ((getCls s ch.val cls.val).window.take 64).sum / 192 →
      ∃ t, exec (.latencyUpdate ch cls) s = .next t ∧ { t with clsCh := s.clsCh } = s ∧
        (∀ key, key ≠ ch.val * 16 + cls.val → Map.get ClsCh.zero key t.clsCh = Map.get ClsCh.zero key s.clsCh) ∧
        (getCls t ch.val cls.val).window = (getCls s ch.val cls.val).window.drop 64 ∧
        ((getCls t ch.val cls.val).e : Int) = max 0 (((getCls s ch.val cls.val).e : Int) + ((m : Int) - (getCls s ch.val cls.val).e).tdiv 8) ∧
        (getCls t ch.val cls.val).level = levelOf s cls.val (getCls t ch.val cls.val).e)

/-- THERMAL_SAMPLE, THRESHOLD_RELEASE, RETENTION_FLOOR_UPDATE, SENSOR_INVALID and SENSORS_DECLARED_FAILED (R235, R238 to R247): after a sample every band, step and state is at least what its temperature
calls for, and a domain beyond its limit is in the shutdown mask; a release leaves the one state whose threshold lies 2 °C above; a lost sensor takes its layer with it when
it is the last.
What the model chose in it, not the spec: notes/assumptions/8.md, notes/assumptions/9.md. -/
def Obligations.HeatIsHeldBack : Prop :=
  ∀ s : State, s.pins.porN = true →
    (∀ base layers, ∃ t, exec (.thermalSample base layers) s = .next t ∧ t.dram = s.dram ∧ t.tank = s.tank ∧
        (∀ i < 16, (∃ p, (getLayer t i).peak = some p ∧ (getLayer t i).effective ≤ p) ∧ bandOf (getLayer t i).effective ≤ (getLayer t i).band ∧
          stepOf (getLayer t i).effective ≤ (getLayer t i).step) ∧
        baseStateOf t.thermal.baseFigure ≤ t.thermal.baseState ∧
        (∀ c < 64, (getChan t c).activates = 0 ∧ (getChan t c).refreshes = 0) ∧
        t.thermal.shutdownMask = s.thermal.shutdownMask ||| hotMask t) ∧
    (∀ (i : Fin 16) (e : Int), e = (getLayer s i).effective →
      (∃ t, exec (.thresholdRelease (.layer i)) s = .next t ∧ t.chans = s.chans ∧ (getLayer t i).band = min 2 (layerState (getLayer t i)) ∧
        (getLayer t i).step = layerState (getLayer t i) - 1 ∧
        (layerState (getLayer s i) = 0 → layerState (getLayer t i) = 0) ∧
        (layerState (getLayer s i) = 1 → layerState (getLayer t i) = if e ≤ 830 then 0 else 1) ∧
        (layerState (getLayer s i) = 2 → layerState (getLayer t i) = if e ≤ 930 then 1 else 2) ∧
        (layerState (getLayer s i) = 3 → layerState (getLayer t i) = if e ≤ 1030 then 2 else 3)) ∧
      (∀ q : Fin 4, ∃ t, exec (.sensorInvalid (.layer i q)) s = .next t ∧ (getLayer t i).valid.getLsbD q = false ∧
        ((∀ x < 4, x ≠ q.val → (getLayer s i).valid.getLsbD x = false) → (getLayer t i).failed = true)) ∧
      ((getLayer s i).disagree = true → ∃ t, exec (.sensorsDeclaredFailed i) s = .next t ∧ (getLayer t i).failed = true)) ∧
    (∀ f : Int, f = s.thermal.baseFigure → ∃ t, exec (.thresholdRelease .base) s = .next t ∧
      (s.thermal.baseState = 0 → t.thermal.baseState = 0) ∧
      (s.thermal.baseState = 1 → t.thermal.baseState = if f ≤ 980 then 0 else 1) ∧
      (s.thermal.baseState = 2 → t.thermal.baseState = if f ≤ 1030 then 1 else 2) ∧
      (s.thermal.baseState = 3 → t.thermal.baseState = if f ≤ 1130 then 2 else 3)) ∧
    (∀ i : Fin 24, ∃ t, exec (.sensorInvalid (.base i)) s = .next t ∧ t.thermal.baseInvalid.getLsbD i = true ∧ t.tank = s.tank) ∧
    ∃ t, exec .retentionFloorUpdate s = .next t ∧ t.tank = s.tank ∧ ∀ i < 16,
      ((getLayer s i).visits < 262144 → (getLayer t i).floor = none) ∧
      (∀ r, s.factory.therm[i]? = some r → 262144 ≤ (getLayer s i).visits →
        (getLayer t i).floor = retentionFloor r ((getLayer s i).retAt.filter (fun v => decide ((getLayer s i).visits < v + 262144))).length)

/-! ### The machine as a whole -/

/-- A step takes the command at the front of the queue, with the rest behind it (the model's queue, notes/assumptions/3.md); with nothing queued one microsecond passes. -/
def Obligations.StepTakesTheFront : Prop :=
  (∀ (c : Instr) (rest : List Instr) (s : State), step { s with pending := c :: rest } = exec c { s with pending := rest }) ∧
  ∀ s : State, s.pending = [] → ∃ t, step s = .next t ∧ t.pending = [] ∧ t.tank.clockUs = s.tank.clockUs + 1 ∧ t.dram = s.dram ∧
    (s.pins.porN = false → s.tank.phase ≠ 0xF1 → t = { s with tank := { s.tank with clockUs := s.tank.clockUs + 1 } })

/-- The reset state (R44, R46, R57, R131): start word 0x01000000, no address, no anchor, no plan, every key slot and QP free, every page fresh, every data line zero;
its stored tables stand in their canonical form.
What the model chose in it, not the spec: notes/assumptions/2.md, notes/assumptions/4.md, notes/assumptions/78.md. -/
def Obligations.ResetStateHolds : Prop :=
  startWord State.reset = 0x01000000 ∧ State.reset.drbg.entropyOk = false ∧ State.reset.tank.addr = 0 ∧ State.reset.tank.anchored = false ∧ State.reset.plans.plan = none ∧
    (∀ k, (getKey State.reset k).state = .free ∧ (getKey State.reset k).key = 0) ∧ (∀ n, (getQp State.reset n).state = .free) ∧
    (∀ i, (getRegion State.reset i).inUse = false) ∧ (∀ c i, getRemap State.reset c i = Remap.zero) ∧
    (∀ page < pageCount, pwFresh (pageWord State.reset page) = true ∧ pwGen (pageWord State.reset page) = false ∧
      pwMajor (pageWord State.reset page) = 0) ∧
    (∀ ch loc, loc / 14 / 32 < 32256 → lineData State.reset (dataHome State.reset ch loc) = List.replicate 64 0) ∧
    State.reset.pending = [] ∧ Stored State.reset

/-- Every step keeps the stored memories in their canonical form: equal contents are equal data (the model's own invariant, on R46, R134, R252, R352). -/
def Obligations.StepsKeepStoredTables : Prop := ∀ s t : State, Stored s → step s = .next t → Stored t

/-- No step takes a programmed OTP bit back (R352, R357): programming sets bits only, and every reset leaves the cells as they are. -/
def Obligations.StepsNeverClearOtp : Prop := ∀ s t : State, step s = .next t → OtpKept s.otp.cells t.otp.cells
end

