-- ==== Sys2Proof/Laws/Crypto.lean ====
section
/-! SUPPORT. What SHA-384 answers: six words of eight bytes (R86, R251), and how bytes of 64-bit words are split. -/

namespace Sys2Proof.Machine

theorem shaRound_length (v : List W64) (kw : W64 × W64) (h : v.length = 8) : (shaRound v kw).length = 8 := by
  unfold shaRound; split
  · rfl
  · exact h

theorem shaRounds_length (l : List (W64 × W64)) (v : List W64) (h : v.length = 8) : (l.foldl shaRound v).length = 8 := by
  induction l generalizing v with
  | nil => exact h
  | cons a t ih => exact ih _ (shaRound_length v a h)

theorem shaBlocks_length (n : Nat) (v : List W64) (m : List Byte) (h : v.length = 8) : (shaBlocks n v m).length = 8 := by
  induction n generalizing v m with
  | zero => exact h
  | succ n ih => exact ih _ _ (by simp only [shaBlock, List.length_zipWith, shaRounds_length _ v h, h, Nat.min_self])

theorem sha384_words (m : List Byte) : ∃ a b c d e f : W64, sha384 m = [a, b, c, d, e, f].flatMap (fun w => beBytes 8 w.toNat) := by
  unfold sha384
  extract_lets z p
  have h := shaBlocks_length (p.length / 128) sha384Init p rfl
  match hv : shaBlocks (p.length / 128) sha384Init p, h with
  | [a, b, c, d, e, f, _, _], _ => exact ⟨a, b, c, d, e, f, rfl⟩

theorem beBytes_split (w : W64) : beBytes 8 w.toNat =
    beBytes 4 (BitVec.ofNat 32 (w.toNat / 2 ^ 32)).toNat ++ beBytes 4 (BitVec.ofNat 32 w.toNat).toNat := by
  simp only [beBytes, List.range, List.range.loop, List.map_cons, List.map_nil, List.cons_append, List.nil_append, List.cons.injEq, and_true]
  refine ⟨?_, ?_, ?_, ?_, ?_, ?_, ?_, ?_⟩ <;> apply BitVec.eq_of_toNat_eq <;> simp only [BitVec.toNat_ofNat] <;> omega

end Sys2Proof.Machine
end

