-- ==== Sys2Proof/Laws/Frames.lean ====
section
/-! SUPPORT. What each shared operation can change: one frame lemma per operation, in the frames of `Safety`. -/

namespace Sys2Proof.Safety

open Sys2Proof.Machine

/-! ### Frames compose -/

theorem Messages.refl (s : State) : Messages s s := ⟨_, _, _, _, rfl⟩

theorem Messages.trans {a b c : State} : Messages a b → Messages b c → Messages a c := by
  rintro ⟨i, st, cd, lr, rfl⟩ ⟨i', st', cd', lr', rfl⟩
  exact ⟨i', st', cd', lr', rfl⟩

theorem Messages.events {a b : State} (h : Messages a b) : Events a b := ⟨a.journal, h⟩

theorem Events.trans {a b c : State} : Events a b → Events b c → Events a c := by
  rintro ⟨j, i, st, cd, lr, rfl⟩ ⟨j', i', st', cd', lr', rfl⟩
  exact ⟨j', i', st', cd', lr', rfl⟩

theorem Messages.counts {a b : State} (h : Messages a b) : PortCounts a b := ⟨a.ctr.port, h⟩

theorem PortCounts.trans {a b c : State} : PortCounts a b → PortCounts b c → PortCounts a c := by
  rintro ⟨j, i, st, cd, lr, rfl⟩ ⟨j', i', st', cd', lr', rfl⟩
  exact ⟨j', i', st', cd', lr', rfl⟩

theorem PortCounts.sends {a b : State} (h : PortCounts a b) : Sends a b := ⟨a.dataSent, a.ports, h⟩

theorem Sends.refl (s : State) : Sends s s := (Messages.refl s).counts.sends

theorem Sends.trans {a b c : State} : Sends a b → Sends b c → Sends a c := by
  rintro ⟨d, p, j, i, st, cd, lr, rfl⟩ ⟨d', p', j', i', st', cd', lr', rfl⟩
  exact ⟨d', p', j', i', st', cd', lr', rfl⟩

theorem Sends.flushes {a b : State} (h : Sends a b) : Flushes a b :=
  ⟨a.ctr.tenant, a.ctr.chan, a.records, a.path.inCrypto, a.dram, a.skim, a.stats, h⟩

theorem Messages.flushes {a b : State} (h : Messages a b) : Flushes a b := h.counts.sends.flushes

theorem Flushes.refl (s : State) : Flushes s s := (Sends.refl s).flushes

theorem Flushes.trans {a b c : State} : Flushes a b → Flushes b c → Flushes a c := by
  rintro ⟨x, n, r, e, m, k, g, d, p, j, i, st, cd, lr, rfl⟩ ⟨x', n', r', e', m', k', g', d', p', j', i', st', cd', lr', rfl⟩
  exact ⟨x', n', r', e', m', k', g', d', p', j', i', st', cd', lr', rfl⟩

theorem Messages.links {a b : State} (h : Messages a b) : Links a b := ⟨a.chain.chu, a.chain.chd, a.chainSent, a.ctr.chain, h⟩

theorem Links.refl (s : State) : Links s s := (Messages.refl s).links

theorem Links.trans {a b c : State} : Links a b → Links b c → Links a c := by
  rintro ⟨x, y, z, w, i, st, cd, lr, rfl⟩ ⟨x', y', z', w', i', st', cd', lr', rfl⟩
  exact ⟨x', y', z', w', i', st', cd', lr', rfl⟩

theorem Links.commanded {a b : State} (h : Links a b) : Commanded a b := ⟨a.chain.cache, a.chain.challenge, a.drbg, a.journal, a.free, h⟩

theorem Events.commanded {a b : State} : Events a b → Commanded a b := by
  rintro ⟨j, i, st, cd, lr, rfl⟩
  exact ⟨_, _, _, j, _, _, _, _, _, i, st, cd, lr, rfl⟩

theorem Commanded.trans {a b c : State} : Commanded a b → Commanded b c → Commanded a c := by
  rintro ⟨k, l, d, m, n, x, y, z, w, i, st, cd, lr, rfl⟩ ⟨k', l', d', m', n', x', y', z', w', i', st', cd', lr', rfl⟩
  exact ⟨k', l', d', m', n', x', y', z', w', i', st', cd', lr', rfl⟩

end Sys2Proof.Safety

namespace Sys2Proof.Machine

open Sys2Proof.Safety

/-! ### Fault messages and counters -/

theorem pushMsg_messages (m : FaultMsg) (s : State) : Messages s (pushMsg m s) := by
  unfold pushMsg
  dsimp only
  split
  · exact ⟨_, _, _, _, rfl⟩
  · split
    · exact ⟨_, _, _, _, rfl⟩
    · split <;> exact ⟨_, _, _, _, rfl⟩

theorem raiseAs_messages (c : BitVec 2) (src : Nat) (k : Byte) (a : Nat) (s : State) : Messages s (raiseAs c src k a s) :=
  pushMsg_messages _ _

theorem raise_messages (src : Nat) (k : Byte) (a : Nat) (s : State) : Messages s (raise src k a s) := pushMsg_messages _ _

theorem raiseDetail_messages (d src : Nat) (k : Byte) (a : Nat) (s : State) : Messages s (raiseDetail d src k a s) :=
  pushMsg_messages _ _

theorem raiseLimited_messages (src : Nat) (k : Byte) (a : Nat) (s : State) : Messages s (raiseLimited src k a s) := by
  unfold raiseLimited
  dsimp only
  split
  · exact (raise_messages src k a s).trans ⟨_, _, _, _, rfl⟩
  · exact Messages.refl s

/-- A message for a source with fewer than 8 waiting joins the end of the buffer. -/
theorem pushMsg_room {m : FaultMsg} {s : State} (h : (s.churn.inbox.filter (fun x => x.source = m.source)).length < 8) :
    pushMsg m s = { s with churn := { s.churn with inbox := s.churn.inbox ++ [m] } } := by
  simp [pushMsg, h]

theorem portCount_counts (p i n : Nat) (s : State) : PortCounts s (portCount p i n s) := by
  unfold portCount
  dsimp only
  split
  · exact ⟨_, raise_messages _ _ _ _⟩
  · exact ⟨_, Messages.refl _⟩

theorem chainCount_links (o n : Nat) (s : State) : Links s (chainCount o n s) := by
  unfold chainCount
  dsimp only
  split
  · exact ⟨_, _, _, _, raise_messages _ _ _ _⟩
  · exact ⟨_, _, _, _, Messages.refl _⟩

theorem chainPortCount_links (p : ChainPort) (o : Nat) (s : State) : Links s (chainPortCount p o s) := chainCount_links _ _ _

/-! ### The journal -/

theorem settleJournal_events (s : State) : Events s (settleJournal s) := by
  unfold settleJournal
  split
  · exact ⟨_, Messages.refl _⟩
  · exact (Messages.refl s).events

theorem pushEntry_events (e : JEntry) (s : State) : Events s (pushEntry e s) := by
  unfold pushEntry
  split
  · dsimp only
    split
    · exact ⟨_, raise_messages _ _ _ _⟩
    · exact ⟨_, Messages.refl _⟩
  · exact Events.trans ⟨_, Messages.refl _⟩ (settleJournal_events _)

theorem journalEvent_events (src : Nat) (ty : Byte) (r : Nat) (a : List Byte) (s : State) :
    Events s (journalEvent src ty r a s) := pushEntry_events _ _

/-! ### The chain -/

theorem setCPort_links (p : ChainPort) (v : CPort) (s : State) : Links s (setCPort p v s) := by
  cases p <;> exact ⟨_, _, _, _, Messages.refl _⟩

theorem settleQuiet_links (p : ChainPort) (s : State) : Links s (settleQuiet p s) := by
  unfold settleQuiet
  dsimp only
  split
  · exact setCPort_links _ _ _
  · exact Links.refl s

theorem emit_links (p : ChainPort) (f : ChainFrame) (s : State) : Links s (emit p f s) := by
  unfold emit
  dsimp only
  split
  · exact Links.refl s
  · split
    · exact ⟨_, _, _, _, Messages.refl _⟩
    · exact ((setCPort_links _ _ _).trans (chainPortCount_links _ _ _)).trans ⟨_, _, _, _, Messages.refl _⟩

theorem pump_links (p : ChainPort) (n : Nat) (s : State) : Links s (pump p n s) := by
  induction n generalizing s with
  | zero => exact Links.refl s
  | succ n ih =>
    unfold pump
    dsimp only
    split
    · exact settleQuiet_links p s
    · split
      · exact ((setCPort_links _ _ _).trans (emit_links _ _ _)).trans (ih _)
      · exact Links.refl s

theorem enqueue_links (p : ChainPort) (f : ChainFrame) (o : Nat) (s : State) : Links s (enqueue p f o s).2 := by
  unfold enqueue
  dsimp only
  split
  · exact Links.refl s
  · split
    · exact chainPortCount_links _ _ _
    · exact ((setCPort_links _ _ _).trans (chainPortCount_links _ _ _)).trans (pump_links _ _ _)

theorem breakHop_links (p : ChainPort) (u : Nat) (s : State) : Links s (breakHop p u s) := by
  unfold breakHop
  dsimp only
  split
  · exact Links.refl s
  · exact (setCPort_links _ _ _).trans (raise_messages _ _ _ _).links

theorem ackFrame_links (p : ChainPort) (f : ChainFrame) (s : State) : Links s (ackFrame p f s) := by
  unfold ackFrame
  exact ((emit_links _ _ _).trans (chainPortCount_links _ _ _)).trans (setCPort_links _ _ _)

theorem receive_links (p : ChainPort) (f : ChainFrame) (s : State) : Links s (receive p f s).2 := by
  unfold receive
  split
  · dsimp only
    split
    · exact chainPortCount_links _ _ _
    · exact (chainPortCount_links _ _ _).trans (ackFrame_links _ _ _)
  · extract_lets c s0
    have h0 : Links s s0 := by
      dsimp only [s0]
      split
      · exact setCPort_links _ _ _
      · exact Links.refl s
    clear_value s0
    split
    · exact h0.trans (chainPortCount_links _ _ _)
    · split
      · exact h0.trans ((chainPortCount_links _ _ _).trans (ackFrame_links _ _ _))
      · split
        · exact h0.trans ((chainPortCount_links _ _ _).trans (ackFrame_links _ _ _))
        · exact h0.trans ((chainPortCount_links _ _ _).trans (setCPort_links _ _ _))

theorem answerBroken_links (p : ChainPort) (f : ChainFrame) (s : State) : Links s (answerBroken p f s) := by
  unfold answerBroken
  dsimp only
  split
  · exact (enqueue_links _ _ _ _).trans (chainPortCount_links _ _ _)
  · exact enqueue_links _ _ _ _

theorem forwardFrame_links (p : ChainPort) (f : ChainFrame) (s : State) : Links s (forwardFrame p f s).2 := by
  unfold forwardFrame
  dsimp only
  split
  · dsimp only
    split
    · exact answerBroken_links _ _ _
    · exact chainPortCount_links _ _ _
  · exact enqueue_links _ _ _ _

/-! ### The RESPONSE -/

theorem Links.cache {a b : State} : Links a b → b.chain.cache = a.chain.cache ∧ b.tank = a.tank := by
  rintro ⟨_, _, _, _, _, _, _, _, rfl⟩
  exact ⟨rfl, rfl⟩

theorem answer_commanded (p : ChainPort) (f : ChainFrame) (st : Byte) (pl : List Byte) (hw : Bool) (s : State) :
    Commanded s (answer p f st pl hw s) := by
  unfold answer
  dsimp only
  split
  · exact (enqueue_links _ _ _ _).commanded
  · exact Commanded.trans ⟨_, _, _, _, _, Links.refl _⟩ (enqueue_links _ _ _ _).commanded

theorem answer_answered {p : ChainPort} {f : ChainFrame} {st : Byte} {pl : List Byte} {hw : Bool} {s : State} (h : st ≠ 0x10) :
    Answered f st pl (answer p f st pl hw s) := by
  unfold answer
  simp only [h, if_false]
  obtain ⟨hc, ht⟩ := Links.cache (enqueue_links
    (responsePort { s with chain := { s.chain with cache := (f.seq, responseOf s f st pl hw, s.tank.clockUs) :: s.chain.cache.take 255 } } p)
    (responseOf s f st pl hw) 0x1C
    { s with chain := { s.chain with cache := (f.seq, responseOf s f st pl hw, s.tank.clockUs) :: s.chain.cache.take 255 } })
  exact ⟨responseOf s f st pl hw, s.chain.cache.take 255, by rw [hc, ht], rfl, rfl, rfl, rfl, rfl, rfl⟩

end Sys2Proof.Machine
end

