-- ==== Sys2Proof/Laws/Map.lean ====
section
/-! SUPPORT. What the operations over tables, number sets and byte memories do: reads after writes, and that each keeps the canonical form. -/

namespace Sys2Proof.Machine

variable {β : Type}

/-! ### Reads after writes -/

@[simp] theorem Map.get_put_same (d : β) (k : Nat) (v : β) (t : Table β) : Map.get d k (Map.put k v t) = v := by
  induction t with
  | nil => simp [Map.put, Map.get]
  | cons e t ih =>
    simp only [Map.put]
    split
    · simp [Map.get]
    · split
      · simp [Map.get]
      · next h => simp only [Map.get, if_neg h, ih]

theorem Map.get_put_other (d : β) {j k : Nat} (h : j ≠ k) (v : β) (t : Table β) : Map.get d j (Map.put k v t) = Map.get d j t := by
  induction t with
  | nil => simp [Map.put, Map.get, h.symm]
  | cons e t ih =>
    simp only [Map.put]
    split
    · simp only [Map.get, if_neg h.symm]
    · split
      · next _ he => simp only [Map.get, if_neg h.symm, he]
      · simp only [Map.get, ih]

@[simp] theorem Map.get_erase_same (d : β) (k : Nat) (t : Table β) : Map.get d k (Map.erase k t) = d := by
  induction t with
  | nil => rfl
  | cons e t ih =>
    simp only [Map.erase, List.filter_cons] at ih ⊢
    split
    · next h => simp only [Map.get, if_neg (by simpa using h), ih]
    · exact ih

theorem Map.get_erase_other (d : β) {j k : Nat} (h : j ≠ k) (t : Table β) : Map.get d j (Map.erase k t) = Map.get d j t := by
  induction t with
  | nil => rfl
  | cons e t ih =>
    simp only [Map.erase, List.filter_cons] at ih ⊢
    split
    · simp only [Map.get, ih]
    · next he =>
      have : e.1 ≠ j := by simp only [bne_iff_ne, ne_eq, not_not] at he; omega
      simp only [Map.get, if_neg this, ih]

@[simp] theorem Map.get_set_same [DecidableEq β] (d : β) (k : Nat) (v : β) (t : Table β) : Map.get d k (Map.set d k v t) = v := by
  unfold Map.set; split
  · next h => rw [Map.get_erase_same, h]
  · exact Map.get_put_same d k v t

theorem Map.get_set_other [DecidableEq β] (d d' : β) {j k : Nat} (h : j ≠ k) (v : β) (t : Table β) : Map.get d j (Map.set d' k v t) = Map.get d j t := by
  unfold Map.set; split
  · exact Map.get_erase_other d h t
  · exact Map.get_put_other d h v t

@[simp] theorem Map.get_modify_same [DecidableEq β] (d : β) (k : Nat) (f : β → β) (t : Table β) : Map.get d k (Map.modify d k f t) = f (Map.get d k t) :=
  Map.get_set_same d k _ t

theorem Map.get_modify_other [DecidableEq β] (d : β) {j k : Nat} (h : j ≠ k) (f : β → β) (t : Table β) : Map.get d j (Map.modify d k f t) = Map.get d j t :=
  Map.get_set_other d d h _ t

/-! ### The canonical form of a table -/

/-- Rising keys, said of all pairs. -/
theorem Map.rising_iff (t : Table β) : Map.rising t = true ↔ t.Pairwise (fun a b => a.1 < b.1) := by
  induction t with
  | nil => simp [Map.rising]
  | cons a t ih =>
    cases t with
    | nil => simp [Map.rising]
    | cons b t =>
      simp only [Map.rising, Bool.and_eq_true, decide_eq_true_eq, ih, List.pairwise_cons, List.mem_cons]
      constructor
      · rintro ⟨h, hb, ht⟩
        exact ⟨fun x hx => hx.elim (fun e => e ▸ h) (fun m => Nat.lt_trans h (hb x m)), hb, ht⟩
      · rintro ⟨h, hb, ht⟩
        exact ⟨h b (.inl rfl), hb, ht⟩

/-- The canonical form, said of the entries. -/
theorem Map.wf_iff [DecidableEq β] (d : Nat → β) (t : Table β) : Map.wf d t = true ↔ t.Pairwise (fun a b => a.1 < b.1) ∧ ∀ e ∈ t, e.2 ≠ d e.1 := by
  simp [Map.wf, Map.rising_iff]

theorem Map.mem_put {k : Nat} {v : β} {t : Table β} {e : Nat × β} (h : e ∈ Map.put k v t) : e = (k, v) ∨ e ∈ t := by
  induction t with
  | nil => exact .inl (by simpa [Map.put] using h)
  | cons a t ih =>
    simp only [Map.put] at h
    split at h
    · exact (List.mem_cons.mp h).imp_right id
    · split at h
      · exact (List.mem_cons.mp h).imp_right (List.mem_cons_of_mem _)
      · exact (List.mem_cons.mp h).elim (fun x => .inr (x ▸ List.mem_cons_self)) (fun x => (ih x).imp_right (List.mem_cons_of_mem _))

theorem Map.wf_put [DecidableEq β] {d : Nat → β} {k : Nat} {v : β} {t : Table β} (hv : v ≠ d k) (h : Map.wf d t = true) : Map.wf d (Map.put k v t) = true := by
  rw [Map.wf_iff] at h ⊢
  obtain ⟨h, hd⟩ := h
  refine ⟨?_, fun e he => (Map.mem_put he).elim (fun x => x ▸ hv) (hd e)⟩
  clear hd
  induction t with
  | nil => simp [Map.put]
  | cons a t ih =>
    obtain ⟨ha, ht⟩ := List.pairwise_cons.mp h
    simp only [Map.put]
    split
    · next hk => exact List.pairwise_cons.mpr ⟨fun x hx => (List.mem_cons.mp hx).elim (fun e => e ▸ hk) (fun m => Nat.lt_trans hk (ha x m)), h⟩
    · split
      · next _ hk => exact List.pairwise_cons.mpr ⟨fun x hx => hk ▸ ha x hx, ht⟩
      · next hk hk' =>
        exact List.pairwise_cons.mpr ⟨fun x hx => (Map.mem_put hx).elim (fun e => by subst e; omega) (ha x), ih ht⟩

theorem Map.wf_filter [DecidableEq β] {d : Nat → β} {t : Table β} (p : Nat × β → Bool) (h : Map.wf d t = true) : Map.wf d (t.filter p) = true := by
  rw [Map.wf_iff] at h ⊢
  exact ⟨h.1.filter p, fun e he => h.2 e (List.mem_of_mem_filter he)⟩

theorem Map.wf_set [DecidableEq β] {d : Nat → β} {k : Nat} {v : β} {t : Table β} (h : Map.wf d t = true) : Map.wf d (Map.set (d k) k v t) = true := by
  unfold Map.set; split
  · exact Map.wf_filter _ h
  · next hv => exact Map.wf_put hv h

theorem Map.wf_modify [DecidableEq β] {d : β} {k : Nat} {f : β → β} {t : Table β} (h : Map.wf (fun _ => d) t = true) :
    Map.wf (fun _ => d) (Map.modify d k f t) = true := Map.wf_set h

/-! ### Number sets -/

theorem NSet.mem_add {j k : Nat} {t : NatSet} : j ∈ NSet.add k t ↔ j = k ∨ j ∈ t := by
  induction t with
  | nil => simp [NSet.add]
  | cons a t ih =>
    simp only [NSet.add]
    split
    · simp
    · split
      · next h => simp [h]
      · simp only [List.mem_cons, ih]; tauto

theorem NSet.rising_add {k : Nat} {t : NatSet} (h : t.Pairwise (· < ·)) : (NSet.add k t).Pairwise (· < ·) := by
  induction t with
  | nil => simp [NSet.add]
  | cons a t ih =>
    obtain ⟨ha, ht⟩ := List.pairwise_cons.mp h
    simp only [NSet.add]
    split
    · next hk => exact List.pairwise_cons.mpr ⟨fun x hx => (List.mem_cons.mp hx).elim (fun e => e ▸ hk) (fun m => Nat.lt_trans hk (ha x m)), h⟩
    · split
      · exact h
      · exact List.pairwise_cons.mpr ⟨fun x hx => (NSet.mem_add.mp hx).elim (fun e => by omega) (ha x), ih ht⟩

theorem NSet.rising_del {k : Nat} {t : NatSet} (h : t.Pairwise (· < ·)) : (NSet.del k t).Pairwise (· < ·) := h.filter _

@[simp] theorem NSet.has_add (k : Nat) (t : NatSet) : NSet.has k (NSet.add k t) = true := by
  simp [NSet.has, NSet.mem_add]

@[simp] theorem NSet.has_del (k : Nat) (t : NatSet) : NSet.has k (NSet.del k t) = false := by
  simp [NSet.has, NSet.del]

/-! ### Byte memories -/

theorem Memory.wf_write {d : Nat → Byte} {a : Nat} {bs : List Byte} {m : List Host.Cell} (h : Memory.wf d m = true) :
    Memory.wf d (Memory.write d a bs m) = true := by
  induction bs generalizing a m with
  | nil => exact h
  | cons b t ih => exact ih (Map.wf_set h)

theorem Memory.get_write_outside {d : Nat → Byte} {a i : Nat} {bs : List Byte} {m : List Host.Cell} (x : Byte) (h : i < a ∨ a + bs.length ≤ i) :
    Map.get x i (Memory.write d a bs m) = Map.get x i m := by
  induction bs generalizing a m with
  | nil => rfl
  | cons b t ih =>
    simp only [List.length_cons] at h
    rw [Memory.write, ih (by omega), Map.get_set_other _ _ (by omega)]

theorem Memory.get_write_inside {d : Nat → Byte} {a i : Nat} {bs : List Byte} {m : List Host.Cell} (h : i < bs.length) :
    Map.get (d (a + i)) (a + i) (Memory.write d a bs m) = (bs[i]?).getD 0 := by
  induction bs generalizing a i m with
  | nil => simp at h
  | cons b t ih =>
    cases i with
    | zero => rw [Memory.write, Memory.get_write_outside _ (by omega)]; simp
    | succ i =>
      have := ih (a := a + 1) (i := i) (m := Map.set (d a) a b m) (by simpa using h)
      rw [Memory.write, ← Nat.succ_add_eq_add_succ a i]
      simpa using this

/-- A read of what has been written gives the bytes written. -/
theorem Memory.read_write (d : Nat → Byte) (a : Nat) (bs : List Byte) (m : List Host.Cell) :
    Memory.read d a bs.length (Memory.write d a bs m) = bs := by
  apply List.ext_getElem
  · simp [Memory.read]
  · intro i h _
    have hi : i < bs.length := by simpa [Memory.read] using h
    simp only [Memory.read, List.getElem_map, List.getElem_range, Memory.get_write_inside hi]
    simp [List.getElem?_eq_getElem hi]

end Sys2Proof.Machine
end

