-- ==== Sys2Proof/Laws/Memory.lean ====
section
/-! SUPPORT. What the memory operations do: the DRAM lines read back as written and leave the others alone, the flash keeps every byte
outside what is programmed or erased, and each operation keeps the canonical form of the stored tables. -/

namespace Sys2Proof.Machine

open Sys2Proof.Safety

/-! ### Lines of the DRAM -/

theorem lineBytes_writeBytes (line o : Nat) (bs : List Byte) (s : State) :
    lineBytes (writeBytes line o bs s) line o bs.length = bs := Memory.read_write _ _ _ _

theorem lineData_writeLine (line : Nat) (bs : List Byte) (s : State) : lineData (writeLine line bs s) line = padTo 64 bs := by
  have h : (padTo 64 bs).length = 64 := by simp [padTo]
  have := lineBytes_writeBytes line 0 (padTo 64 bs) s
  rwa [h] at this

/-- A byte outside the bytes written reads as before. -/
theorem writeBytes_outside {line o a : Nat} {bs : List Byte} {s : State} (h : a < line * 64 + o ∨ line * 64 + o + bs.length ≤ a) :
    Map.get (fillByte a) a (writeBytes line o bs s).dram.data = Map.get (fillByte a) a s.dram.data := Memory.get_write_outside _ h

/-- Bytes of another line read as before. -/
theorem writeBytes_lines {line o l : Nat} {bs : List Byte} {s : State} (h : l ≠ line) (hw : o + bs.length ≤ 64) :
    lineData (writeBytes line o bs s) l = lineData s l := by
  simp only [lineData, lineBytes, Memory.read]
  refine List.map_congr_left fun i hi => ?_
  rw [List.mem_range] at hi
  exact writeBytes_outside (by omega)

@[simp] theorem isPoisoned_writeBytes (line o : Nat) (bs : List Byte) (s : State) : isPoisoned (writeBytes line o bs s) line = false :=
  NSet.has_del _ _

@[simp] theorem isPoisoned_poisonLine (line : Nat) (s : State) : isPoisoned (poisonLine line s) line = true := by
  unfold poisonLine
  split <;> exact NSet.has_add _ _

/-- Four bytes hold a word (R3). -/
theorem beNat_beBytes (w : BitVec 32) : beNat (beBytes 4 w.toNat) = w.toNat := by
  have h := w.isLt
  generalize w.toNat = n at h
  simp only [beBytes, beNat, List.range, List.range.loop, List.map_cons, List.map_nil, List.foldl_cons, List.foldl_nil, BitVec.toNat_ofNat,
    Nat.reduceMul, Nat.reduceSub, Nat.reducePow, Nat.div_one, Nat.zero_mul, Nat.zero_add] at h ⊢
  omega

theorem misreadOf_writeBytes (l o k : Nat) (bs : List Byte) (s : State) : misreadOf (writeBytes l o bs s) k = misreadOf s k := rfl

/-- What the cache holds of a line is settled with it: then the array has the line as it reads (R141). -/
theorem misreadOf_settle (line : Nat) (s : State) : misreadOf (settleMisread line s) line = none := by
  unfold settleMisread
  split
  · have h : ∀ l : List (Nat × Nat × List Byte), (l.filter (fun e => decide (e.1 ≠ line))).find? (fun e => decide (e.1 = line)) = none := by
      intro l; simp [List.find?_eq_none]
    simp only [misreadOf, dropMisread, h, Option.filter_none, Option.map_none]
  · next h => exact h

/-- Where a page word lies depends on the plan and the relief channels alone (R164, R186). -/
theorem pageWordHome_congr {s t : State} (page : Nat) (hp : t.plans = s.plans) (hr : t.relief = s.relief) : pageWordHome t page = pageWordHome s page := by
  have h : ∀ c sl, systemHome t c sl = systemHome s c sl := fun c sl => by unfold systemHome; rw [hr]
  have hq : planOf t = planOf s := by unfold planOf; rw [hp]
  simp only [pageWordHome, hq, h]

theorem settleMisread_frame (line : Nat) (s : State) : (settleMisread line s).plans = s.plans ∧ (settleMisread line s).relief = s.relief := by
  unfold settleMisread
  split
  · exact ⟨rfl, rfl⟩
  · exact ⟨rfl, rfl⟩

theorem writeBytes_frame (l o : Nat) (bs : List Byte) (s : State) :
    (writeBytes l o bs s).plans = s.plans ∧ (writeBytes l o bs s).relief = s.relief := ⟨rfl, rfl⟩

/-- Bytes of a counter line of which the cache holds nothing else read as written. -/
theorem counterBytes_write (l o : Nat) (bs : List Byte) (s : State) (h : misreadOf s l = none) : counterBytes (writeBytes l o bs s) l o bs.length = bs := by
  unfold counterBytes
  rw [misreadOf_writeBytes, h]
  exact lineBytes_writeBytes l o bs s

/-- A page word reads as written (R135, R164). -/
theorem pageWord_write (page : Nat) (w : BitVec 32) (s : State) : pageWord (writePageWord page w s) page = w := by
  unfold writePageWord
  dsimp only
  generalize hl : pageWordHome s page = l
  have hf := settleMisread_frame l.1 s
  have hm := misreadOf_settle l.1 s
  generalize settleMisread l.1 s = u at hf hm ⊢
  have hw := writeBytes_frame l.1 l.2 (beBytes 4 w.toNat) u
  have h := counterBytes_write l.1 l.2 (beBytes 4 w.toNat) u hm
  rw [show (beBytes 4 w.toNat).length = 4 by simp [beBytes]] at h
  unfold pageWord
  rw [pageWordHome_congr page (hw.1.trans hf.1) (hw.2.trans hf.2), hl]
  dsimp only
  rw [h, beNat_beBytes]
  exact BitVec.eq_of_toNat_eq (by simp)

/-! ### The canonical form is kept -/

/-- Two states with the same stored tables. -/
theorem stored_of_eq {s t : State} (h : Stored s) (hd : t.dram = s.dram) (hf : t.flash = s.flash) (ho : t.otp.cells = s.otp.cells) : Stored t := by
  unfold Stored; rw [hd, hf, ho]; exact h

theorem stored_writeBytes {s : State} (h : Stored s) (line o : Nat) (bs : List Byte) : Stored (writeBytes line o bs s) :=
  ⟨Memory.wf_write h.1, Map.wf_filter _ h.2.1, NSet.rising_del h.2.2.1, h.2.2.2⟩

theorem stored_writeLine {s : State} (h : Stored s) (line : Nat) (bs : List Byte) : Stored (writeLine line bs s) := stored_writeBytes h _ _ _

theorem stored_putPoison {s : State} (h : Stored s) (line : Nat) : Stored (putPoison line s) :=
  have hw := stored_writeLine h line (List.replicate 64 0)
  ⟨hw.1, hw.2.1, NSet.rising_add hw.2.2.1, hw.2.2.2⟩

theorem stored_poisonLine {s : State} (h : Stored s) (line : Nat) : Stored (poisonLine line s) := by
  unfold poisonLine
  split <;> exact stored_of_eq (stored_putPoison h line) rfl rfl rfl

theorem stored_settleMisread {s : State} (h : Stored s) (line : Nat) : Stored (settleMisread line s) := by
  unfold settleMisread
  split
  · exact stored_of_eq (stored_writeLine h line _) rfl rfl rfl
  · exact h

theorem stored_addUpsets {s : State} (h : Stored s) (line : Nat) (es : Errors) : Stored (addUpsets line es s) := by
  unfold addUpsets forEach
  induction es generalizing s with
  | nil => exact h
  | cons e t ih => exact ih ⟨h.1, Map.wf_modify (d := 0) (k := line * 72 + e.1.val) (f := (· ^^^ e.2)) h.2.1, h.2.2⟩

theorem stored_writePageWord {s : State} (h : Stored s) (page : Nat) (w : BitVec 32) : Stored (writePageWord page w s) :=
  stored_writeBytes (stored_settleMisread h _) _ _ _

theorem stored_writeMeta {s : State} (h : Stored s) (ch loc minor : Nat) (tag : BitVec 56) : Stored (writeMeta ch loc minor tag s) := by
  unfold writeMeta
  dsimp only
  split
  · exact stored_writeBytes (stored_writeBytes (stored_settleMisread h _) _ _ _) _ _ _
  · exact stored_writeBytes (stored_settleMisread h _) _ _ _

theorem stored_writeData {s : State} (h : Stored s) (ch loc : Nat) (ct : List Byte) : Stored (writeData ch loc ct s) := by
  unfold writeData
  dsimp only
  split
  · exact stored_writeLine (stored_writeLine h _ _) _ _
  · exact stored_writeLine h _ _

theorem stored_putPoisonData {s : State} (h : Stored s) (ch loc : Nat) : Stored (putPoisonData ch loc s) := by
  unfold putPoisonData
  split
  · exact stored_putPoison (stored_putPoison h _) _
  · exact stored_putPoison h _

theorem stored_storeLine {s : State} (h : Stored s) (ch loc dma k major minor : Nat) (bs : List Byte) :
    Stored (storeLine ch loc dma k major minor bs s) := stored_writeMeta (stored_writeData h _ _ _) _ _ _ _

/-! ### The flash -/

theorem stored_flashProgram {s : State} (h : Stored s) (o : Nat) (bs : List Byte) : Stored (flashProgram o bs s) :=
  ⟨h.1, h.2.1, h.2.2.1, Memory.wf_write h.2.2.2.1, h.2.2.2.2⟩

theorem stored_flashErase {s : State} (h : Stored s) (o n : Nat) : Stored (flashErase o n s) :=
  ⟨h.1, h.2.1, h.2.2.1, Map.wf_filter _ h.2.2.2.1, h.2.2.2.2⟩

/-- A flash byte outside what is programmed reads as before. -/
theorem flashProgram_outside {o a : Nat} {bs : List Byte} {s : State} (x : Byte) (h : a < o ∨ o + bs.length ≤ a) :
    Map.get x a (flashProgram o bs s).flash = Map.get x a s.flash := by
  refine Memory.get_write_outside x ?_
  have : (List.zipWith (fun a b => a &&& b) (flashRead s o bs.length) bs).length = bs.length := by simp [flashRead, Memory.read]
  omega

/-- After an erase the bytes of the range read as 0xFF, and the others as before. -/
theorem flashErase_get (o n a : Nat) (s : State) :
    Map.get (flashByte a) a (flashErase o n s).flash = if o ≤ a ∧ a < o + n then 0xFF else Map.get (flashByte a) a s.flash := by
  simp only [flashErase]
  induction s.flash with
  | nil => simp [Map.get, flashByte]
  | cons e t ih =>
    simp only [List.filter_cons]
    split
    · next h =>
      simp only [Map.get]
      split
      · next he => subst he; simp only [Bool.or_eq_true, decide_eq_true_eq] at h; rw [if_neg (by omega)]
      · exact ih
    · next h =>
      rw [ih]
      simp only [Bool.or_eq_true, decide_eq_true_eq] at h
      split
      · rfl
      · simp only [Map.get]; rw [if_neg (by omega)]

end Sys2Proof.Machine
end

