-- ==== Sys2Proof/Laws/Requests.lean ====
section
/-! SUPPORT. How a chain request reaches its rule: what `receive`, `runRequest` and `runCommand` come to when `Safety.Delivered` and
`Safety.Runs` hold. -/

namespace Sys2Proof.Machine

open Sys2Proof.Safety

theorem getCPort_set_same (p : ChainPort) (v : CPort) (s : State) : getCPort (setCPort p v s) p = v := by cases p <;> rfl

theorem getCPort_set_other (p : ChainPort) (v : CPort) (s : State) :
    getCPort (setCPort p v s) (otherPort p) = getCPort s (otherPort p) := by cases p <;> rfl

theorem setCPort_tank (p : ChainPort) (v : CPort) (s : State) : (setCPort p v s).tank = s.tank := by cases p <;> rfl

theorem Messages_chain {a b : State} : Messages a b → b.chain = a.chain := by
  rintro ⟨_, _, _, _, rfl⟩
  rfl

theorem chainCount_chain (o n : Nat) (s : State) : (chainCount o n s).chain = s.chain := by
  unfold chainCount
  dsimp only
  split
  · rw [Messages_chain (raise_messages _ _ _ _)]
  · rfl

/-- A count leaves both chain ports as they are. -/
theorem chainPortCount_chain (p : ChainPort) (o : Nat) (s : State) : (chainPortCount p o s).chain = s.chain :=
  chainCount_chain _ _ _

theorem getCPort_count (p q : ChainPort) (o : Nat) (s : State) : getCPort (chainPortCount p o s) q = getCPort s q := by
  cases q <;> simp [getCPort, chainPortCount_chain]

/-- A frame that passes the checks of R295 goes on to R296, and the other port is as it was. -/
theorem receive_passes {p : ChainPort} {f : ChainFrame} {s : State} (h : Passes p f s)
    (hk : f.ftype = 1 ∨ f.ftype = 2 ∨ f.ftype = 3 ∨ f.ftype = 6 ∨ f.ftype = 7)
    (hs : ¬(s.tank.addr ≠ 0 ∧ f.source.toNat = s.tank.addr.toNat)) :
    (receive p f s).1 = true ∧ getCPort (receive p f s).2 (otherPort p) = getCPort s (otherPort p) := by
  obtain ⟨_, hv, hh, hr⟩ := h
  have h8 : f.ftype ≠ 8 := by
    rcases hk with h | h | h | h | h <;> rw [h] <;> decide
  have hkt : knownType f = true := by
    rcases hk with h | h | h | h | h <;> simp [knownType, h]
  unfold receive
  rw [if_neg (by simp [hv, hkt])]
  extract_lets c s0
  have h0 : hopRepeat s0 p f = false ∧ s0.tank = s.tank ∧ getCPort s0 (otherPort p) = getCPort s (otherPort p) := by
    dsimp only [s0]
    split
    · refine ⟨?_, setCPort_tank _ _ _, getCPort_set_other _ _ _⟩
      rw [← hr]
      simp [hopRepeat, getCPort_set_same, setCPort_tank, c]
    · exact ⟨hr, rfl, rfl⟩
  clear_value s0
  obtain ⟨h1, h2, h3⟩ := h0
  rw [if_neg h8, h1, h2]
  have h4 : (decide (63 ≤ f.hops.toNat) || (decide (s.tank.addr ≠ 0) && decide (f.source.toNat = s.tank.addr.toNat))) = false := by
    simp only [Bool.or_eq_false_iff, decide_eq_false_iff_not, Bool.and_eq_false_iff]
    refine ⟨by omega, ?_⟩
    by_cases ha : s.tank.addr ≠ 0
    · exact Or.inr (fun hc => hs ⟨ha, hc⟩)
    · exact Or.inl ha
  rw [if_neg (by simp), if_neg (by rw [h4]; simp)]
  exact ⟨rfl, by rw [getCPort_set_other, getCPort_count, h3]⟩

theorem actedOn_facts {s : State} {f : ChainFrame} (h : actedOn s f = true) :
    f.source = 0 ∧ (f.ftype = 1 ∨ f.ftype = 2 ∨ f.ftype = 3) ∧ s.tank.addr ≠ 0 := by
  simp only [actedOn, isRequest, ownFrame, Bool.and_eq_true, Bool.or_eq_true, decide_eq_true_eq] at h
  refine ⟨h.1.1, by tauto, ?_⟩
  rcases h.2 with h | h
  · exact h.1
  · tauto

/-- A delivered request reaches its rule in a state that differs only in what the link itself keeps. -/
theorem runRequest_delivered {p : ChainPort} {f : ChainFrame} {s : State} (h : Delivered p f s) (act : State → State) :
    ∃ s1, Links s s1 ∧ runRequest p f act s = act s1 := by
  obtain ⟨hp, ha, hc, hb⟩ := h
  obtain ⟨hsrc, hk, haddr⟩ := actedOn_facts ha
  have hs : ¬(s.tank.addr ≠ 0 ∧ f.source.toNat = s.tank.addr.toNat) := by
    rintro ⟨h1, h2⟩
    rw [hsrc] at h2
    exact h1 (BitVec.eq_of_toNat_eq (by simpa using h2.symm))
  obtain ⟨hr, ho⟩ := receive_passes hp (by tauto) hs
  have hl := receive_links p f s
  unfold runRequest
  rw [if_neg (by simp [hp.1])]
  generalize receive p f s = r at hr ho hl
  obtain ⟨r1, r2⟩ := r
  dsimp only at hr ho hl ⊢
  subst hr
  have hw : ∃ s2, Links s s2 ∧ (if broadcast f = true then forwardFrame p f r2 else (true, r2)) = (true, s2) := by
    split
    · rename_i hbc
      have hlf := forwardFrame_links p f r2
      have : (forwardFrame p f r2).1 = true := by
        unfold forwardFrame
        dsimp only
        split
        · rfl
        · rename_i hup
          have hup' : (getCPort s (otherPort p)).up = true := by rw [ho] at hup; simpa using hup
          have hq := hb hbc hup'
          unfold enqueue
          dsimp only
          rw [ho, if_neg (by simp [hup']), if_neg (by omega)]
      exact ⟨_, hl.trans hlf, Prod.ext this rfl⟩
    · exact ⟨r2, hl, rfl⟩
  obtain ⟨s2, hl2, hw⟩ := hw
  rw [hw]
  simp only [Bool.not_true, Bool.false_eq_true, if_false]
  have hl3 := hl2.trans (ackFrame_links p f s2)
  refine ⟨ackFrame p f s2, hl3, ?_⟩
  have : cachedResponse (ackFrame p f s2) f.seq = none := by
    rw [← hc]
    obtain ⟨h1, h2⟩ := Links.cache hl3
    simp [cachedResponse, h1, h2]
  rw [this]

/-! ### The generator -/

theorem reseed_frame (s : State) : ∃ d n, reseed s = { s with drbg := d, free := n } := ⟨_, _, rfl⟩

/-- A generate request changes nothing but the generator, and draws at most one free value (R132). -/
theorem generate_frame (k : Nat) (s : State) : ∃ d n, (generate k s).2 = { s with drbg := d, free := n } := by
  unfold generate
  dsimp only
  split
  · exact ⟨_, _, rfl⟩
  · exact ⟨_, s.free, rfl⟩

theorem drawChallenge_frame (s : State) :
    ∃ d n c, drawChallenge s = { s with drbg := d, free := n, chain := { s.chain with challenge := c } } := by
  obtain ⟨d, n, h⟩ := generate_frame 128 s
  refine ⟨d, n, (generate 128 s).1, ?_⟩
  unfold drawChallenge
  dsimp only
  rw [h]

/-- A command that the core, the phase, its Length and the life cycle let through: its rule is applied, after a signed one has drawn its
new challenge. -/
theorem commandBody_runs {p : ChainPort} {f : ChainFrame} {s : State} (hcore : coreRuns s = true)
    (hph : commandPhase s.tank.phase f.code = true) (hlen : f.payload.length = commandLength f.code)
    (hlen2 : f.length.toNat = f.payload.length)
    (hgate : lifeGate s.otp.life f.code = 0 ∨ (lifeGate s.otp.life f.code = 1 ∧ authorised s f = true)) (rule : State → Reply) :
    ∃ u, Commanded s u ∧ commandBody p f rule s =
      if (rule u).status = 0x00 ∨ (rule u).status = 0x01 then
        answer p f (rule u).status (rule u).payload false (rule (journalCommand f (rule u).status (rule u).payload u)).st
      else answer p f (rule u).status (rule u).payload false (rule u).st := by
  unfold commandBody
  rcases hgate with h | ⟨h, ha⟩
  · refine ⟨s, (Links.refl s).commanded, ?_⟩
    simp [h, hcore, hph, hlen, hlen2]
  · obtain ⟨d, n, c, hd⟩ := drawChallenge_frame s
    refine ⟨drawChallenge s, ?_, ?_⟩
    · rw [hd]
      exact ⟨_, c, d, s.journal, n, Links.refl _⟩
    · have ht : (drawChallenge s).tank = s.tank := by rw [hd]
      simp [h, ha, hcore, ht, hph, hlen, hlen2]

/-- A command that runs: its rule is applied to a state that differs only in what every command touches. -/
theorem runCommand_runs {code : Byte} {p : ChainPort} {f : ChainFrame} {s : State} (h : Runs code p f s) (rule : State → Reply) :
    ∃ s1, Commanded s s1 ∧ runCommand code p f rule s =
      if (rule s1).status = 0x00 ∨ (rule s1).status = 0x01 then
        answer p f (rule s1).status (rule s1).payload false (rule (journalCommand f (rule s1).status (rule s1).payload s1)).st
      else answer p f (rule s1).status (rule s1).payload false (rule s1).st := by
  obtain ⟨h3, hcode, hd, hcore, hph, hlen, hlen2, hgate⟩ := h
  subst hcode
  obtain ⟨s1, hl, hrun⟩ := runRequest_delivered hd (commandBody p f rule)
  unfold runCommand
  rw [if_pos (by simp [h3, hd.2.1]), hrun]
  have hs : coreRuns s1 = coreRuns s ∧ s1.tank = s.tank ∧ s1.otp = s.otp ∧ authorised s1 f = authorised s f := by
    obtain ⟨x, y, z, w, i, st, cd, lr, rfl⟩ := hl
    exact ⟨rfl, rfl, rfl, rfl⟩
  obtain ⟨h1, h2, h4, h5⟩ := hs
  obtain ⟨u, hu, hb⟩ := commandBody_runs (p := p) (h1.trans hcore) (by rw [h2]; exact hph) hlen hlen2
    (by rw [h4, h5]; exact hgate) rule
  exact ⟨u, hl.commanded.trans hu, hb⟩

/-- A command whose rule answers done or accepted, in a state that differs from `u` only in what every command touches, leaves such a
state and its RESPONSE. -/
theorem runCommand_carried {code : Byte} {p : ChainPort} {f : ChainFrame} {s u : State} {rule : State → Reply} {st : Byte} {pl : List Byte}
    (h : Runs code p f s) (hst : st = 0x00 ∨ st = 0x01)
    (hr : ∀ s1, Commanded s s1 → (rule s1).status = st ∧ (rule s1).payload = pl ∧ Commanded u (rule s1).st) :
    ∃ t, runCommand code p f rule s = t ∧ Commanded u t ∧ Answered f st pl t := by
  obtain ⟨s1, h1, hrun⟩ := runCommand_runs h rule
  obtain ⟨ha, hb, _⟩ := hr s1 h1
  rw [ha, hb, if_pos hst] at hrun
  have h2 : Commanded s (journalCommand f st pl s1) := h1.trans (journalEvent_events _ _ _ _ _).commanded
  obtain ⟨_, _, hu⟩ := hr _ h2
  refine ⟨_, hrun, hu.trans (answer_commanded _ _ _ _ _ _), answer_answered ?_⟩
  rcases hst with rfl | rfl <;> decide

end Sys2Proof.Machine
end

