-- ==== Sys2Proof/Laws/State.lean ====
section
/-! SUPPORT. What each update of a record of State changes: the record reads back as written, the others as before, and every other field
of State is as it was. Each frame is one conjunction, which simp takes as one rewrite for each field. -/

namespace Sys2Proof.Machine

variable (s : State)


/-! ### Ports, lanes and queue pairs -/

@[simp] theorem getPort_set_same (p : Nat) (v : Port) : getPort (setPort p v s) p = v := Map.get_set_same _ _ _ _

theorem getPort_set_other {j p : Nat} (h : j ≠ p) (v : Port) : getPort (setPort p v s) j = getPort s j :=
  Map.get_set_other _ _ h _ _

@[simp] theorem setPort_frame (p : Nat) (v : Port) :
    (setPort p v s).pending = s.pending ∧ (setPort p v s).free = s.free ∧
    (setPort p v s).pins = s.pins ∧ (setPort p v s).tank = s.tank ∧ (setPort p v s).churn = s.churn ∧
    (setPort p v s).journal = s.journal ∧ (setPort p v s).otp = s.otp ∧ (setPort p v s).factory = s.factory ∧
    (setPort p v s).flash = s.flash ∧ (setPort p v s).plans = s.plans ∧ (setPort p v s).chain = s.chain ∧ (setPort p v s).sel = s.sel ∧
    (setPort p v s).lanes = s.lanes ∧ (setPort p v s).recal = s.recal ∧ (setPort p v s).slow = s.slow ∧ (setPort p v s).qps = s.qps ∧
    (setPort p v s).qpnPtr = s.qpnPtr ∧ (setPort p v s).qpnFreed = s.qpnFreed ∧ (setPort p v s).trackers = s.trackers ∧
    (setPort p v s).regions = s.regions ∧ (setPort p v s).genDrawn = s.genDrawn ∧ (setPort p v s).held = s.held ∧
    (setPort p v s).records = s.records ∧ (setPort p v s).keys = s.keys ∧ (setPort p v s).drbg = s.drbg ∧
    (setPort p v s).metaCache = s.metaCache ∧ (setPort p v s).pageCache = s.pageCache ∧ (setPort p v s).misread = s.misread ∧ (setPort p v s).sep = s.sep ∧
    (setPort p v s).dram = s.dram ∧ (setPort p v s).path = s.path ∧ (setPort p v s).chans = s.chans ∧ (setPort p v s).banks = s.banks ∧
    (setPort p v s).retired = s.retired ∧ (setPort p v s).retiring = s.retiring ∧ (setPort p v s).relief = s.relief ∧
    (setPort p v s).parlour = s.parlour ∧ (setPort p v s).clsCh = s.clsCh ∧ (setPort p v s).skim = s.skim ∧
    (setPort p v s).remap = s.remap ∧ (setPort p v s).retirements = s.retirements ∧ (setPort p v s).thermal = s.thermal ∧
    (setPort p v s).bist = s.bist ∧ (setPort p v s).ctr = s.ctr ∧ (setPort p v s).views = s.views ∧ (setPort p v s).stats = s.stats ∧
    (setPort p v s).dataSent = s.dataSent ∧ (setPort p v s).chainSent = s.chainSent := by
  refine ⟨rfl, rfl, rfl, rfl, rfl, rfl, rfl, rfl, rfl, rfl, rfl, rfl, rfl, rfl, rfl, rfl, rfl, rfl, rfl, rfl, rfl, rfl, rfl, rfl, rfl, rfl, rfl, rfl, rfl, rfl, rfl, rfl, rfl, rfl, rfl, rfl, rfl, rfl, rfl, rfl, rfl, rfl, rfl, rfl, rfl, rfl, rfl, rfl⟩

@[simp] theorem getLane_set_same (l : Nat) (v : Lane) : getLane (setLane l v s) l = v := Map.get_set_same _ _ _ _

theorem getLane_set_other {j l : Nat} (h : j ≠ l) (v : Lane) : getLane (setLane l v s) j = getLane s j :=
  Map.get_set_other _ _ h _ _

@[simp] theorem setLane_frame (l : Nat) (v : Lane) :
    (setLane l v s).pending = s.pending ∧ (setLane l v s).free = s.free ∧
    (setLane l v s).pins = s.pins ∧ (setLane l v s).tank = s.tank ∧ (setLane l v s).churn = s.churn ∧
    (setLane l v s).journal = s.journal ∧ (setLane l v s).otp = s.otp ∧ (setLane l v s).factory = s.factory ∧
    (setLane l v s).flash = s.flash ∧ (setLane l v s).plans = s.plans ∧ (setLane l v s).chain = s.chain ∧ (setLane l v s).sel = s.sel ∧
    (setLane l v s).ports = s.ports ∧ (setLane l v s).recal = s.recal ∧ (setLane l v s).slow = s.slow ∧ (setLane l v s).qps = s.qps ∧
    (setLane l v s).qpnPtr = s.qpnPtr ∧ (setLane l v s).qpnFreed = s.qpnFreed ∧ (setLane l v s).trackers = s.trackers ∧
    (setLane l v s).regions = s.regions ∧ (setLane l v s).genDrawn = s.genDrawn ∧ (setLane l v s).held = s.held ∧
    (setLane l v s).records = s.records ∧ (setLane l v s).keys = s.keys ∧ (setLane l v s).drbg = s.drbg ∧
    (setLane l v s).metaCache = s.metaCache ∧ (setLane l v s).pageCache = s.pageCache ∧ (setLane l v s).misread = s.misread ∧ (setLane l v s).sep = s.sep ∧
    (setLane l v s).dram = s.dram ∧ (setLane l v s).path = s.path ∧ (setLane l v s).chans = s.chans ∧ (setLane l v s).banks = s.banks ∧
    (setLane l v s).retired = s.retired ∧ (setLane l v s).retiring = s.retiring ∧ (setLane l v s).relief = s.relief ∧
    (setLane l v s).parlour = s.parlour ∧ (setLane l v s).clsCh = s.clsCh ∧ (setLane l v s).skim = s.skim ∧
    (setLane l v s).remap = s.remap ∧ (setLane l v s).retirements = s.retirements ∧ (setLane l v s).thermal = s.thermal ∧
    (setLane l v s).bist = s.bist ∧ (setLane l v s).ctr = s.ctr ∧ (setLane l v s).views = s.views ∧ (setLane l v s).stats = s.stats ∧
    (setLane l v s).dataSent = s.dataSent ∧ (setLane l v s).chainSent = s.chainSent := by
  refine ⟨rfl, rfl, rfl, rfl, rfl, rfl, rfl, rfl, rfl, rfl, rfl, rfl, rfl, rfl, rfl, rfl, rfl, rfl, rfl, rfl, rfl, rfl, rfl, rfl, rfl, rfl, rfl, rfl, rfl, rfl, rfl, rfl, rfl, rfl, rfl, rfl, rfl, rfl, rfl, rfl, rfl, rfl, rfl, rfl, rfl, rfl, rfl, rfl⟩

@[simp] theorem getQp_set_same (n : BitVec 24) (v : Qp) : getQp (setQp n v s) n = v := Map.get_set_same _ _ _ _

theorem getQp_set_other {j n : BitVec 24} (h : j ≠ n) (v : Qp) : getQp (setQp n v s) j = getQp s j :=
  Map.get_set_other _ _ (fun e => h (BitVec.eq_of_toNat_eq e)) _ _

@[simp] theorem setQp_frame (n : BitVec 24) (v : Qp) :
    (setQp n v s).pending = s.pending ∧ (setQp n v s).free = s.free ∧
    (setQp n v s).pins = s.pins ∧ (setQp n v s).tank = s.tank ∧ (setQp n v s).churn = s.churn ∧ (setQp n v s).journal = s.journal ∧
    (setQp n v s).otp = s.otp ∧ (setQp n v s).factory = s.factory ∧ (setQp n v s).flash = s.flash ∧ (setQp n v s).plans = s.plans ∧
    (setQp n v s).chain = s.chain ∧ (setQp n v s).sel = s.sel ∧ (setQp n v s).ports = s.ports ∧ (setQp n v s).lanes = s.lanes ∧
    (setQp n v s).recal = s.recal ∧ (setQp n v s).slow = s.slow ∧ (setQp n v s).qpnPtr = s.qpnPtr ∧ (setQp n v s).qpnFreed = s.qpnFreed ∧
    (setQp n v s).trackers = s.trackers ∧ (setQp n v s).regions = s.regions ∧ (setQp n v s).genDrawn = s.genDrawn ∧
    (setQp n v s).held = s.held ∧ (setQp n v s).records = s.records ∧ (setQp n v s).keys = s.keys ∧ (setQp n v s).drbg = s.drbg ∧
    (setQp n v s).metaCache = s.metaCache ∧ (setQp n v s).pageCache = s.pageCache ∧ (setQp n v s).misread = s.misread ∧ (setQp n v s).sep = s.sep ∧
    (setQp n v s).dram = s.dram ∧ (setQp n v s).path = s.path ∧ (setQp n v s).chans = s.chans ∧ (setQp n v s).banks = s.banks ∧
    (setQp n v s).retired = s.retired ∧ (setQp n v s).retiring = s.retiring ∧ (setQp n v s).relief = s.relief ∧
    (setQp n v s).parlour = s.parlour ∧ (setQp n v s).clsCh = s.clsCh ∧ (setQp n v s).skim = s.skim ∧ (setQp n v s).remap = s.remap ∧
    (setQp n v s).retirements = s.retirements ∧ (setQp n v s).thermal = s.thermal ∧ (setQp n v s).bist = s.bist ∧
    (setQp n v s).ctr = s.ctr ∧ (setQp n v s).views = s.views ∧ (setQp n v s).stats = s.stats ∧ (setQp n v s).dataSent = s.dataSent ∧
    (setQp n v s).chainSent = s.chainSent := by
  refine ⟨rfl, rfl, rfl, rfl, rfl, rfl, rfl, rfl, rfl, rfl, rfl, rfl, rfl, rfl, rfl, rfl, rfl, rfl, rfl, rfl, rfl, rfl, rfl, rfl, rfl, rfl, rfl, rfl, rfl, rfl, rfl, rfl, rfl, rfl, rfl, rfl, rfl, rfl, rfl, rfl, rfl, rfl, rfl, rfl, rfl, rfl, rfl, rfl⟩


/-! ### Regions and keys -/

@[simp] theorem getRegion_set_same (i : Nat) (v : Region) : getRegion (setRegion i v s) i = v := Map.get_set_same _ _ _ _

theorem getRegion_set_other {j i : Nat} (h : j ≠ i) (v : Region) : getRegion (setRegion i v s) j = getRegion s j :=
  Map.get_set_other _ _ h _ _

@[simp] theorem setRegion_frame (i : Nat) (v : Region) :
    (setRegion i v s).pending = s.pending ∧ (setRegion i v s).free = s.free ∧
    (setRegion i v s).pins = s.pins ∧ (setRegion i v s).tank = s.tank ∧ (setRegion i v s).churn = s.churn ∧
    (setRegion i v s).journal = s.journal ∧ (setRegion i v s).otp = s.otp ∧ (setRegion i v s).factory = s.factory ∧
    (setRegion i v s).flash = s.flash ∧ (setRegion i v s).plans = s.plans ∧ (setRegion i v s).chain = s.chain ∧
    (setRegion i v s).sel = s.sel ∧ (setRegion i v s).ports = s.ports ∧ (setRegion i v s).lanes = s.lanes ∧
    (setRegion i v s).recal = s.recal ∧ (setRegion i v s).slow = s.slow ∧ (setRegion i v s).qps = s.qps ∧
    (setRegion i v s).qpnPtr = s.qpnPtr ∧ (setRegion i v s).qpnFreed = s.qpnFreed ∧ (setRegion i v s).trackers = s.trackers ∧
    (setRegion i v s).genDrawn = s.genDrawn ∧ (setRegion i v s).held = s.held ∧ (setRegion i v s).records = s.records ∧
    (setRegion i v s).keys = s.keys ∧ (setRegion i v s).drbg = s.drbg ∧ (setRegion i v s).metaCache = s.metaCache ∧
    (setRegion i v s).pageCache = s.pageCache ∧ (setRegion i v s).misread = s.misread ∧ (setRegion i v s).sep = s.sep ∧ (setRegion i v s).dram = s.dram ∧
    (setRegion i v s).path = s.path ∧ (setRegion i v s).chans = s.chans ∧ (setRegion i v s).banks = s.banks ∧
    (setRegion i v s).retired = s.retired ∧ (setRegion i v s).retiring = s.retiring ∧ (setRegion i v s).relief = s.relief ∧
    (setRegion i v s).parlour = s.parlour ∧ (setRegion i v s).clsCh = s.clsCh ∧ (setRegion i v s).skim = s.skim ∧
    (setRegion i v s).remap = s.remap ∧ (setRegion i v s).retirements = s.retirements ∧ (setRegion i v s).thermal = s.thermal ∧
    (setRegion i v s).bist = s.bist ∧ (setRegion i v s).ctr = s.ctr ∧ (setRegion i v s).views = s.views ∧
    (setRegion i v s).stats = s.stats ∧ (setRegion i v s).dataSent = s.dataSent ∧ (setRegion i v s).chainSent = s.chainSent := by
  refine ⟨rfl, rfl, rfl, rfl, rfl, rfl, rfl, rfl, rfl, rfl, rfl, rfl, rfl, rfl, rfl, rfl, rfl, rfl, rfl, rfl, rfl, rfl, rfl, rfl, rfl, rfl, rfl, rfl, rfl, rfl, rfl, rfl, rfl, rfl, rfl, rfl, rfl, rfl, rfl, rfl, rfl, rfl, rfl, rfl, rfl, rfl, rfl, rfl⟩

@[simp] theorem getKey_set_same (k : Nat) (v : KeySlot) : getKey (setKey k v s) k = v := Map.get_set_same _ _ _ _

theorem getKey_set_other {j k : Nat} (h : j ≠ k) (v : KeySlot) : getKey (setKey k v s) j = getKey s j :=
  Map.get_set_other _ _ h _ _

@[simp] theorem setKey_frame (k : Nat) (v : KeySlot) :
    (setKey k v s).pending = s.pending ∧ (setKey k v s).free = s.free ∧
    (setKey k v s).pins = s.pins ∧ (setKey k v s).tank = s.tank ∧ (setKey k v s).churn = s.churn ∧ (setKey k v s).journal = s.journal ∧
    (setKey k v s).otp = s.otp ∧ (setKey k v s).factory = s.factory ∧ (setKey k v s).flash = s.flash ∧ (setKey k v s).plans = s.plans ∧
    (setKey k v s).chain = s.chain ∧ (setKey k v s).sel = s.sel ∧ (setKey k v s).ports = s.ports ∧ (setKey k v s).lanes = s.lanes ∧
    (setKey k v s).recal = s.recal ∧ (setKey k v s).slow = s.slow ∧ (setKey k v s).qps = s.qps ∧ (setKey k v s).qpnPtr = s.qpnPtr ∧
    (setKey k v s).qpnFreed = s.qpnFreed ∧ (setKey k v s).trackers = s.trackers ∧ (setKey k v s).regions = s.regions ∧
    (setKey k v s).genDrawn = s.genDrawn ∧ (setKey k v s).held = s.held ∧ (setKey k v s).records = s.records ∧
    (setKey k v s).drbg = s.drbg ∧ (setKey k v s).metaCache = s.metaCache ∧ (setKey k v s).pageCache = s.pageCache ∧ (setKey k v s).misread = s.misread ∧
    (setKey k v s).sep = s.sep ∧ (setKey k v s).dram = s.dram ∧ (setKey k v s).path = s.path ∧ (setKey k v s).chans = s.chans ∧
    (setKey k v s).banks = s.banks ∧ (setKey k v s).retired = s.retired ∧ (setKey k v s).retiring = s.retiring ∧
    (setKey k v s).relief = s.relief ∧ (setKey k v s).parlour = s.parlour ∧ (setKey k v s).clsCh = s.clsCh ∧
    (setKey k v s).skim = s.skim ∧ (setKey k v s).remap = s.remap ∧ (setKey k v s).retirements = s.retirements ∧
    (setKey k v s).thermal = s.thermal ∧ (setKey k v s).bist = s.bist ∧ (setKey k v s).ctr = s.ctr ∧ (setKey k v s).views = s.views ∧
    (setKey k v s).stats = s.stats ∧ (setKey k v s).dataSent = s.dataSent ∧ (setKey k v s).chainSent = s.chainSent := by
  refine ⟨rfl, rfl, rfl, rfl, rfl, rfl, rfl, rfl, rfl, rfl, rfl, rfl, rfl, rfl, rfl, rfl, rfl, rfl, rfl, rfl, rfl, rfl, rfl, rfl, rfl, rfl, rfl, rfl, rfl, rfl, rfl, rfl, rfl, rfl, rfl, rfl, rfl, rfl, rfl, rfl, rfl, rfl, rfl, rfl, rfl, rfl, rfl, rfl⟩


/-! ### Channel engines -/

@[simp] theorem getChan_set_same (c : Nat) (v : Chan) : getChan (setChan c v s) c = v := Map.get_set_same _ _ _ _

theorem getChan_set_other {j c : Nat} (h : j ≠ c) (v : Chan) : getChan (setChan c v s) j = getChan s j :=
  Map.get_set_other _ _ h _ _

@[simp] theorem setChan_frame (c : Nat) (v : Chan) :
    (setChan c v s).pending = s.pending ∧ (setChan c v s).free = s.free ∧
    (setChan c v s).pins = s.pins ∧ (setChan c v s).tank = s.tank ∧ (setChan c v s).churn = s.churn ∧
    (setChan c v s).journal = s.journal ∧ (setChan c v s).otp = s.otp ∧ (setChan c v s).factory = s.factory ∧
    (setChan c v s).flash = s.flash ∧ (setChan c v s).plans = s.plans ∧ (setChan c v s).chain = s.chain ∧ (setChan c v s).sel = s.sel ∧
    (setChan c v s).ports = s.ports ∧ (setChan c v s).lanes = s.lanes ∧ (setChan c v s).recal = s.recal ∧ (setChan c v s).slow = s.slow ∧
    (setChan c v s).qps = s.qps ∧ (setChan c v s).qpnPtr = s.qpnPtr ∧ (setChan c v s).qpnFreed = s.qpnFreed ∧
    (setChan c v s).trackers = s.trackers ∧ (setChan c v s).regions = s.regions ∧ (setChan c v s).genDrawn = s.genDrawn ∧
    (setChan c v s).held = s.held ∧ (setChan c v s).records = s.records ∧ (setChan c v s).keys = s.keys ∧ (setChan c v s).drbg = s.drbg ∧
    (setChan c v s).metaCache = s.metaCache ∧ (setChan c v s).pageCache = s.pageCache ∧ (setChan c v s).misread = s.misread ∧ (setChan c v s).sep = s.sep ∧
    (setChan c v s).dram = s.dram ∧ (setChan c v s).path = s.path ∧ (setChan c v s).banks = s.banks ∧
    (setChan c v s).retired = s.retired ∧ (setChan c v s).retiring = s.retiring ∧ (setChan c v s).relief = s.relief ∧
    (setChan c v s).parlour = s.parlour ∧ (setChan c v s).clsCh = s.clsCh ∧ (setChan c v s).skim = s.skim ∧
    (setChan c v s).remap = s.remap ∧ (setChan c v s).retirements = s.retirements ∧ (setChan c v s).thermal = s.thermal ∧
    (setChan c v s).bist = s.bist ∧ (setChan c v s).ctr = s.ctr ∧ (setChan c v s).views = s.views ∧ (setChan c v s).stats = s.stats ∧
    (setChan c v s).dataSent = s.dataSent ∧ (setChan c v s).chainSent = s.chainSent := by
  refine ⟨rfl, rfl, rfl, rfl, rfl, rfl, rfl, rfl, rfl, rfl, rfl, rfl, rfl, rfl, rfl, rfl, rfl, rfl, rfl, rfl, rfl, rfl, rfl, rfl, rfl, rfl, rfl, rfl, rfl, rfl, rfl, rfl, rfl, rfl, rfl, rfl, rfl, rfl, rfl, rfl, rfl, rfl, rfl, rfl, rfl, rfl, rfl, rfl⟩

@[simp] theorem getParlour_set_same (ch : Nat) (v : Parlour) : getParlour (setParlour ch v s) ch = v := Map.get_set_same _ _ _ _

theorem getParlour_set_other {j ch : Nat} (h : j ≠ ch) (v : Parlour) : getParlour (setParlour ch v s) j = getParlour s j :=
  Map.get_set_other _ _ h _ _

@[simp] theorem setParlour_frame (ch : Nat) (v : Parlour) :
    (setParlour ch v s).pending = s.pending ∧
    (setParlour ch v s).free = s.free ∧ (setParlour ch v s).pins = s.pins ∧ (setParlour ch v s).tank = s.tank ∧
    (setParlour ch v s).churn = s.churn ∧ (setParlour ch v s).journal = s.journal ∧ (setParlour ch v s).otp = s.otp ∧
    (setParlour ch v s).factory = s.factory ∧ (setParlour ch v s).flash = s.flash ∧ (setParlour ch v s).plans = s.plans ∧
    (setParlour ch v s).chain = s.chain ∧ (setParlour ch v s).sel = s.sel ∧ (setParlour ch v s).ports = s.ports ∧
    (setParlour ch v s).lanes = s.lanes ∧ (setParlour ch v s).recal = s.recal ∧ (setParlour ch v s).slow = s.slow ∧
    (setParlour ch v s).qps = s.qps ∧ (setParlour ch v s).qpnPtr = s.qpnPtr ∧ (setParlour ch v s).qpnFreed = s.qpnFreed ∧
    (setParlour ch v s).trackers = s.trackers ∧ (setParlour ch v s).regions = s.regions ∧ (setParlour ch v s).genDrawn = s.genDrawn ∧
    (setParlour ch v s).held = s.held ∧ (setParlour ch v s).records = s.records ∧ (setParlour ch v s).keys = s.keys ∧
    (setParlour ch v s).drbg = s.drbg ∧ (setParlour ch v s).metaCache = s.metaCache ∧ (setParlour ch v s).pageCache = s.pageCache ∧ (setParlour ch v s).misread = s.misread ∧
    (setParlour ch v s).sep = s.sep ∧ (setParlour ch v s).dram = s.dram ∧ (setParlour ch v s).path = s.path ∧
    (setParlour ch v s).chans = s.chans ∧ (setParlour ch v s).banks = s.banks ∧ (setParlour ch v s).retired = s.retired ∧
    (setParlour ch v s).retiring = s.retiring ∧ (setParlour ch v s).relief = s.relief ∧ (setParlour ch v s).clsCh = s.clsCh ∧
    (setParlour ch v s).skim = s.skim ∧ (setParlour ch v s).remap = s.remap ∧ (setParlour ch v s).retirements = s.retirements ∧
    (setParlour ch v s).thermal = s.thermal ∧ (setParlour ch v s).bist = s.bist ∧ (setParlour ch v s).ctr = s.ctr ∧
    (setParlour ch v s).views = s.views ∧ (setParlour ch v s).stats = s.stats ∧ (setParlour ch v s).dataSent = s.dataSent ∧
    (setParlour ch v s).chainSent = s.chainSent := by
  refine ⟨rfl, rfl, rfl, rfl, rfl, rfl, rfl, rfl, rfl, rfl, rfl, rfl, rfl, rfl, rfl, rfl, rfl, rfl, rfl, rfl, rfl, rfl, rfl, rfl, rfl, rfl, rfl, rfl, rfl, rfl, rfl, rfl, rfl, rfl, rfl, rfl, rfl, rfl, rfl, rfl, rfl, rfl, rfl, rfl, rfl, rfl, rfl, rfl⟩

@[simp] theorem getBank_set_same (ch b : Nat) (v : DBank) : getBank (setBank ch b v s) ch b = v := Map.get_set_same _ _ _ _

theorem getBank_set_other {ch ch' b b' : Nat} (h : ch' * 32 + b' ≠ ch * 32 + b) (v : DBank) :
    getBank (setBank ch b v s) ch' b' = getBank s ch' b' := Map.get_set_other _ _ h _ _

@[simp] theorem setBank_frame (ch b : Nat) (v : DBank) :
    (setBank ch b v s).pending = s.pending ∧ (setBank ch b v s).free = s.free ∧
    (setBank ch b v s).pins = s.pins ∧ (setBank ch b v s).tank = s.tank ∧ (setBank ch b v s).churn = s.churn ∧
    (setBank ch b v s).journal = s.journal ∧ (setBank ch b v s).otp = s.otp ∧ (setBank ch b v s).factory = s.factory ∧
    (setBank ch b v s).flash = s.flash ∧ (setBank ch b v s).plans = s.plans ∧ (setBank ch b v s).chain = s.chain ∧
    (setBank ch b v s).sel = s.sel ∧ (setBank ch b v s).ports = s.ports ∧ (setBank ch b v s).lanes = s.lanes ∧
    (setBank ch b v s).recal = s.recal ∧ (setBank ch b v s).slow = s.slow ∧ (setBank ch b v s).qps = s.qps ∧
    (setBank ch b v s).qpnPtr = s.qpnPtr ∧ (setBank ch b v s).qpnFreed = s.qpnFreed ∧ (setBank ch b v s).trackers = s.trackers ∧
    (setBank ch b v s).regions = s.regions ∧ (setBank ch b v s).genDrawn = s.genDrawn ∧ (setBank ch b v s).held = s.held ∧
    (setBank ch b v s).records = s.records ∧ (setBank ch b v s).keys = s.keys ∧ (setBank ch b v s).drbg = s.drbg ∧
    (setBank ch b v s).metaCache = s.metaCache ∧ (setBank ch b v s).pageCache = s.pageCache ∧ (setBank ch b v s).misread = s.misread ∧ (setBank ch b v s).sep = s.sep ∧
    (setBank ch b v s).dram = s.dram ∧ (setBank ch b v s).path = s.path ∧ (setBank ch b v s).chans = s.chans ∧
    (setBank ch b v s).retired = s.retired ∧ (setBank ch b v s).retiring = s.retiring ∧ (setBank ch b v s).relief = s.relief ∧
    (setBank ch b v s).parlour = s.parlour ∧ (setBank ch b v s).clsCh = s.clsCh ∧ (setBank ch b v s).skim = s.skim ∧
    (setBank ch b v s).remap = s.remap ∧ (setBank ch b v s).retirements = s.retirements ∧ (setBank ch b v s).thermal = s.thermal ∧
    (setBank ch b v s).bist = s.bist ∧ (setBank ch b v s).ctr = s.ctr ∧ (setBank ch b v s).views = s.views ∧
    (setBank ch b v s).stats = s.stats ∧ (setBank ch b v s).dataSent = s.dataSent ∧ (setBank ch b v s).chainSent = s.chainSent := by
  refine ⟨rfl, rfl, rfl, rfl, rfl, rfl, rfl, rfl, rfl, rfl, rfl, rfl, rfl, rfl, rfl, rfl, rfl, rfl, rfl, rfl, rfl, rfl, rfl, rfl, rfl, rfl, rfl, rfl, rfl, rfl, rfl, rfl, rfl, rfl, rfl, rfl, rfl, rfl, rfl, rfl, rfl, rfl, rfl, rfl, rfl, rfl, rfl, rfl⟩

@[simp] theorem getCls_set_same (ch c : Nat) (v : ClsCh) : getCls (setCls ch c v s) ch c = v := Map.get_set_same _ _ _ _

theorem getCls_set_other {ch ch' c c' : Nat} (h : ch' * 16 + c' ≠ ch * 16 + c) (v : ClsCh) :
    getCls (setCls ch c v s) ch' c' = getCls s ch' c' := Map.get_set_other _ _ h _ _

@[simp] theorem setCls_frame (ch c : Nat) (v : ClsCh) :
    (setCls ch c v s).pending = s.pending ∧ (setCls ch c v s).free = s.free ∧
    (setCls ch c v s).pins = s.pins ∧ (setCls ch c v s).tank = s.tank ∧ (setCls ch c v s).churn = s.churn ∧
    (setCls ch c v s).journal = s.journal ∧ (setCls ch c v s).otp = s.otp ∧ (setCls ch c v s).factory = s.factory ∧
    (setCls ch c v s).flash = s.flash ∧ (setCls ch c v s).plans = s.plans ∧ (setCls ch c v s).chain = s.chain ∧
    (setCls ch c v s).sel = s.sel ∧ (setCls ch c v s).ports = s.ports ∧ (setCls ch c v s).lanes = s.lanes ∧
    (setCls ch c v s).recal = s.recal ∧ (setCls ch c v s).slow = s.slow ∧ (setCls ch c v s).qps = s.qps ∧
    (setCls ch c v s).qpnPtr = s.qpnPtr ∧ (setCls ch c v s).qpnFreed = s.qpnFreed ∧ (setCls ch c v s).trackers = s.trackers ∧
    (setCls ch c v s).regions = s.regions ∧ (setCls ch c v s).genDrawn = s.genDrawn ∧ (setCls ch c v s).held = s.held ∧
    (setCls ch c v s).records = s.records ∧ (setCls ch c v s).keys = s.keys ∧ (setCls ch c v s).drbg = s.drbg ∧
    (setCls ch c v s).metaCache = s.metaCache ∧ (setCls ch c v s).pageCache = s.pageCache ∧ (setCls ch c v s).misread = s.misread ∧ (setCls ch c v s).sep = s.sep ∧
    (setCls ch c v s).dram = s.dram ∧ (setCls ch c v s).path = s.path ∧ (setCls ch c v s).chans = s.chans ∧
    (setCls ch c v s).banks = s.banks ∧ (setCls ch c v s).retired = s.retired ∧ (setCls ch c v s).retiring = s.retiring ∧
    (setCls ch c v s).relief = s.relief ∧ (setCls ch c v s).parlour = s.parlour ∧ (setCls ch c v s).skim = s.skim ∧
    (setCls ch c v s).remap = s.remap ∧ (setCls ch c v s).retirements = s.retirements ∧ (setCls ch c v s).thermal = s.thermal ∧
    (setCls ch c v s).bist = s.bist ∧ (setCls ch c v s).ctr = s.ctr ∧ (setCls ch c v s).views = s.views ∧
    (setCls ch c v s).stats = s.stats ∧ (setCls ch c v s).dataSent = s.dataSent ∧ (setCls ch c v s).chainSent = s.chainSent := by
  refine ⟨rfl, rfl, rfl, rfl, rfl, rfl, rfl, rfl, rfl, rfl, rfl, rfl, rfl, rfl, rfl, rfl, rfl, rfl, rfl, rfl, rfl, rfl, rfl, rfl, rfl, rfl, rfl, rfl, rfl, rfl, rfl, rfl, rfl, rfl, rfl, rfl, rfl, rfl, rfl, rfl, rfl, rfl, rfl, rfl, rfl, rfl, rfl, rfl⟩


/-! ### The memory path -/

@[simp] theorem classQ_set_same (ch c : Nat) (l : List LineReq) : classQ (setClassQ ch c l s) ch c = l := Map.get_set_same _ _ _ _

theorem classQ_set_other {ch ch' c c' : Nat} (h : ch' * 16 + c' ≠ ch * 16 + c) (l : List LineReq) :
    classQ (setClassQ ch c l s) ch' c' = classQ s ch' c' := Map.get_set_other _ _ h _ _

@[simp] theorem setClassQ_frame (ch c : Nat) (l : List LineReq) :
    (setClassQ ch c l s).pending = s.pending ∧
    (setClassQ ch c l s).free = s.free ∧ (setClassQ ch c l s).pins = s.pins ∧ (setClassQ ch c l s).tank = s.tank ∧
    (setClassQ ch c l s).churn = s.churn ∧ (setClassQ ch c l s).journal = s.journal ∧ (setClassQ ch c l s).otp = s.otp ∧
    (setClassQ ch c l s).factory = s.factory ∧ (setClassQ ch c l s).flash = s.flash ∧ (setClassQ ch c l s).plans = s.plans ∧
    (setClassQ ch c l s).chain = s.chain ∧ (setClassQ ch c l s).sel = s.sel ∧ (setClassQ ch c l s).ports = s.ports ∧
    (setClassQ ch c l s).lanes = s.lanes ∧ (setClassQ ch c l s).recal = s.recal ∧ (setClassQ ch c l s).slow = s.slow ∧
    (setClassQ ch c l s).qps = s.qps ∧ (setClassQ ch c l s).qpnPtr = s.qpnPtr ∧ (setClassQ ch c l s).qpnFreed = s.qpnFreed ∧
    (setClassQ ch c l s).trackers = s.trackers ∧ (setClassQ ch c l s).regions = s.regions ∧
    (setClassQ ch c l s).genDrawn = s.genDrawn ∧ (setClassQ ch c l s).held = s.held ∧ (setClassQ ch c l s).records = s.records ∧
    (setClassQ ch c l s).keys = s.keys ∧ (setClassQ ch c l s).drbg = s.drbg ∧ (setClassQ ch c l s).metaCache = s.metaCache ∧
    (setClassQ ch c l s).pageCache = s.pageCache ∧ (setClassQ ch c l s).misread = s.misread ∧ (setClassQ ch c l s).sep = s.sep ∧ (setClassQ ch c l s).dram = s.dram ∧
    (setClassQ ch c l s).chans = s.chans ∧ (setClassQ ch c l s).banks = s.banks ∧ (setClassQ ch c l s).retired = s.retired ∧
    (setClassQ ch c l s).retiring = s.retiring ∧ (setClassQ ch c l s).relief = s.relief ∧ (setClassQ ch c l s).parlour = s.parlour ∧
    (setClassQ ch c l s).clsCh = s.clsCh ∧ (setClassQ ch c l s).skim = s.skim ∧ (setClassQ ch c l s).remap = s.remap ∧
    (setClassQ ch c l s).retirements = s.retirements ∧ (setClassQ ch c l s).thermal = s.thermal ∧ (setClassQ ch c l s).bist = s.bist ∧
    (setClassQ ch c l s).ctr = s.ctr ∧ (setClassQ ch c l s).views = s.views ∧ (setClassQ ch c l s).stats = s.stats ∧
    (setClassQ ch c l s).dataSent = s.dataSent ∧ (setClassQ ch c l s).chainSent = s.chainSent ∧
    (setClassQ ch c l s).path.bankQ = s.path.bankQ ∧ (setClassQ ch c l s).path.backlog = s.path.backlog ∧
    (setClassQ ch c l s).path.inFlight = s.path.inFlight ∧ (setClassQ ch c l s).path.inCrypto = s.path.inCrypto ∧
    (setClassQ ch c l s).path.halves = s.path.halves ∧ (setClassQ ch c l s).path.locks = s.path.locks ∧
    (setClassQ ch c l s).path.served = s.path.served ∧ (setClassQ ch c l s).path.roundKeys = s.path.roundKeys := by
  refine ⟨rfl, rfl, rfl, rfl, rfl, rfl, rfl, rfl, rfl, rfl, rfl, rfl, rfl, rfl, rfl, rfl, rfl, rfl, rfl, rfl, rfl, rfl, rfl, rfl, rfl, rfl, rfl, rfl, rfl, rfl, rfl, rfl, rfl, rfl, rfl, rfl, rfl, rfl, rfl, rfl, rfl, rfl, rfl, rfl, rfl, rfl, rfl, rfl, rfl, rfl, rfl, rfl, rfl, rfl, rfl, rfl⟩

@[simp] theorem bankQ_set_same (ch b : Nat) (l : List BankEntry) : bankQ (setBankQ ch b l s) ch b = l := Map.get_set_same _ _ _ _

theorem bankQ_set_other {ch ch' b b' : Nat} (h : ch' * 32 + b' ≠ ch * 32 + b) (l : List BankEntry) :
    bankQ (setBankQ ch b l s) ch' b' = bankQ s ch' b' := Map.get_set_other _ _ h _ _

@[simp] theorem setBankQ_frame (ch b : Nat) (l : List BankEntry) :
    (setBankQ ch b l s).pending = s.pending ∧
    (setBankQ ch b l s).free = s.free ∧ (setBankQ ch b l s).pins = s.pins ∧ (setBankQ ch b l s).tank = s.tank ∧
    (setBankQ ch b l s).churn = s.churn ∧ (setBankQ ch b l s).journal = s.journal ∧ (setBankQ ch b l s).otp = s.otp ∧
    (setBankQ ch b l s).factory = s.factory ∧ (setBankQ ch b l s).flash = s.flash ∧ (setBankQ ch b l s).plans = s.plans ∧
    (setBankQ ch b l s).chain = s.chain ∧ (setBankQ ch b l s).sel = s.sel ∧ (setBankQ ch b l s).ports = s.ports ∧
    (setBankQ ch b l s).lanes = s.lanes ∧ (setBankQ ch b l s).recal = s.recal ∧ (setBankQ ch b l s).slow = s.slow ∧
    (setBankQ ch b l s).qps = s.qps ∧ (setBankQ ch b l s).qpnPtr = s.qpnPtr ∧ (setBankQ ch b l s).qpnFreed = s.qpnFreed ∧
    (setBankQ ch b l s).trackers = s.trackers ∧ (setBankQ ch b l s).regions = s.regions ∧ (setBankQ ch b l s).genDrawn = s.genDrawn ∧
    (setBankQ ch b l s).held = s.held ∧ (setBankQ ch b l s).records = s.records ∧ (setBankQ ch b l s).keys = s.keys ∧
    (setBankQ ch b l s).drbg = s.drbg ∧ (setBankQ ch b l s).metaCache = s.metaCache ∧ (setBankQ ch b l s).pageCache = s.pageCache ∧ (setBankQ ch b l s).misread = s.misread ∧
    (setBankQ ch b l s).sep = s.sep ∧ (setBankQ ch b l s).dram = s.dram ∧ (setBankQ ch b l s).chans = s.chans ∧
    (setBankQ ch b l s).banks = s.banks ∧ (setBankQ ch b l s).retired = s.retired ∧ (setBankQ ch b l s).retiring = s.retiring ∧
    (setBankQ ch b l s).relief = s.relief ∧ (setBankQ ch b l s).parlour = s.parlour ∧ (setBankQ ch b l s).clsCh = s.clsCh ∧
    (setBankQ ch b l s).skim = s.skim ∧ (setBankQ ch b l s).remap = s.remap ∧ (setBankQ ch b l s).retirements = s.retirements ∧
    (setBankQ ch b l s).thermal = s.thermal ∧ (setBankQ ch b l s).bist = s.bist ∧ (setBankQ ch b l s).ctr = s.ctr ∧
    (setBankQ ch b l s).views = s.views ∧ (setBankQ ch b l s).stats = s.stats ∧ (setBankQ ch b l s).dataSent = s.dataSent ∧
    (setBankQ ch b l s).chainSent = s.chainSent ∧ (setBankQ ch b l s).path.classQ = s.path.classQ ∧
    (setBankQ ch b l s).path.backlog = s.path.backlog ∧ (setBankQ ch b l s).path.inFlight = s.path.inFlight ∧
    (setBankQ ch b l s).path.inCrypto = s.path.inCrypto ∧ (setBankQ ch b l s).path.halves = s.path.halves ∧
    (setBankQ ch b l s).path.locks = s.path.locks ∧
    (setBankQ ch b l s).path.served = s.path.served ∧ (setBankQ ch b l s).path.roundKeys = s.path.roundKeys := by
  refine ⟨rfl, rfl, rfl, rfl, rfl, rfl, rfl, rfl, rfl, rfl, rfl, rfl, rfl, rfl, rfl, rfl, rfl, rfl, rfl, rfl, rfl, rfl, rfl, rfl, rfl, rfl, rfl, rfl, rfl, rfl, rfl, rfl, rfl, rfl, rfl, rfl, rfl, rfl, rfl, rfl, rfl, rfl, rfl, rfl, rfl, rfl, rfl, rfl, rfl, rfl, rfl, rfl, rfl, rfl, rfl, rfl⟩

@[simp] theorem inFlight_set_same (ch : Nat) (l : List Burst) : inFlight (setInFlight ch l s) ch = l := Map.get_set_same _ _ _ _

theorem inFlight_set_other {j ch : Nat} (h : j ≠ ch) (l : List Burst) : inFlight (setInFlight ch l s) j = inFlight s j := Map.get_set_other _ _ h _ _

@[simp] theorem setInFlight_frame (ch : Nat) (l : List Burst) :
    (setInFlight ch l s).pending = s.pending ∧
    (setInFlight ch l s).free = s.free ∧ (setInFlight ch l s).pins = s.pins ∧ (setInFlight ch l s).tank = s.tank ∧
    (setInFlight ch l s).churn = s.churn ∧ (setInFlight ch l s).journal = s.journal ∧ (setInFlight ch l s).otp = s.otp ∧
    (setInFlight ch l s).factory = s.factory ∧ (setInFlight ch l s).flash = s.flash ∧ (setInFlight ch l s).plans = s.plans ∧
    (setInFlight ch l s).chain = s.chain ∧ (setInFlight ch l s).sel = s.sel ∧ (setInFlight ch l s).ports = s.ports ∧
    (setInFlight ch l s).lanes = s.lanes ∧ (setInFlight ch l s).recal = s.recal ∧ (setInFlight ch l s).slow = s.slow ∧
    (setInFlight ch l s).qps = s.qps ∧ (setInFlight ch l s).qpnPtr = s.qpnPtr ∧ (setInFlight ch l s).qpnFreed = s.qpnFreed ∧
    (setInFlight ch l s).trackers = s.trackers ∧ (setInFlight ch l s).regions = s.regions ∧
    (setInFlight ch l s).genDrawn = s.genDrawn ∧ (setInFlight ch l s).held = s.held ∧ (setInFlight ch l s).records = s.records ∧
    (setInFlight ch l s).keys = s.keys ∧ (setInFlight ch l s).drbg = s.drbg ∧ (setInFlight ch l s).metaCache = s.metaCache ∧
    (setInFlight ch l s).pageCache = s.pageCache ∧ (setInFlight ch l s).misread = s.misread ∧ (setInFlight ch l s).sep = s.sep ∧ (setInFlight ch l s).dram = s.dram ∧
    (setInFlight ch l s).chans = s.chans ∧ (setInFlight ch l s).banks = s.banks ∧ (setInFlight ch l s).retired = s.retired ∧
    (setInFlight ch l s).retiring = s.retiring ∧ (setInFlight ch l s).relief = s.relief ∧ (setInFlight ch l s).parlour = s.parlour ∧
    (setInFlight ch l s).clsCh = s.clsCh ∧ (setInFlight ch l s).skim = s.skim ∧ (setInFlight ch l s).remap = s.remap ∧
    (setInFlight ch l s).retirements = s.retirements ∧ (setInFlight ch l s).thermal = s.thermal ∧ (setInFlight ch l s).bist = s.bist ∧
    (setInFlight ch l s).ctr = s.ctr ∧ (setInFlight ch l s).views = s.views ∧ (setInFlight ch l s).stats = s.stats ∧
    (setInFlight ch l s).dataSent = s.dataSent ∧ (setInFlight ch l s).chainSent = s.chainSent ∧
    (setInFlight ch l s).path.classQ = s.path.classQ ∧ (setInFlight ch l s).path.bankQ = s.path.bankQ ∧
    (setInFlight ch l s).path.backlog = s.path.backlog ∧ (setInFlight ch l s).path.inCrypto = s.path.inCrypto ∧
    (setInFlight ch l s).path.halves = s.path.halves ∧ (setInFlight ch l s).path.locks = s.path.locks ∧
    (setInFlight ch l s).path.served = s.path.served ∧ (setInFlight ch l s).path.roundKeys = s.path.roundKeys := by
  refine ⟨rfl, rfl, rfl, rfl, rfl, rfl, rfl, rfl, rfl, rfl, rfl, rfl, rfl, rfl, rfl, rfl, rfl, rfl, rfl, rfl, rfl, rfl, rfl, rfl, rfl, rfl, rfl, rfl, rfl, rfl, rfl, rfl, rfl, rfl, rfl, rfl, rfl, rfl, rfl, rfl, rfl, rfl, rfl, rfl, rfl, rfl, rfl, rfl, rfl, rfl, rfl, rfl, rfl, rfl, rfl, rfl⟩

@[simp] theorem inCrypto_set_same (ch : Nat) (l : List CryptoEntry) : inCrypto (setInCrypto ch l s) ch = l := Map.get_set_same _ _ _ _

theorem inCrypto_set_other {j ch : Nat} (h : j ≠ ch) (l : List CryptoEntry) : inCrypto (setInCrypto ch l s) j = inCrypto s j := Map.get_set_other _ _ h _ _

@[simp] theorem setInCrypto_frame (ch : Nat) (l : List CryptoEntry) :
    (setInCrypto ch l s).pending = s.pending ∧
    (setInCrypto ch l s).free = s.free ∧ (setInCrypto ch l s).pins = s.pins ∧ (setInCrypto ch l s).tank = s.tank ∧
    (setInCrypto ch l s).churn = s.churn ∧ (setInCrypto ch l s).journal = s.journal ∧ (setInCrypto ch l s).otp = s.otp ∧
    (setInCrypto ch l s).factory = s.factory ∧ (setInCrypto ch l s).flash = s.flash ∧ (setInCrypto ch l s).plans = s.plans ∧
    (setInCrypto ch l s).chain = s.chain ∧ (setInCrypto ch l s).sel = s.sel ∧ (setInCrypto ch l s).ports = s.ports ∧
    (setInCrypto ch l s).lanes = s.lanes ∧ (setInCrypto ch l s).recal = s.recal ∧ (setInCrypto ch l s).slow = s.slow ∧
    (setInCrypto ch l s).qps = s.qps ∧ (setInCrypto ch l s).qpnPtr = s.qpnPtr ∧ (setInCrypto ch l s).qpnFreed = s.qpnFreed ∧
    (setInCrypto ch l s).trackers = s.trackers ∧ (setInCrypto ch l s).regions = s.regions ∧
    (setInCrypto ch l s).genDrawn = s.genDrawn ∧ (setInCrypto ch l s).held = s.held ∧ (setInCrypto ch l s).records = s.records ∧
    (setInCrypto ch l s).keys = s.keys ∧ (setInCrypto ch l s).drbg = s.drbg ∧ (setInCrypto ch l s).metaCache = s.metaCache ∧
    (setInCrypto ch l s).pageCache = s.pageCache ∧ (setInCrypto ch l s).misread = s.misread ∧ (setInCrypto ch l s).sep = s.sep ∧ (setInCrypto ch l s).dram = s.dram ∧
    (setInCrypto ch l s).chans = s.chans ∧ (setInCrypto ch l s).banks = s.banks ∧ (setInCrypto ch l s).retired = s.retired ∧
    (setInCrypto ch l s).retiring = s.retiring ∧ (setInCrypto ch l s).relief = s.relief ∧ (setInCrypto ch l s).parlour = s.parlour ∧
    (setInCrypto ch l s).clsCh = s.clsCh ∧ (setInCrypto ch l s).skim = s.skim ∧ (setInCrypto ch l s).remap = s.remap ∧
    (setInCrypto ch l s).retirements = s.retirements ∧ (setInCrypto ch l s).thermal = s.thermal ∧ (setInCrypto ch l s).bist = s.bist ∧
    (setInCrypto ch l s).ctr = s.ctr ∧ (setInCrypto ch l s).views = s.views ∧ (setInCrypto ch l s).stats = s.stats ∧
    (setInCrypto ch l s).dataSent = s.dataSent ∧ (setInCrypto ch l s).chainSent = s.chainSent ∧
    (setInCrypto ch l s).path.classQ = s.path.classQ ∧ (setInCrypto ch l s).path.bankQ = s.path.bankQ ∧
    (setInCrypto ch l s).path.backlog = s.path.backlog ∧ (setInCrypto ch l s).path.inFlight = s.path.inFlight ∧
    (setInCrypto ch l s).path.halves = s.path.halves ∧ (setInCrypto ch l s).path.locks = s.path.locks ∧
    (setInCrypto ch l s).path.served = s.path.served ∧ (setInCrypto ch l s).path.roundKeys = s.path.roundKeys := by
  refine ⟨rfl, rfl, rfl, rfl, rfl, rfl, rfl, rfl, rfl, rfl, rfl, rfl, rfl, rfl, rfl, rfl, rfl, rfl, rfl, rfl, rfl, rfl, rfl, rfl, rfl, rfl, rfl, rfl, rfl, rfl, rfl, rfl, rfl, rfl, rfl, rfl, rfl, rfl, rfl, rfl, rfl, rfl, rfl, rfl, rfl, rfl, rfl, rfl, rfl, rfl, rfl, rfl, rfl, rfl, rfl, rfl⟩

@[simp] theorem halves_set_same (ch : Nat) (l : List HalfEntry) : halves (setHalves ch l s) ch = l := Map.get_set_same _ _ _ _

theorem halves_set_other {j ch : Nat} (h : j ≠ ch) (l : List HalfEntry) : halves (setHalves ch l s) j = halves s j := Map.get_set_other _ _ h _ _

@[simp] theorem setHalves_frame (ch : Nat) (l : List HalfEntry) :
    (setHalves ch l s).pending = s.pending ∧
    (setHalves ch l s).free = s.free ∧ (setHalves ch l s).pins = s.pins ∧ (setHalves ch l s).tank = s.tank ∧
    (setHalves ch l s).churn = s.churn ∧ (setHalves ch l s).journal = s.journal ∧ (setHalves ch l s).otp = s.otp ∧
    (setHalves ch l s).factory = s.factory ∧ (setHalves ch l s).flash = s.flash ∧ (setHalves ch l s).plans = s.plans ∧
    (setHalves ch l s).chain = s.chain ∧ (setHalves ch l s).sel = s.sel ∧ (setHalves ch l s).ports = s.ports ∧
    (setHalves ch l s).lanes = s.lanes ∧ (setHalves ch l s).recal = s.recal ∧ (setHalves ch l s).slow = s.slow ∧
    (setHalves ch l s).qps = s.qps ∧ (setHalves ch l s).qpnPtr = s.qpnPtr ∧ (setHalves ch l s).qpnFreed = s.qpnFreed ∧
    (setHalves ch l s).trackers = s.trackers ∧ (setHalves ch l s).regions = s.regions ∧ (setHalves ch l s).genDrawn = s.genDrawn ∧
    (setHalves ch l s).held = s.held ∧ (setHalves ch l s).records = s.records ∧ (setHalves ch l s).keys = s.keys ∧
    (setHalves ch l s).drbg = s.drbg ∧ (setHalves ch l s).metaCache = s.metaCache ∧ (setHalves ch l s).pageCache = s.pageCache ∧ (setHalves ch l s).misread = s.misread ∧
    (setHalves ch l s).sep = s.sep ∧ (setHalves ch l s).dram = s.dram ∧ (setHalves ch l s).chans = s.chans ∧
    (setHalves ch l s).banks = s.banks ∧ (setHalves ch l s).retired = s.retired ∧ (setHalves ch l s).retiring = s.retiring ∧
    (setHalves ch l s).relief = s.relief ∧ (setHalves ch l s).parlour = s.parlour ∧ (setHalves ch l s).clsCh = s.clsCh ∧
    (setHalves ch l s).skim = s.skim ∧ (setHalves ch l s).remap = s.remap ∧ (setHalves ch l s).retirements = s.retirements ∧
    (setHalves ch l s).thermal = s.thermal ∧ (setHalves ch l s).bist = s.bist ∧ (setHalves ch l s).ctr = s.ctr ∧
    (setHalves ch l s).views = s.views ∧ (setHalves ch l s).stats = s.stats ∧ (setHalves ch l s).dataSent = s.dataSent ∧
    (setHalves ch l s).chainSent = s.chainSent ∧ (setHalves ch l s).path.classQ = s.path.classQ ∧
    (setHalves ch l s).path.bankQ = s.path.bankQ ∧ (setHalves ch l s).path.backlog = s.path.backlog ∧
    (setHalves ch l s).path.inFlight = s.path.inFlight ∧ (setHalves ch l s).path.inCrypto = s.path.inCrypto ∧
    (setHalves ch l s).path.locks = s.path.locks ∧
    (setHalves ch l s).path.served = s.path.served ∧ (setHalves ch l s).path.roundKeys = s.path.roundKeys := by
  refine ⟨rfl, rfl, rfl, rfl, rfl, rfl, rfl, rfl, rfl, rfl, rfl, rfl, rfl, rfl, rfl, rfl, rfl, rfl, rfl, rfl, rfl, rfl, rfl, rfl, rfl, rfl, rfl, rfl, rfl, rfl, rfl, rfl, rfl, rfl, rfl, rfl, rfl, rfl, rfl, rfl, rfl, rfl, rfl, rfl, rfl, rfl, rfl, rfl, rfl, rfl, rfl, rfl, rfl, rfl, rfl, rfl⟩


@[simp] theorem arrivedVisits_set_same (ch : Nat) (l : List LineReq) : arrivedVisits (setArrivedVisits ch l s) ch = l := Map.get_set_same _ _ _ _

theorem arrivedVisits_set_other {j ch : Nat} (h : j ≠ ch) (l : List LineReq) : arrivedVisits (setArrivedVisits ch l s) j = arrivedVisits s j := Map.get_set_other _ _ h _ _

@[simp] theorem setArrivedVisits_frame (ch : Nat) (l : List LineReq) :
    (setArrivedVisits ch l s).pending = s.pending ∧
    (setArrivedVisits ch l s).free = s.free ∧ (setArrivedVisits ch l s).pins = s.pins ∧ (setArrivedVisits ch l s).tank = s.tank ∧
    (setArrivedVisits ch l s).churn = s.churn ∧ (setArrivedVisits ch l s).journal = s.journal ∧ (setArrivedVisits ch l s).otp = s.otp ∧
    (setArrivedVisits ch l s).factory = s.factory ∧ (setArrivedVisits ch l s).flash = s.flash ∧ (setArrivedVisits ch l s).plans = s.plans ∧
    (setArrivedVisits ch l s).chain = s.chain ∧ (setArrivedVisits ch l s).sel = s.sel ∧ (setArrivedVisits ch l s).ports = s.ports ∧
    (setArrivedVisits ch l s).lanes = s.lanes ∧ (setArrivedVisits ch l s).recal = s.recal ∧ (setArrivedVisits ch l s).slow = s.slow ∧
    (setArrivedVisits ch l s).qps = s.qps ∧ (setArrivedVisits ch l s).qpnPtr = s.qpnPtr ∧ (setArrivedVisits ch l s).qpnFreed = s.qpnFreed ∧
    (setArrivedVisits ch l s).trackers = s.trackers ∧ (setArrivedVisits ch l s).regions = s.regions ∧ (setArrivedVisits ch l s).genDrawn = s.genDrawn ∧
    (setArrivedVisits ch l s).held = s.held ∧ (setArrivedVisits ch l s).records = s.records ∧ (setArrivedVisits ch l s).keys = s.keys ∧
    (setArrivedVisits ch l s).drbg = s.drbg ∧ (setArrivedVisits ch l s).metaCache = s.metaCache ∧ (setArrivedVisits ch l s).pageCache = s.pageCache ∧ (setArrivedVisits ch l s).misread = s.misread ∧
    (setArrivedVisits ch l s).sep = s.sep ∧ (setArrivedVisits ch l s).dram = s.dram ∧ (setArrivedVisits ch l s).chans = s.chans ∧
    (setArrivedVisits ch l s).banks = s.banks ∧ (setArrivedVisits ch l s).retired = s.retired ∧ (setArrivedVisits ch l s).retiring = s.retiring ∧
    (setArrivedVisits ch l s).relief = s.relief ∧ (setArrivedVisits ch l s).parlour = s.parlour ∧ (setArrivedVisits ch l s).clsCh = s.clsCh ∧
    (setArrivedVisits ch l s).skim = s.skim ∧ (setArrivedVisits ch l s).remap = s.remap ∧ (setArrivedVisits ch l s).retirements = s.retirements ∧
    (setArrivedVisits ch l s).thermal = s.thermal ∧ (setArrivedVisits ch l s).bist = s.bist ∧ (setArrivedVisits ch l s).ctr = s.ctr ∧
    (setArrivedVisits ch l s).views = s.views ∧ (setArrivedVisits ch l s).stats = s.stats ∧ (setArrivedVisits ch l s).dataSent = s.dataSent ∧
    (setArrivedVisits ch l s).chainSent = s.chainSent ∧ (setArrivedVisits ch l s).path.classQ = s.path.classQ ∧
    (setArrivedVisits ch l s).path.bankQ = s.path.bankQ ∧ (setArrivedVisits ch l s).path.backlog = s.path.backlog ∧
    (setArrivedVisits ch l s).path.inFlight = s.path.inFlight ∧ (setArrivedVisits ch l s).path.inCrypto = s.path.inCrypto ∧
    (setArrivedVisits ch l s).path.locks = s.path.locks ∧
    (setArrivedVisits ch l s).path.halves = s.path.halves ∧ (setArrivedVisits ch l s).path.roundKeys = s.path.roundKeys := by
  refine ⟨rfl, rfl, rfl, rfl, rfl, rfl, rfl, rfl, rfl, rfl, rfl, rfl, rfl, rfl, rfl, rfl, rfl, rfl, rfl, rfl, rfl, rfl, rfl, rfl, rfl, rfl, rfl, rfl, rfl, rfl, rfl, rfl, rfl, rfl, rfl, rfl, rfl, rfl, rfl, rfl, rfl, rfl, rfl, rfl, rfl, rfl, rfl, rfl, rfl, rfl, rfl, rfl, rfl, rfl, rfl, rfl⟩


/-! ### Layers, BIST records, banks of the plan, free values -/

@[simp] theorem getLayer_set_same (i : Nat) (v : Layer) : getLayer (setLayer i v s) i = v := Map.get_set_same _ _ _ _

theorem getLayer_set_other {i j : Nat} (h : j ≠ i) (v : Layer) : getLayer (setLayer i v s) j = getLayer s j := Map.get_set_other _ _ h _ _

@[simp] theorem setLayer_frame (i : Nat) (v : Layer) :
    (setLayer i v s).pending = s.pending ∧ (setLayer i v s).free = s.free ∧
    (setLayer i v s).pins = s.pins ∧ (setLayer i v s).tank = s.tank ∧ (setLayer i v s).churn = s.churn ∧
    (setLayer i v s).journal = s.journal ∧ (setLayer i v s).otp = s.otp ∧ (setLayer i v s).factory = s.factory ∧
    (setLayer i v s).flash = s.flash ∧ (setLayer i v s).plans = s.plans ∧ (setLayer i v s).chain = s.chain ∧
    (setLayer i v s).sel = s.sel ∧ (setLayer i v s).ports = s.ports ∧ (setLayer i v s).lanes = s.lanes ∧
    (setLayer i v s).recal = s.recal ∧ (setLayer i v s).slow = s.slow ∧ (setLayer i v s).qps = s.qps ∧
    (setLayer i v s).qpnPtr = s.qpnPtr ∧ (setLayer i v s).qpnFreed = s.qpnFreed ∧ (setLayer i v s).trackers = s.trackers ∧
    (setLayer i v s).regions = s.regions ∧ (setLayer i v s).genDrawn = s.genDrawn ∧ (setLayer i v s).held = s.held ∧
    (setLayer i v s).records = s.records ∧ (setLayer i v s).keys = s.keys ∧ (setLayer i v s).drbg = s.drbg ∧
    (setLayer i v s).metaCache = s.metaCache ∧ (setLayer i v s).pageCache = s.pageCache ∧ (setLayer i v s).misread = s.misread ∧ (setLayer i v s).sep = s.sep ∧
    (setLayer i v s).dram = s.dram ∧ (setLayer i v s).path = s.path ∧ (setLayer i v s).chans = s.chans ∧
    (setLayer i v s).banks = s.banks ∧ (setLayer i v s).retired = s.retired ∧ (setLayer i v s).retiring = s.retiring ∧
    (setLayer i v s).relief = s.relief ∧ (setLayer i v s).parlour = s.parlour ∧ (setLayer i v s).clsCh = s.clsCh ∧
    (setLayer i v s).skim = s.skim ∧ (setLayer i v s).remap = s.remap ∧ (setLayer i v s).retirements = s.retirements ∧
    (setLayer i v s).bist = s.bist ∧ (setLayer i v s).ctr = s.ctr ∧ (setLayer i v s).views = s.views ∧ (setLayer i v s).stats = s.stats ∧
    (setLayer i v s).dataSent = s.dataSent ∧ (setLayer i v s).chainSent = s.chainSent := by
  refine ⟨rfl, rfl, rfl, rfl, rfl, rfl, rfl, rfl, rfl, rfl, rfl, rfl, rfl, rfl, rfl, rfl, rfl, rfl, rfl, rfl, rfl, rfl, rfl, rfl, rfl, rfl, rfl, rfl, rfl, rfl, rfl, rfl, rfl, rfl, rfl, rfl, rfl, rfl, rfl, rfl, rfl, rfl, rfl, rfl, rfl, rfl, rfl, rfl⟩

@[simp] theorem getBist_set_same (ch : Nat) (v : BistCh) : getBist (setBist ch v s) ch = v := Map.get_set_same _ _ _ _

theorem getBist_set_other {ch j : Nat} (h : j ≠ ch) (v : BistCh) : getBist (setBist ch v s) j = getBist s j := Map.get_set_other _ _ h _ _

@[simp] theorem setBist_frame (ch : Nat) (v : BistCh) :
    (setBist ch v s).pending = s.pending ∧ (setBist ch v s).free = s.free ∧
    (setBist ch v s).pins = s.pins ∧ (setBist ch v s).tank = s.tank ∧ (setBist ch v s).churn = s.churn ∧
    (setBist ch v s).journal = s.journal ∧ (setBist ch v s).otp = s.otp ∧ (setBist ch v s).factory = s.factory ∧
    (setBist ch v s).flash = s.flash ∧ (setBist ch v s).plans = s.plans ∧ (setBist ch v s).chain = s.chain ∧
    (setBist ch v s).sel = s.sel ∧ (setBist ch v s).ports = s.ports ∧ (setBist ch v s).lanes = s.lanes ∧
    (setBist ch v s).recal = s.recal ∧ (setBist ch v s).slow = s.slow ∧ (setBist ch v s).qps = s.qps ∧
    (setBist ch v s).qpnPtr = s.qpnPtr ∧ (setBist ch v s).qpnFreed = s.qpnFreed ∧ (setBist ch v s).trackers = s.trackers ∧
    (setBist ch v s).regions = s.regions ∧ (setBist ch v s).genDrawn = s.genDrawn ∧ (setBist ch v s).held = s.held ∧
    (setBist ch v s).records = s.records ∧ (setBist ch v s).keys = s.keys ∧ (setBist ch v s).drbg = s.drbg ∧
    (setBist ch v s).metaCache = s.metaCache ∧ (setBist ch v s).pageCache = s.pageCache ∧ (setBist ch v s).misread = s.misread ∧ (setBist ch v s).sep = s.sep ∧
    (setBist ch v s).dram = s.dram ∧ (setBist ch v s).path = s.path ∧ (setBist ch v s).chans = s.chans ∧
    (setBist ch v s).banks = s.banks ∧ (setBist ch v s).retired = s.retired ∧ (setBist ch v s).retiring = s.retiring ∧
    (setBist ch v s).relief = s.relief ∧ (setBist ch v s).parlour = s.parlour ∧ (setBist ch v s).clsCh = s.clsCh ∧
    (setBist ch v s).skim = s.skim ∧ (setBist ch v s).remap = s.remap ∧ (setBist ch v s).retirements = s.retirements ∧
    (setBist ch v s).thermal = s.thermal ∧ (setBist ch v s).ctr = s.ctr ∧ (setBist ch v s).views = s.views ∧
    (setBist ch v s).stats = s.stats ∧ (setBist ch v s).dataSent = s.dataSent ∧ (setBist ch v s).chainSent = s.chainSent := by
  refine ⟨rfl, rfl, rfl, rfl, rfl, rfl, rfl, rfl, rfl, rfl, rfl, rfl, rfl, rfl, rfl, rfl, rfl, rfl, rfl, rfl, rfl, rfl, rfl, rfl, rfl, rfl, rfl, rfl, rfl, rfl, rfl, rfl, rfl, rfl, rfl, rfl, rfl, rfl, rfl, rfl, rfl, rfl, rfl, rfl, rfl, rfl, rfl, rfl⟩

@[simp] theorem getBS_put_same (k : Bank) (v : BankState) : getBS (putBS k v s) k = v := by cases k <;> rfl

theorem getBS_put_other {j k : Bank} (h : j ≠ k) (v : BankState) : getBS (putBS k v s) j = getBS s j := by
  cases j <;> cases k <;> first | rfl | exact absurd rfl h

@[simp] theorem putBS_frame (k : Bank) (v : BankState) :
    (putBS k v s).pending = s.pending ∧ (putBS k v s).free = s.free ∧
    (putBS k v s).pins = s.pins ∧ (putBS k v s).tank = s.tank ∧ (putBS k v s).churn = s.churn ∧ (putBS k v s).journal = s.journal ∧
    (putBS k v s).otp = s.otp ∧ (putBS k v s).factory = s.factory ∧ (putBS k v s).flash = s.flash ∧ (putBS k v s).chain = s.chain ∧
    (putBS k v s).sel = s.sel ∧ (putBS k v s).ports = s.ports ∧ (putBS k v s).lanes = s.lanes ∧ (putBS k v s).recal = s.recal ∧
    (putBS k v s).slow = s.slow ∧ (putBS k v s).qps = s.qps ∧ (putBS k v s).qpnPtr = s.qpnPtr ∧ (putBS k v s).qpnFreed = s.qpnFreed ∧
    (putBS k v s).trackers = s.trackers ∧ (putBS k v s).regions = s.regions ∧ (putBS k v s).genDrawn = s.genDrawn ∧
    (putBS k v s).held = s.held ∧ (putBS k v s).records = s.records ∧ (putBS k v s).keys = s.keys ∧ (putBS k v s).drbg = s.drbg ∧
    (putBS k v s).metaCache = s.metaCache ∧ (putBS k v s).pageCache = s.pageCache ∧ (putBS k v s).misread = s.misread ∧ (putBS k v s).sep = s.sep ∧
    (putBS k v s).dram = s.dram ∧ (putBS k v s).path = s.path ∧ (putBS k v s).chans = s.chans ∧ (putBS k v s).banks = s.banks ∧
    (putBS k v s).retired = s.retired ∧ (putBS k v s).retiring = s.retiring ∧ (putBS k v s).relief = s.relief ∧
    (putBS k v s).parlour = s.parlour ∧ (putBS k v s).clsCh = s.clsCh ∧ (putBS k v s).skim = s.skim ∧ (putBS k v s).remap = s.remap ∧
    (putBS k v s).retirements = s.retirements ∧ (putBS k v s).thermal = s.thermal ∧ (putBS k v s).bist = s.bist ∧
    (putBS k v s).ctr = s.ctr ∧ (putBS k v s).views = s.views ∧ (putBS k v s).stats = s.stats ∧ (putBS k v s).dataSent = s.dataSent ∧
    (putBS k v s).chainSent = s.chainSent := by
  cases k <;> refine ⟨rfl, rfl, rfl, rfl, rfl, rfl, rfl, rfl, rfl, rfl, rfl, rfl, rfl, rfl, rfl, rfl, rfl, rfl, rfl, rfl, rfl, rfl, rfl, rfl, rfl, rfl, rfl, rfl, rfl, rfl, rfl, rfl, rfl, rfl, rfl, rfl, rfl, rfl, rfl, rfl, rfl, rfl, rfl, rfl, rfl, rfl, rfl, rfl⟩

@[simp] theorem setCPort_frame (p : ChainPort) (v : CPort) :
    (setCPort p v s).pending = s.pending ∧ (setCPort p v s).free = s.free ∧
    (setCPort p v s).pins = s.pins ∧ (setCPort p v s).tank = s.tank ∧ (setCPort p v s).churn = s.churn ∧
    (setCPort p v s).journal = s.journal ∧ (setCPort p v s).otp = s.otp ∧ (setCPort p v s).factory = s.factory ∧
    (setCPort p v s).flash = s.flash ∧ (setCPort p v s).plans = s.plans ∧ (setCPort p v s).sel = s.sel ∧
    (setCPort p v s).ports = s.ports ∧ (setCPort p v s).lanes = s.lanes ∧ (setCPort p v s).recal = s.recal ∧
    (setCPort p v s).slow = s.slow ∧ (setCPort p v s).qps = s.qps ∧ (setCPort p v s).qpnPtr = s.qpnPtr ∧
    (setCPort p v s).qpnFreed = s.qpnFreed ∧ (setCPort p v s).trackers = s.trackers ∧ (setCPort p v s).regions = s.regions ∧
    (setCPort p v s).genDrawn = s.genDrawn ∧ (setCPort p v s).held = s.held ∧ (setCPort p v s).records = s.records ∧
    (setCPort p v s).keys = s.keys ∧ (setCPort p v s).drbg = s.drbg ∧ (setCPort p v s).metaCache = s.metaCache ∧
    (setCPort p v s).pageCache = s.pageCache ∧ (setCPort p v s).misread = s.misread ∧ (setCPort p v s).sep = s.sep ∧ (setCPort p v s).dram = s.dram ∧
    (setCPort p v s).path = s.path ∧ (setCPort p v s).chans = s.chans ∧ (setCPort p v s).banks = s.banks ∧
    (setCPort p v s).retired = s.retired ∧ (setCPort p v s).retiring = s.retiring ∧ (setCPort p v s).relief = s.relief ∧
    (setCPort p v s).parlour = s.parlour ∧ (setCPort p v s).clsCh = s.clsCh ∧ (setCPort p v s).skim = s.skim ∧
    (setCPort p v s).remap = s.remap ∧ (setCPort p v s).retirements = s.retirements ∧ (setCPort p v s).thermal = s.thermal ∧
    (setCPort p v s).bist = s.bist ∧ (setCPort p v s).ctr = s.ctr ∧ (setCPort p v s).views = s.views ∧ (setCPort p v s).stats = s.stats ∧
    (setCPort p v s).dataSent = s.dataSent ∧ (setCPort p v s).chainSent = s.chainSent := by
  cases p <;> refine ⟨rfl, rfl, rfl, rfl, rfl, rfl, rfl, rfl, rfl, rfl, rfl, rfl, rfl, rfl, rfl, rfl, rfl, rfl, rfl, rfl, rfl, rfl, rfl, rfl, rfl, rfl, rfl, rfl, rfl, rfl, rfl, rfl, rfl, rfl, rfl, rfl, rfl, rfl, rfl, rfl, rfl, rfl, rfl, rfl, rfl, rfl, rfl, rfl⟩

@[simp] theorem drawn_frame  :
    (drawn s).pending = s.pending ∧ (drawn s).pins = s.pins ∧ (drawn s).tank = s.tank ∧
    (drawn s).churn = s.churn ∧ (drawn s).journal = s.journal ∧ (drawn s).otp = s.otp ∧ (drawn s).factory = s.factory ∧
    (drawn s).flash = s.flash ∧ (drawn s).plans = s.plans ∧ (drawn s).chain = s.chain ∧ (drawn s).sel = s.sel ∧
    (drawn s).ports = s.ports ∧ (drawn s).lanes = s.lanes ∧ (drawn s).recal = s.recal ∧ (drawn s).slow = s.slow ∧ (drawn s).qps = s.qps ∧
    (drawn s).qpnPtr = s.qpnPtr ∧ (drawn s).qpnFreed = s.qpnFreed ∧ (drawn s).trackers = s.trackers ∧ (drawn s).regions = s.regions ∧
    (drawn s).genDrawn = s.genDrawn ∧ (drawn s).held = s.held ∧ (drawn s).records = s.records ∧ (drawn s).keys = s.keys ∧
    (drawn s).drbg = s.drbg ∧ (drawn s).metaCache = s.metaCache ∧ (drawn s).pageCache = s.pageCache ∧ (drawn s).misread = s.misread ∧ (drawn s).sep = s.sep ∧
    (drawn s).dram = s.dram ∧ (drawn s).path = s.path ∧ (drawn s).chans = s.chans ∧ (drawn s).banks = s.banks ∧
    (drawn s).retired = s.retired ∧ (drawn s).retiring = s.retiring ∧ (drawn s).relief = s.relief ∧ (drawn s).parlour = s.parlour ∧
    (drawn s).clsCh = s.clsCh ∧ (drawn s).skim = s.skim ∧ (drawn s).remap = s.remap ∧ (drawn s).retirements = s.retirements ∧
    (drawn s).thermal = s.thermal ∧ (drawn s).bist = s.bist ∧ (drawn s).ctr = s.ctr ∧ (drawn s).views = s.views ∧
    (drawn s).stats = s.stats ∧ (drawn s).dataSent = s.dataSent ∧ (drawn s).chainSent = s.chainSent := by
  refine ⟨rfl, rfl, rfl, rfl, rfl, rfl, rfl, rfl, rfl, rfl, rfl, rfl, rfl, rfl, rfl, rfl, rfl, rfl, rfl, rfl, rfl, rfl, rfl, rfl, rfl, rfl, rfl, rfl, rfl, rfl, rfl, rfl, rfl, rfl, rfl, rfl, rfl, rfl, rfl, rfl, rfl, rfl, rfl, rfl, rfl, rfl, rfl, rfl⟩

end Sys2Proof.Machine
end

