-- ==== Sys2Proof/Tests/Slice0.lean ====
section
/-! SUPPORT. Tests: well-formedness refuses ill-formed commands; and for each clause of the statements a state and operands that meet
its hypotheses together, with what the spec's rule gives there. Expected values are worked out by hand from the rules that the
statement's docstring names. -/

set_option Elab.async false

namespace Sys2Proof.Tests

open Sys2Proof.Machine Sys2Proof.Safety

/-! ### States and operands -/

/-- A chain port whose link runs continuously. -/
def linkUp : CPort := { CPort.reset with up := true, driverOn := true }

/-- A unit in service: address 1, minute 100, both chain links up. -/
def serving : State :=
  { State.reset with
    pins := { State.reset.pins with porN := true, pllLocked := true },
    tank := { Tank.reset with phase := 8, anchored := true, minute := 100, roundMinute := 100, coreRunning := true, filled := true,
                              addr := 1 },
    chain := { Chain.reset with chu := linkUp, chd := linkUp },
    drbg := { State.reset.drbg with instantiated := true } }

/-- A unit in another phase. -/
def inPhase (p : Byte) (s : State) : State := { s with tank := { s.tank with phase := p } }

/-- A unit whose device time has no anchor. -/
def unanchored (s : State) : State := { s with tank := { s.tank with anchored := false } }

/-- A chain frame for unit 1. -/
def frame (ty : BitVec 4) (code : Byte) (addr : Nat) (payload : List Byte) : ChainFrame :=
  { version := 1, ftype := ty, flags := 0, dest := 1, source := 0, hops := 0, code := code, seq := 7, addr := BitVec.ofNat 32 addr,
    length := BitVec.ofNat 16 payload.length, status := 0, tag := 9, payload := payload }

/-- A COMMAND for unit 1. -/
def command (code : Byte) (payload : List Byte) : ChainFrame := frame 3 code 0 payload

/-- The outcome is a next state with a property. -/
def after (r : Host.Outcome State Fault Refusal) (ok : State → Bool) : Bool :=
  match r with
  | .next t => ok t
  | .fault _ => false
  | .refused _ => false

/-- The newest RESPONSE in the repeat cache has this status. -/
def answered (status : Byte) (t : State) : Bool := (t.chain.cache.head?.map (fun e => e.2.1.status)) = some status

/-! ### Commands over the chain -/

theorem test_anchor_first : Runs 0x01 .chu (command 1 (beBytes 4 100 ++ beBytes 4 59999999)) (inPhase 5 (unanchored serving)) ∧
    after (exec (.anchor .chu (command 1 (beBytes 4 100 ++ beBytes 4 59999999))) (inPhase 5 (unanchored serving))) (fun t =>
      answered 0 t && t.tank.anchored && t.tank.minute = 100 && t.tank.usec = 59999999) = true := by
  unfold Runs Delivered Passes; decide +kernel

theorem test_anchor_held : Runs 0x01 .chu (command 1 (beBytes 4 100 ++ beBytes 4 0)) (inPhase 3 (unanchored serving)) ∧
    after (exec (.anchor .chu (command 1 (beBytes 4 100 ++ beBytes 4 0))) (inPhase 3 (unanchored serving))) (fun t =>
      answered 0 t && !t.tank.anchored && t.tank.held = some (100, 0)) = true := by
  unfold Runs Delivered Passes; decide +kernel

theorem test_anchor_same : Runs 0x01 .chu (command 1 (beBytes 4 100 ++ beBytes 4 0)) serving ∧ deviceUs serving ≤ 100 * 60000000 + 0 ∧
    after (exec (.anchor .chu (command 1 (beBytes 4 100 ++ beBytes 4 0))) serving) (fun t =>
      answered 0 t && t.tank.minute = 100 && t.tank.usec = 0) = true := by
  unfold Runs Delivered Passes; decide +kernel

theorem test_anchor_behind : Runs 0x01 .chu (command 1 (beBytes 4 40 ++ beBytes 4 0)) serving ∧
    40 * 60000000 + 0 < deviceUs serving ∧ serving.tank.minute.toNat * 60000000 ≤ 40 * 60000000 + 0 + 3600000000 ∧
    after (exec (.anchor .chu (command 1 (beBytes 4 40 ++ beBytes 4 0))) serving) (fun t =>
      answered 0 t && t.tank.minute = 100 && t.tank.holdUs = 3600000000) = true := by
  unfold Runs Delivered Passes; decide +kernel

/-- A unit that holds an unanchored clock at minute 5. -/
def holding : State := { inPhase 3 (unanchored serving) with tank := { (inPhase 3 (unanchored serving)).tank with held := some (5, 0) } }

theorem test_trim_held : Runs 0x02 .chu (command 2 (beBytes 4 1000)) holding ∧ signedOf 32 (field (beBytes 4 1000) 0 4) = 1000 ∧
    after (exec (.trim .chu (command 2 (beBytes 4 1000))) holding) (fun t => answered 0 t && t.tank.held = some (5, 1000000)) = true := by
  unfold Runs Delivered Passes; decide +kernel

theorem test_trim_back : Runs 0x02 .chu (command 2 [0xFF, 0xFF, 0xFF, 0xFF]) serving ∧ signedOf 32 (field [0xFF, 0xFF, 0xFF, 0xFF] 0 4) = -1 ∧
    addUs (deviceUs serving - serving.tank.holdUs) (-1 * 1000) < deviceUs serving ∧
    after (exec (.trim .chu (command 2 [0xFF, 0xFF, 0xFF, 0xFF])) serving) (fun t => answered 0 t && t.tank.holdUs = 1000) = true := by
  unfold Runs Delivered Passes; decide +kernel

theorem test_trim_forward : Runs 0x02 .chu (command 2 (beBytes 4 1000)) serving ∧
    deviceUs serving ≤ addUs (deviceUs serving - serving.tank.holdUs) (1000 * 1000) ∧
    after (exec (.trim .chu (command 2 (beBytes 4 1000))) serving) (fun t => answered 0 t && t.tank.minute = 100 && t.tank.usec = 1000000) = true := by
  unfold Runs Delivered Passes; decide +kernel

/-- A region of tenant 3 with a lease up to minute 200. -/
def leased : Region :=
  { Region.zero with inUse := true, active := true, leaseId := 9, leaseEnd := 200, tenant := 3, slabs := 1, readOk := true, writeOk := true,
                     atomicOk := true, curSlot := 4 }

/-- The unit with a region entry. -/
def withRegion (i : Nat) (r : Region) (s : State) : State := setRegion i r s

theorem test_revoke : Runs 0x05 .chu (command 5 (beBytes 4 131071 ++ beBytes 4 9 ++ beBytes 4 101)) (withRegion 131071 leased serving) ∧
    (getRegion (withRegion 131071 leased serving) 131071).inUse = true ∧ 101 ≤ namedEnd leased 9 ∧ leased.revokeMinute = 0xFFFFFFFF ∧
    after (exec (.revokeLease .chu (command 5 (beBytes 4 131071 ++ beBytes 4 9 ++ beBytes 4 101))) (withRegion 131071 leased serving)) (fun t =>
      answered 0 t && (getRegion t 131071).revoked && (getRegion t 131071).revokeMinute = 101) = true := by
  unfold Runs Delivered Passes; decide +kernel

theorem test_revoke_earlier :
    after (exec (.revokeLease .chu (command 5 (beBytes 4 0 ++ beBytes 4 9 ++ beBytes 4 200)))
      (withRegion 0 { leased with revokeMinute := 201, revoked := true, revokeId := 9 } serving)) (fun t =>
      answered 0 t && (getRegion t 0).revokeMinute = 200) = true := by decide +kernel

/-- A bank B that is being staged: 72 bytes declared, the sectors erased. -/
def staging : State :=
  { serving with plans := { serving.plans with target := some .b, operation := 2, declared := 72, erased := 65536,
                                               bankB := { BankState.reset with state := 2 } } }

theorem test_stage_open : Runs 0x03 .chu (command 3 ([1, 1, 0, 0] ++ beBytes 4 0x01800000)) serving ∧
    after (exec (.stageOpen .chu (command 3 ([1, 1, 0, 0] ++ beBytes 4 0x01800000))) serving) (fun t =>
      answered 0 t && t.plans.target = some .b && t.plans.declared = 0x01800000 && (getBS t .b).state = 2) = true := by
  unfold Runs Delivered Passes; decide +kernel

theorem test_staging_write : Delivered .chu (frame 2 0 0x12800000 [1, 2, 3, 4]) staging ∧ windowBank 0x12800000 = some (.b, 0) ∧
    after (exec (.stagingWrite .chu (frame 2 0 0x12800000 [1, 2, 3, 4])) staging) (fun t =>
      answered 0 t && t.plans.written = 4 && t.plans.progBuf = [1, 2, 3, 4]) = true := by
  unfold Delivered Passes; decide +kernel

theorem test_stage_commit :
    Runs 0x03 .chu (command 3 ([2, 1, 0, 0] ++ beBytes 4 0)) { staging with plans := { staging.plans with written := 72 } } ∧
    after (exec (.stageCommit .chu (command 3 ([2, 1, 0, 0] ++ beBytes 4 0))) { staging with plans := { staging.plans with written := 72 } })
      (fun t => answered 1 t && t.plans.operation = 3) = true := by
  unfold Runs Delivered Passes; decide +kernel

theorem test_stage_abort : Runs 0x03 .chu (command 3 ([3, 1, 0, 0] ++ beBytes 4 0)) staging ∧
    after (exec (.stageAbort .chu (command 3 ([3, 1, 0, 0] ++ beBytes 4 0))) staging) (fun t =>
      answered 0 t && t.plans.target = none && (getBS t .b).state = 0) = true := by
  unfold Runs Delivered Passes; decide +kernel

theorem test_sector_erase : after (exec .sectorEraseComplete { staging with plans := { staging.plans with operation := 1, erased := 0 } }) (fun t =>
    t.plans.operation = 2 && t.plans.erased = 65536) = true := by decide +kernel

theorem test_page_program :
    after (exec .pageProgramComplete { staging with plans := { staging.plans with written := 72, progBuf := [1, 2, 0xFF] } }) (fun t =>
      t.plans.progBuf = [] && Map.get 0xFF (bankBase .b + 1) t.flash = 2 && Map.get 0xFF (bankBase .b + 2) t.flash = 0xFF) = true := by
  decide +kernel

theorem test_stage_commit_end : after (exec .stageCommitEnd { staging with plans := { staging.plans with operation := 3, written := 72 } }) (fun t =>
    t.plans.target = none && t.plans.operation = 0 && (getBS t .b).state = 0) = true := by decide +kernel

/-- Bank B is staged, with its adoption at minute 102. -/
def staged : State := { serving with plans := { serving.plans with bankB := { BankState.reset with state := 3, adoptAt := 102, seq := 5 } } }

theorem test_adopt : Runs 0x04 .chu (command 4 [1, 1, 0, 0]) staged ∧
    after (exec (.adopt .chu (command 4 [1, 1, 0, 0])) staged) (fun t => answered 0 t && (getBS t .b).state = 4) = true := by
  unfold Runs Delivered Passes; decide +kernel

theorem test_adopt_halted : Runs 0x04 .chu (command 4 [1, 1, 0, 0]) (inPhase 0xE0 staged) ∧
    after (exec (.adopt .chu (command 4 [1, 1, 0, 0])) (inPhase 0xE0 staged)) (fun t =>
      answered 0 t && t.tank.phase = 0x04 && t.plans.forced = some .b) = true := by
  unfold Runs Delivered Passes; decide +kernel

theorem test_adopt_cancel :
    after (exec (.adoptCancel .chu (command 4 [2, 1, 0, 0]))
      { staged with plans := { staged.plans with bankB := { staged.plans.bankB with state := 4 } } }) (fun t =>
      answered 0 t && (getBS t .b).state = 7) = true := by decide +kernel

theorem test_retire_page : Runs 0x06 .chu (command 6 (beBytes 4 0xDC7FFF)) serving ∧
    retirePageRule 0xDC7FFF serving = .inr ([(63, 225791, 0)], 0) ∧
    after (exec (.retirePage .chu (command 6 (beBytes 4 0xDC7FFF))) serving) (fun t =>
      answered 1 t && t.retirements.length = 1 && (getRemap t 63 0).valid) = true := by
  unfold Runs Delivered Passes; decide +kernel

/-- Unit 0 of channel 0 is to go to spare page 0, some of its lines copied; spare page 1 holds it so far. -/
def retiring (copied : Nat) : State :=
  setRemap 0 0 { Remap.zero with valid := true, copied := copied } (setRemap 0 1 { Remap.zero with valid := true, committed := true }
    { serving with retirements := [{ page := 0, all := [(0, 0)], units := [(0, 0, 0)], placed := 0, skipped := 0, mask := 0 }] })

theorem test_unit_copy : ownOpen (retiring 64) 0 = true ∧ committedSpare (retiring 64) 0 0 = some 1 ∧
    (retiring 64).retirements.find? (fun r => r.units.any (fun x => x.1 = 0 && x.2.1 = 0)) =
      some { page := 0, all := [(0, 0)], units := [(0, 0, 0)], placed := 0, skipped := 0, mask := 0 } ∧
    after (exec (.unitCopy 0 0) (retiring 64)) (fun t => (getRemap t 0 0).committed && (getRemap t 0 1).bad && t.retirements = []) = true ∧
    after (exec (.unitCopy 0 0) (retiring 63)) (fun t => decide (t = retiring 63)) = true := by decide +kernel

/-- The last line of the unit has arrived for its copy. -/
def copyArrived : State :=
  setInFlight 0 [{ req := ownReq .copy (unsteer (planOf serving) 0 63) systemClass 8192 131072 0 none, withMeta := false, data := [], poisoned := false, errors := [],
                   minor := 0, tag := 0, slot := 0, major := 0 }] (retiring 63)

theorem test_copied_line : (homeOf copyArrived (unsteer (planOf serving) 0 63)).2 = 63 ∧ (copyingSpare copyArrived 0 0).map (fun x => (x.1, x.2.copied)) = some (0, 63) ∧
    after (exec (.lineDecode 0 [] [] []) copyArrived) (fun t => (getRemap t 0 0).copied = 64 && inFlight t 0 = [] && !isPoisoned t (spareLine 0 0 63) &&
      lineData t (spareLine 0 0 63) = List.replicate 64 0) = true ∧
    after (exec (.lineDecode 0 [(0, 1)] [] []) copyArrived) (fun t => lineData t (spareLine 0 0 63) = List.replicate 64 0 && burstErrors t (spareLine 0 0 63) [] = []) = true ∧
    after (exec (.lineDecode 0 [] [] []) (putPoison (dataHome copyArrived 0 63) copyArrived)) (fun t => isPoisoned t (spareLine 0 0 63)) = true := by decide +kernel

theorem test_unit_copy_absent : unitCount ≤ 225792 ∧
    (match exec (.unitCopy 0 225792) serving with | .fault .noSuchObject => true | _ => false) = true := by decide +kernel

/-- Port 0 runs alone on its interface; port 15 is idle. -/
def ported : State := setPort 0 { Port.zero with present := true, up := true, trained := true } serving

theorem test_quiesce : Runs 0x07 .chu (command 7 [0, 1, 0, 0]) (setPort 1 { Port.zero with present := true, up := true } ported) ∧
    members (setPort 1 { Port.zero with present := true, up := true } ported) 0 ≠ [0] ∧
    after (exec (.quiescePort .chu (command 7 [0, 1, 0, 0])) (setPort 1 { Port.zero with present := true, up := true } ported)) (fun t =>
      answered 1 t && (getPort t 0).quiesced && (getPort t 0).draining && members t 0 = [1]) = true := by
  unfold Runs Delivered Passes; decide +kernel

theorem test_quiesce_resume :
    after (exec (.quiescePortResume .chu (command 7 [15, 2, 0, 0]))
      (setPort 15 { Port.zero with present := true, up := true, quiesced := true } serving)) (fun t => answered 1 t && !(getPort t 15).quiesced && !(getPort t 15).draining) = true := by decide +kernel

theorem test_quiesce_drain_end :
    after (exec (.quiesceDrainEnd 15) (setPort 15 { Port.zero with present := true, draining := true, queue := [(0, .pfc 0 0)] } serving)) (fun t => !(getPort t 15).draining && (getPort t 15).queue = []) = true := by decide +kernel

theorem test_warm_reset : Runs 0x08 .chu (command 8 [0x57, 0x52, 0x53, 0x54]) serving ∧
    after (exec (.warmReset .chu (command 8 [0x57, 0x52, 0x53, 0x54])) serving) (fun t =>
      answered 0 t && t.tank.warmPending && t.tank.phase = 8) = true := by
  unfold Runs Delivered Passes; decide +kernel

theorem test_drain_begin :
    after (exec .drainBegin { ported with tank := { ported.tank with warmPending := true } }) (fun t =>
      t.tank.phase = 0x10 && t.tank.lastReset = 2 && t.tank.warmCount = 1 && !(getPort t 0).up) = true := by decide +kernel

theorem test_wrst : after (exec (.wrstNFall 50) ported) (fun t => t.tank.phase = 0x10 && t.tank.lastReset = 1 && !(getPort t 0).up) = true := by
  decide +kernel

theorem test_wrst_glitch : after (exec (.wrstNFall 19) ported) (fun t => decide (t = ported)) = true := by decide +kernel

theorem test_snapshot_take : Runs 0x09 .chu (command 9 [1, 63, 0x0F, 0xFF, 0, 1, 0, 0]) serving ∧
    (snapshotPrefix (command 9 [1, 63, 0x0F, 0xFF, 0, 1, 0, 0]) serving).isNone = true ∧
    after (exec (.snapshotTake .chu (command 9 [1, 63, 0x0F, 0xFF, 0, 1, 0, 0])) (portCount 0 4 5 serving)) (fun t =>
      answered 0 t && (t.views.any (fun v => v.group = 1 && Map.get 0 4 v.c.port = 5)) && Map.get 0 4 t.ctr.port = 5) = true := by
  unfold Runs Delivered Passes; decide +kernel

theorem test_snapshot_clear :
    after (exec (.snapshotTakeClear .chu (command 9 [2, 2, 0, 0, 0, 0, 0, 0])) (portCount 0 4 5 serving)) (fun t =>
      answered 0 t && (t.views.any (fun v => v.group = 1 && Map.get 0 4 v.c.port = 5)) && t.ctr.port = []) = true := by decide +kernel

theorem test_snapshot_release :
    after (exec (.snapshotRelease .chu (command 9 [3, 2, 0, 0, 0, 0, 0, 0]))
      { serving with views := [{ group := 1, first := 0, count := 0, untilUs := 9, c := .zero }] }) (fun t => answered 0 t && t.views = []) = true := by
  decide +kernel

theorem test_snapshot_expiry :
    after (exec (.snapshotExpiry 5) { serving with views := [{ group := 5, first := 0, count := 0, untilUs := 9, c := .zero }] }) (fun t =>
      t.views = []) = true := by decide +kernel

/-- The unit in MANUFACTURE: BIST and OTP commands need no signature (R313). -/
def factoryUnit : State := { serving with otp := { serving.otp with life := 1 } }

/-- A BIST payload with no signature. -/
def bistPayload (op test : Byte) (mask : Nat) : List Byte := [op, test, 0, 0, 0, 0, 0, 0] ++ beBytes 8 mask ++ List.replicate 196 0

theorem test_bist_start : Runs 0x0A .chu (command 0x0A (bistPayload 1 4 0)) factoryUnit ∧
    Runs 0x0A .chu (command 0x0A (bistPayload 1 1 (2 ^ 63))) factoryUnit ∧
    (bistPrefix (command 0x0A (bistPayload 1 1 (2 ^ 63))) factoryUnit).isNone = true ∧
    maskUsable factoryUnit 1 (BitVec.ofNat 64 (field (bistPayload 1 1 (2 ^ 63)) 8 8)) = true ∧
    after (exec (.bistStart .chu (command 0x0A (bistPayload 1 1 (2 ^ 63)))) factoryUnit) (fun t =>
      answered 1 t && t.bist.state = 1 && t.bist.test = 1 && t.bist.mask = 0x8000000000000000) = true := by
  unfold Runs Delivered Passes; decide +kernel

/-- A test of a kind runs on channel 63. -/
def testing (kind : Byte) : State := { factoryUnit with bist := { factoryUnit.bist with state := 1, test := kind, mask := 0x8000000000000000 } }

theorem test_bist_abort :
    after (exec (.bistAbort .chu (command 0x0A (bistPayload 2 1 0))) (testing 1)) (fun t => answered 1 t && t.bist.state = 3) = true := by
  decide +kernel

theorem test_bist_abort_idle :
    after (exec (.bistAbort .chu (command 0x0A (bistPayload 2 1 0))) factoryUnit) (fun t => answered 1 t && t.bist.state = 0) = true := by
  decide +kernel

/-- Channel 63 stands in a phase of its batch. -/
def batch (ph : BistPhase) : State :=
  setBist 63 { BistCh.zero with marker := some { rows := [(0, 7)], form := 1, phase := ph, count := 1 } } (testing 1)

theorem test_bist_batch : upkeepRuns (testing 1) = true ∧ masked (testing 1) 63 = true ∧ (getBist (testing 1) 63).done = false ∧
    (getBist (testing 1) 63).marker = none ∧ (getChan (testing 1) 63).selfRefresh = false ∧ (testing 1).retiring.contains 63 = false ∧
    (nextBatch (testing 1) 63).2.1.length = 1024 ∧ rowsBusy (testing 1) 63 (nextBatch (testing 1) 63).2.1 = false ∧
    (nextBatch (setBist 63 { BistCh.zero with step := 1024 } (testing 1)) 63).2.1 = [] ∧
    after (exec (.bistBatch 63 [] [] []) (testing 1)) (fun t =>
      (getBist t 63).marker.map (fun m => (m.rows.length, m.phase)) = some (1024, .saving)) = true := by decide +kernel

theorem test_bist_phases :
    after (exec (.bistBatch 63 [] [] []) (batch .saving)) (fun t => (getBist t 63).marker.map (fun m => m.phase) = some .testing) = true ∧
    (∀ x ∈ [(0, 7)], x.1 < 32 ∧ x.2 < 32768) ∧
    after (exec (.bistBatch 63 [] [] []) (batch .testing)) (fun t => (getBist t 63).marker.map (fun m => m.phase) = some .restoring) = true ∧
    after (exec (.bistBatch 63 [] [] []) (batch .restoring)) (fun t => (getBist t 63).marker = none && t.bist.rows = 1) = true := by decide +kernel

theorem test_bist_sram : masked (testing 2) 63 = true ∧
    after (exec (.bistBatch 63 [] [] []) (testing 2)) (fun t => (getBist t 63).done) = true := by decide +kernel

theorem test_bist_end : (∀ n < 64, masked (setBist 63 { BistCh.zero with done := true } (testing 2)) n = true →
      (getBist (setBist 63 { BistCh.zero with done := true } (testing 2)) n).done = true) ∧
    after (exec .bistEnd (setBist 63 { BistCh.zero with done := true } (testing 2))) (fun t => t.bist.state = 2) = true := by decide +kernel

theorem test_otp_program : Runs 0x0B .chu (command 0x0B (beBytes 2 1951 ++ [0, 0] ++ beBytes 4 1 ++ List.replicate 196 0)) factoryUnit ∧
    programCondition (otpNow factoryUnit) 1951 1 = none ∧ suppliesOk 1710 4725 = true ∧
    after (exec (.otpProgram .chu (command 0x0B (beBytes 2 1951 ++ [0, 0] ++ beBytes 4 1 ++ List.replicate 196 0)) 1710 4725) factoryUnit) (fun t =>
      answered 1 t && t.otp.op = 1 && t.otp.word = 1951 && t.otp.data = 1) = true := by
  unfold Runs Delivered Passes; decide +kernel

/-- A word is being programmed with 0, which reads as verified (R352). -/
def programming : State := { serving with otp := { serving.otp with op := 1, word := 100, data := 0, pulses := 6 } }

theorem test_otp_pulse : verified 0 0 0 0 = true ∧
    after (exec (.otpPulse 0 0 0 1800 4500) programming) (fun t => t.otp.op = 2 && t.otp.result = 0) = true := by decide +kernel

theorem test_otp_pulse_again : verified 1 0 0 0 = false ∧
    after (exec (.otpPulse 1 0 0 1800 4500) programming) (fun t => t.otp.op = 1 && t.otp.pulses = 7) = true ∧
    after (exec (.otpPulse 1 0 0 1800 4500) { programming with otp := { programming.otp with pulses := 7 } }) (fun t =>
      t.otp.op = 2 && t.otp.result = 0x43) = true := by decide +kernel

theorem test_lifecycle_advance : Runs 0x0C .chu (command 0x0C ([1, 0, 0, 0] ++ List.replicate 196 0)) serving ∧
    advanceCondition (otpNow serving) 1 = none ∧
    after (exec (.lifecycleAdvance .chu (command 0x0C ([1, 0, 0, 0] ++ List.replicate 196 0)) 1800 4500) serving) (fun t =>
      answered 1 t && t.otp.op = 1 && t.otp.word = 0 && t.otp.data = 0x4C430001) = true := by
  unfold Runs Delivered Passes; decide +kernel

/-- A READ of `n` bytes. -/
def readFrame (addr n : Nat) : ChainFrame := frame 1 0 addr (beBytes 2 n ++ [0, 0])

theorem test_peak_read : Delivered .chu (readFrame 0x407E0 4) (setLayer 15 { Layer.zero with peak := some 900 } serving) ∧
    accessStatus (setLayer 15 { Layer.zero with peak := some 900 } serving) (readFrame 0x407E0 4) = (0x00, some .thermal) ∧
    after (exec (.peakRead .chu (readFrame 0x407E0 4)) (setLayer 15 { Layer.zero with peak := some 900 } serving)) (fun t =>
      answered 0 t && (getLayer t 15).peak = none && t.chainSent.any (fun e => e.frame.payload = [3, 132, 0, 0])) = true := by
  unfold Delivered Passes; decide +kernel

theorem test_uc_pending : clearsUc (frame 2 0 0x20008 [0x80, 0, 0, 0]) = true ∧
    (accessStatus serving (frame 2 0 0x20008 [0x80, 0, 0, 0])).1 = 0 ∧
    after (exec (.ucPendingClear .chu (frame 2 0 0x20008 [0x80, 0, 0, 0])) { serving with churn := { serving.churn with ucPending := true } })
      (fun t => answered 0 t && !t.churn.ucPending) = true := by decide +kernel

theorem test_register_write : clearsUc (frame 2 0 0x20008 [0, 0, 0, 0]) = false ∧
    after (exec (.registerWrite .chu (frame 2 0 0x20008 [0, 0, 0, 0])) { serving with churn := { serving.churn with ucPending := true } })
      (fun t => answered 0 t && t.churn.ucPending) = true := by decide +kernel

theorem test_unknown_command : Delivered .chu (command 0x0D []) serving ∧ Delivered .chu (command 0 []) serving ∧
    after (exec (.unknownCommand .chu (command 0x0D [])) serving) (answered 0x12) = true := by
  unfold Delivered Passes; decide +kernel

/-- A unit whose core is held. -/
def coreless : State := { serving with tank := { serving.tank with coreHeld := true } }

theorem test_unknown_elsewhere : Delivered .chu (command 0x0D []) (inPhase 0x10 serving) ∧ Delivered .chu (command 0x0D []) coreless ∧ coreRuns coreless = false ∧
    ordinaryPhase 0x10 = false ∧
    after (exec (.unknownCommand .chu (command 0x0D [])) (inPhase 0x10 serving)) (fun t => t.chainSent.any (fun e => e.frame.status = 0x10)) = true ∧
    after (exec (.unknownCommand .chu (command 0x0D [])) coreless) (fun t => t.chainSent.any (fun e => e.frame.status = 0x21)) = true := by
  unfold Delivered Passes; decide +kernel

/-- The response to sequence 7 stands in the repeat cache. -/
def repeated : State := { serving with chain := { serving.chain with cache := [(7, frame 4 2 0 [], 0)] } }

theorem test_repeated : Passes .chu (command 2 (beBytes 4 5)) repeated ∧ (cachedResponse repeated 7).isSome = true ∧
    after (exec (.repeatedResponse .chu (command 2 (beBytes 4 5))) repeated) (fun t => t.tank.usec = 0 && t.chainSent.length = 2 &&
      t.chainSent.any (fun e => e.frame.flags = 0x10)) = true := by
  unfold Passes; decide +kernel

/-! ### The chain link -/

theorem test_link_up : after (exec (.chainLinkUp .chd) { serving with chain := { serving.chain with chd := CPort.reset } }) (fun t =>
    t.chain.chd.up && t.chain.chd.rx = .continuous && t.chain.chd.driverOn) = true := by decide +kernel

theorem test_link_retry : chainRuns { serving with chain := { serving.chain with chd := CPort.reset } } = true ∧
    after (exec (.chainLinkRetry .chd) { serving with chain := { serving.chain with chd := CPort.reset } }) (fun t =>
      !t.chain.chd.up) = true := by decide +kernel

theorem test_link_down : after (exec (.chainLinkDown .chd) serving) (fun t => !t.chain.chd.up && t.chain.chd.broken && t.chain.chu.up) = true := by
  decide +kernel

/-- A received frame whose checks came out as given. -/
def received (fcs mac len crc : Bool) : RxChain := { fcsOk := fcs, macOk := mac, lengthOk := len, crcOk := crc, frame := command 8 [] }

theorem test_frame_reject :
    after (exec (.chainFrameReject .chd (received false true true true)) serving) (fun t => Map.get 0 (0x20C / 4) t.ctr.chain = 1) = true ∧
    after (exec (.chainFrameReject .chd (received true true false true)) serving) (fun t => Map.get 0 (0x214 / 4) t.ctr.chain = 1) = true ∧
    after (exec (.chainFrameReject .chu (received true true true false)) serving) (fun t => Map.get 0 (0x110 / 4) t.ctr.chain = 1) = true := by
  decide +kernel

theorem test_frame_forward : Passes .chu { command 8 [] with dest := 2, hops := 62 } serving ∧
    after (exec (.chainFrameForward .chu { command 8 [] with dest := 2, hops := 61 }) serving) (fun t =>
      t.chainSent.any (fun e => e.port = .chd && e.frame.hops = 62)) = true := by
  unfold Passes; decide +kernel

theorem test_hop_ack :
    after (exec (.hopAckReceive .chd { frame 8 3 0 [] with source := 0 })
      { serving with chain := { serving.chain with chd := { linkUp with broken := true, awaiting := [{ frame := command 8 [], sends := 1 }] } } })
      (fun t => t.chain.chd.awaiting = [] && !t.chain.chd.broken) = true := by decide +kernel

/-- A frame waits on CHD for its acknowledgement. -/
def waiting (n : Nat) : State :=
  { serving with chain := { serving.chain with chd := { linkUp with awaiting := [{ frame := command 8 [], sends := n }] } } }

theorem test_hop_resend : isBeacon (command 8 []) = false ∧
    after (exec (.hopResend .chd) (waiting 3)) (fun t => t.chain.chd.awaiting.map (fun a => a.sends) = [4] && t.chainSent.length = 1) = true ∧
    after (exec (.hopResend .chd) (waiting 4)) (fun t => t.chain.chd.broken) = true := by decide +kernel

/-- The unit has no address. -/
def nameless : State := { serving with tank := { serving.tank with addr := 0 } }

theorem test_enumerate : Passes .chu { frame 6 0 0 [] with dest := 63, hops := 61 } nameless ∧
    after (exec (.enumerate .chu { frame 6 0 0 [] with dest := 63, hops := 61 }) nameless) (fun t =>
      t.tank.addr = 62 && t.tank.addrFromBmc && t.chain.heardEnum) = true := by
  unfold Passes; decide +kernel

theorem test_enumerate_mismatch :
    after (exec (.enumerate .chu { frame 6 0 0 [] with dest := 63, hops := 1 }) serving) (fun t => t.tank.mismatch && t.tank.addr = 1) = true ∧
    after (exec (.enumerate .chu { frame 6 0 0 [] with dest := 63, hops := 0 }) serving) (fun t => !t.tank.mismatch && t.tank.addr = 1) = true := by
  decide +kernel

theorem test_head_self :
    after (exec .headSelfEnumerate { nameless with pins := { nameless.pins with head := true } }) (fun t =>
      t.tank.addr = 1 && t.chain.selfEnumDone && t.chain.ownSeq = 1) = true := by decide +kernel

theorem test_confirm : Passes .chd { frame 7 0 0 [] with dest := 0, hops := 1 } serving ∧
    after (exec (.confirm .chd { frame 7 0 0 [] with dest := 0, hops := 1 }) serving) (fun t =>
      t.chainSent.any (fun e => e.port = .chu && e.frame.hops = 2 && e.frame.payload ≠ [])) = true := by
  unfold Passes; decide +kernel

theorem test_quiet : after (exec (.quietTurnOff .chu) serving) (fun t => t.chain.chu.driverOn = !t.chain.chu.quiet) = true := by decide +kernel

theorem test_keepalive :
    after (exec (.keepalive .chu) { serving with chain := { serving.chain with chu := { linkUp with quiet := true, driverOn := false } } })
      (fun t => Map.get 0 (0x128 / 4) t.ctr.chain = 1) = true := by decide +kernel

/-- CHU's receiver is in a state. -/
def receiver (r : RxState) : State := { serving with chain := { serving.chain with chu := { linkUp with rx := r, partnerUnit := true } } }

theorem test_wake : after (exec (.wakeDetect .chu) (receiver .listening)) (fun t =>
    t.chain.chu.rx = .acquiring && Map.get 0 (0x12C / 4) t.ctr.chain = 1) = true := by decide +kernel

theorem test_false_wake : after (exec (.falseWake .chu) (receiver .acquiring)) (fun t =>
    t.chain.chu.rx = .listening && Map.get 0 (0x130 / 4) t.ctr.chain = 1) = true := by decide +kernel

theorem test_block_lock : after (exec (.blockLock .chu) (receiver .acquiring)) (fun t => t.chain.chu.rx = .locked) = true := by decide +kernel

theorem test_partner_off : after (exec (.partnerDriverOff .chu) (receiver .locked)) (fun t => t.chain.chu.rx = .listening) = true ∧
    after (exec (.partnerDriverOff .chu) (receiver .continuous)) (fun t => t.chain.chu.rx = .listening) = true := by decide +kernel

theorem test_beacon : safePhase 0xF0 = true ∧ safePhase 0xF1 = true ∧
    after (exec .beacon (inPhase 0xF0 serving)) (fun t =>
      t.chainSent.any (fun e => e.port = .chd && e.frame.ftype = 5 && e.frame.addr = 0x8000 && e.frame.payload.length = 64) && t.chain.chd.awaiting.length = 1) = true := by
  decide +kernel

/-- A beacon waits for its acknowledgement. -/
theorem test_beacon_once : isBeacon { frame 5 0x22 0x8000 [] with flags := 0x88 } = true ∧
    after (exec (.hopResend .chd) { serving with chain := { serving.chain with chd := { linkUp with awaiting := [{ frame := frame 5 0x22 0x8000 [], sends := 1 }] } } })
      (fun t => t.chain.chd.awaiting = [] && t.chainSent = []) = true := by decide +kernel

/-! ### Faults and the journal -/

/-- A fault message. -/
def message (kind : Byte) (cls sev : BitVec 2) : FaultMsg :=
  { source := 0x081, kind := kind, cls := cls, severity := sev, addr := 5, ownEntry := false, detail := 0 }

/-- The unit with one message for the Churn. -/
def messaged (kind : Byte) (cls sev : BitVec 2) : State :=
  { serving with churn := { serving.churn with inbox := [message kind cls sev] } }

theorem test_message_uc : nextMessage (messaged 0x63 1 0) = some (message 0x63 1 0) ∧
    after (exec .faultMessage (messaged 0x63 1 0)) (fun t => t.churn.ucPending && t.churn.next = 1 && t.tank.phase = 8) = true := by
  decide +kernel

theorem test_message_stop : nextMessage (messaged 0x22 2 1) = some (message 0x22 2 1) ∧
    after (exec .faultMessage (messaged 0x22 2 1)) (fun t => t.tank.phase = 0xF0 && t.tank.stopLatch = 7) = true := by decide +kernel

theorem test_message_lock : nextMessage (messaged 0x35 2 2) = some (message 0x35 2 2) ∧
    after (exec .faultMessage (setKey 4 { KeySlot.zero with key := 9 } (messaged 0x35 2 2))) (fun t =>
      t.tank.phase = 0xF1 && t.tank.lockLatch = 7 && t.keys = []) = true := by decide +kernel

theorem test_churn_fault : after (exec (.churnFault .stalled false) serving) (fun t =>
    t.tank.phase = 0xF1 && t.churn.safe = 2 && t.churn.cause = 0xFFFFFFFF) = true := by decide +kernel

theorem test_handshake : after (exec (.handshakeTimeout 0x050 0x081) serving) (fun t =>
    t.churn.inbox.map (fun m => (m.kind, m.cls, m.severity)) = [(0x61, 2, 1)]) = true ∧
    sourceAssigned 0x050 = true ∧ sourceAssigned 0x081 = true ∧ sourceAssigned 0x096 = false ∧
    after (exec (.handshakeTimeout 0x096 0x081) serving) (fun t => decide (t = serving)) = true := by decide +kernel

theorem test_heartbeat : after (exec .heartbeat { serving with tank := { serving.tank with heartbeatUs := 9 } }) (fun t => t.tank.heartbeatUs = 0) = true := by
  decide +kernel

theorem test_watchdog : after (exec .watchdogExpiry serving) (fun t => t.tank.coreHeld && t.churn.inbox.map (fun m => m.kind) = [0x64]) = true := by
  decide +kernel

/-- A source with eight messages of a class. -/
def full (cls : BitVec 2) : State := { serving with churn := { serving.churn with inbox := List.replicate 8 (message 0x30 cls 0) } }

theorem test_buffers : 8 ≤ ((full 0).churn.inbox.filter (fun x => x.source = 0x081)).length ∧
    (pushMsg (message 1 0 0) (full 0)).churn.ceDropped = 1 ∧ (pushMsg (message 1 0 0) (full 1)).churn.ceDropped = 1 ∧
    (pushMsg (message 0x63 1 0) (full 0)).churn.inbox.length = 8 ∧ message 0x63 1 0 ∈ (pushMsg (message 0x63 1 0) (full 0)).churn.inbox ∧
    (pushMsg (message 0x63 1 0) (full 1)).churn.stalled = [message 0x63 1 0] := by decide +kernel

/-- The queue holds an entry of sequence 1,048,575, whose slot is the last. -/
def entered : State :=
  { serving with journal := { serving.journal with queue := [{ seq := some 1048575, minute := 1, usec := 2, source := 0x081, etype := 0x30,
                                                                flags := 0x80, result := 0, args := [], faultRecord := none }] } }

theorem test_journal_write : markedRow entered (journalLine 1048575) = false ∧
    after (exec .journalWrite entered) (fun t => t.journal.written = 1048576 && (lineBytes t (journalLine 1048575) 0 8) = beBytes 8 1048575) = true := by
  decide +kernel

/-! ### Starts and resets -/

/-- The unit with POR_N low. -/
def porLow : State := { serving with pins := { serving.pins with porN := false, pllLocked := false } }

theorem test_por_rise : after (exec (.porNRise true) porLow) (fun t =>
    startWord t = 0x01000000 && t.pins.head && t.tank.addr = 0 && !t.tank.filled && t.drbg.instantiated) = true := by decide +kernel

theorem test_pll_lock : after (exec .islandPllLock { serving with pins := { serving.pins with pllLocked := false } }) (fun t =>
    t.pins.pllLocked && t.tank.coreRunning) = true := by decide +kernel

theorem test_margin_read : after (exec (.otpMarginRead []) (inPhase 1 serving)) (fun t => t.tank.phase = 0xE1 && t.tank.haltReason = 2) = true := by
  decide +kernel

theorem test_layers : (getChan (inPhase 2 serving) 0).initialised = false ∧ serving.pins.powerFail = false ∧
    after (exec (.layerInitialisation [(63, 91)]) (inPhase 2 serving)) (fun t => t.tank.phase = 2) = true := by decide +kernel

theorem test_fill : after (exec .memoryFill { inPhase 3 serving with tank := { (inPhase 3 serving).tank with filled := false } }) (fun t =>
    t.tank.phase = 4 && t.tank.filled && t.skim.running && t.journal.queue.map (fun e => e.etype) = [0x01]) = true := by decide +kernel

theorem test_bank_check : after (exec .planBankCheck (inPhase 4 serving)) (fun t => t.tank.phase = 0xE0 && t.tank.haltReason = 3) = true := by
  decide +kernel

/-- A part of what has been written, read. -/
theorem read_written (d : Nat → Byte) (a k n : Nat) (bs : List Byte) (m : List Host.Cell) (h : k + n ≤ bs.length) :
    Memory.read d (a + k) n (Memory.write d a bs m) = (bs.drop k).take n := by
  apply List.ext_getElem
  · simp [Memory.read]; omega
  · intro i h1 h2
    have hi : k + i < bs.length := by simp [Memory.read] at h1; omega
    simp only [Memory.read, List.getElem_map, List.getElem_range, List.getElem_take, List.getElem_drop]
    rw [Nat.add_assoc, Memory.get_write_inside hi]
    simp [List.getElem?_eq_getElem hi]

/-- One bit of a CRC, in numbers. -/
def crcBit (poly c : Nat) : Nat := bif c % 2 == 1 then Nat.xor (c / 2) poly else c / 2

/-- The CRC in numbers, with its value taken at each byte, so that the kernel evaluates it without a stack. -/
def crcRun (poly : Nat) : List Byte → Nat → Nat
  | [], c => c
  | b :: t, c =>
    bif c == 0 then crcRun poly t (crcBit poly (crcBit poly (crcBit poly (crcBit poly (crcBit poly (crcBit poly (crcBit poly (crcBit poly (Nat.xor c b.toNat)))))))))
    else crcRun poly t (crcBit poly (crcBit poly (crcBit poly (crcBit poly (crcBit poly (crcBit poly (crcBit poly (crcBit poly (Nat.xor c b.toNat)))))))))

theorem crc_bit_lt (poly : BitVec 32) {c : Nat} (h : c < 2 ^ 32) : crcBit poly.toNat c < 2 ^ 32 := by
  have hx : Nat.xor (c / 2) poly.toNat < 2 ^ 32 := Nat.xor_lt_two_pow (by omega) poly.isLt
  unfold crcBit; cases c % 2 == 1 <;> simp <;> omega

theorem crc_bit (poly c : BitVec 32) : (if c.getLsbD 0 then (c >>> 1) ^^^ poly else c >>> 1) = BitVec.ofNat 32 (crcBit poly.toNat c.toNat) := by
  apply BitVec.eq_of_toNat_eq
  rw [BitVec.toNat_ofNat, Nat.mod_eq_of_lt (crc_bit_lt poly c.isLt)]
  have hb : c.getLsbD 0 = (c.toNat % 2 == 1) := by simp [BitVec.getLsbD, Nat.testBit, Nat.mod_two_bne_zero]
  rw [hb, crcBit]
  cases c.toNat % 2 == 1
  · simp [Nat.shiftRight_eq_div_pow]
  · simp [Nat.shiftRight_eq_div_pow]

theorem crc_run (poly : BitVec 32) (bs : List Byte) (c : BitVec 32) : bs.foldl (crcByte poly) c = BitVec.ofNat 32 (crcRun poly.toNat bs c.toNat) := by
  induction bs generalizing c with
  | nil => simp [crcRun]
  | cons b t ih =>
    have e : ∀ x : Nat, x < 2 ^ 32 → (BitVec.ofNat 32 x).toNat = x := fun x hx => by simpa using Nat.mod_eq_of_lt hx
    have l0 : (c ^^^ b.setWidth 32).toNat < 2 ^ 32 := (c ^^^ b.setWidth 32).isLt
    have hb : (c ^^^ b.setWidth 32).toNat = Nat.xor c.toNat b.toNat := by
      rw [BitVec.toNat_xor, BitVec.toNat_setWidth, Nat.mod_eq_of_lt (by omega)]; rfl
    have h1 := fun {x} (h : x < 2 ^ 32) => crc_bit_lt poly h
    rw [List.foldl_cons, ih]
    congr 1
    have : (crcByte poly c b).toNat = crcBit poly.toNat (crcBit poly.toNat (crcBit poly.toNat (crcBit poly.toNat (crcBit poly.toNat (crcBit poly.toNat
        (crcBit poly.toNat (crcBit poly.toNat (Nat.xor c.toNat b.toNat)))))))) := by
      rw [← hb]
      simp only [crcByte, List.range_succ, List.range_zero, List.nil_append, List.foldl_append, List.foldl_cons, List.foldl_nil, crc_bit,
        e _ (h1 l0), e _ (h1 (h1 l0)), e _ (h1 (h1 (h1 l0))), e _ (h1 (h1 (h1 (h1 l0)))), e _ (h1 (h1 (h1 (h1 (h1 l0))))),
        e _ (h1 (h1 (h1 (h1 (h1 (h1 l0)))))), e _ (h1 (h1 (h1 (h1 (h1 (h1 (h1 l0))))))), e _ (h1 (h1 (h1 (h1 (h1 (h1 (h1 (h1 l0)))))))) ]
    rw [this, crcRun]
    cases c.toNat == 0 <;> rfl

/-- A section of an image: type, CRC-32C, body. -/
def sectionBytes (ty : Byte) (crc : Nat) (b : List Byte) : List Byte :=
  ty :: 1 :: 0 :: 0 :: (beBytes 4 b.length ++ (beBytes 4 crc ++ (0 :: 0 :: 0 :: 0 :: b)))

/-- Zeros. -/
def zeros (n : Nat) : List Byte := List.replicate n 0



/-- The section area of a plan without tenants, regions or classes. -/
def area : List Byte :=
  [sectionBytes 1 2324772522 (zeros 32), sectionBytes 3 3136696118 (zeros 384), sectionBytes 4 3838023291 [1, 0, 1, 0, 1, 0, 1, 0],
    sectionBytes 5 1214729159 (zeros 4) ++ zeros 4, sectionBytes 6 1214729159 (zeros 4) ++ zeros 4, sectionBytes 7 3136696118 (zeros 384),
    sectionBytes 8 1768776768 (zeros 64 ++ (0 :: 1 :: (zeros 6 ++ List.replicate 4096 0x11))), sectionBytes 9 3828063810 [0, 1, 0, 0, 0, 0, 0, 0],
    sectionBytes 10 438263579 (1 :: 0 :: 0 :: 64 :: 0 :: 0 :: 0 :: 0 :: (List.range 64).map (BitVec.ofNat 8)), sectionBytes 11 1214729159 (zeros 4) ++ zeros 4,
    sectionBytes 12 2910052282 [1, 8, 0, 0] ++ zeros 4, sectionBytes 13 205612164 [2, 0, 0, 120] ++ zeros 4, sectionBytes 14 3121400004 [0, 0, 0, 1] ++ zeros 4,
    sectionBytes 0xFF 3012624073 (zeros 196)].foldr (fun x r => x ++ r) []

/-- The header of the bank: sequence 7, adopt-at minute 0, armed. -/
def header : List Byte :=
  beBytes 4 0x4855504C ++ beBytes 4 0x00010040 ++ beBytes 4 7 ++ beBytes 4 5524 ++ zeros 4 ++ beBytes 4 951889696 ++ zeros 0x24 ++ beBytes 4 0x5A5A5A5A

/-- A device in MANUFACTURE whose bank A holds the plan. -/
def imaged : State :=
  { serving with
    otp := { serving.otp with life := 1 }, flash := Memory.write flashByte (bankBase .a) (header ++ area) [], retired := 0xFFFFFFFFFFFFFFFF,
    tank := { serving.tank with phase := 6 }, plans := { serving.plans with bankA := { BankState.reset with state := 6 } } }

theorem area_length : area.length = 5524 := by decide +kernel

theorem header_length : header.length = 64 := by decide +kernel

theorem imaged_flash : imaged.flash = Memory.write flashByte (bankBase .a) (header ++ area) [] := by simp only [imaged]

theorem imaged_read (k n : Nat) (h : k + n ≤ 5588) : flashRead imaged (bankBase .a + k) n = ((header ++ area).drop k).take n := by
  have hl : k + n ≤ (header ++ area).length := by rw [List.length_append, area_length, header_length]; exact h
  rw [flashRead, imaged_flash, read_written flashByte (bankBase .a) k n (header ++ area) [] hl]

theorem crc32_run (bs : List Byte) : crc32 bs = ~~~(BitVec.ofNat 32 (crcRun 0xEDB88320 bs 0xFFFFFFFF)) := by rw [crc32, crc32With, crc_run]; rfl

theorem crc32c_run (bs : List Byte) : crc32c bs = ~~~(BitVec.ofNat 32 (crcRun 0x82F63B78 bs 0xFFFFFFFF)) := by rw [crc32c, crc32With, crc_run]; rfl

theorem imaged_head : flashRead imaged (bankBase .a) 0x40 = header := by
  have := imaged_read 0 0x40 (by decide)
  rw [Nat.add_zero] at this
  rw [this]; simp [← header_length]

theorem imaged_area : flashRead imaged (bankBase .a + 0x40) 5524 = area := by
  rw [imaged_read 0x40 5524 (by decide), List.drop_append_of_le_length (by rw [header_length])]
  simp [← header_length, ← area_length]

theorem imaged_word (k : Nat) (h : k + 4 ≤ 64) : bankWord imaged .a k = field ((header.drop k).take 4) 0 4 := by
  rw [bankWord, imaged_read k 4 (by omega), List.drop_append_of_le_length (by rw [header_length]; omega),
    List.take_append_of_le_length (by rw [List.length_drop, header_length]; omega)]

/-- headerFault with the CRC as `crcRun`. -/
def headerRun (prev : Nat) (a : List Byte) : Option Nat :=
  let ty := field a 0 1
  let len := field a 4 4
  if a.length < 16 then some 0
  else if !typeAllowed false ty || decide (ty ≤ prev) then some 0
  else if field a 1 1 ≠ 1 then some 1
  else match firstNonzero ((a.drop 2).take 2) with
    | some i => some (2 + i)
    | none =>
      if a.length < 16 + len then some 4
      else if field a 8 4 ≠ (~~~(BitVec.ofNat 32 (crcRun 0x82F63B78 ((a.drop 16).take len) 0xFFFFFFFF))).toNat then some 8
      else (firstNonzero ((a.drop 12).take 4)).map (fun i => 12 + i)

theorem header_run (prev : Nat) (a : List Byte) : headerFault false prev a = headerRun prev a := by simp only [headerFault, headerRun, crc32c_run] <;> rfl

/-- readSections with the CRC as `crcRun`. -/
def runSections (base : Nat) : Nat → Nat → Nat → List Byte → List Section × Option Nat
  | 0, p, _, _ => ([], some (base + p))
  | fuel + 1, p, prev, a =>
    let len := field a 4 4
    let o := base + p
    match headerRun prev a with
    | some i => ([], some (o + i))
    | none =>
      let sec : Section := { ty := field a 0 1, off := o + 16, body := (a.drop 16).take len }
      if a.length = 16 + len then ([sec], none)
      else
        let next := align8 (16 + len)
        match firstNonzero ((a.drop (16 + len)).take (next - 16 - len)) with
        | some i => ([sec], some (o + 16 + len + i))
        | none =>
          if a.length ≤ next then ([sec], some (o + 16 + len))
          else
            let r := runSections base fuel (p + next) sec.ty (a.drop next)
            (sec :: r.1, r.2)

theorem run_sections (base fuel p prev : Nat) (a : List Byte) : readSections false base fuel p prev a = runSections base fuel p prev a := by
  induction fuel generalizing p prev a with
  | zero => rfl
  | succ n ih => simp only [readSections, runSections, ih, header_run] <;> rfl

set_option maxRecDepth 100000 in
theorem header_crc : crcRun 0xEDB88320 (header.take 0x14 ++ (header.drop 0x18).take 0x24 ++ area) 0xFFFFFFFF = 0xFFFFFFFF - 951889696 := by decide +kernel

/-- What the checks of the area beyond the CRC ask of its sections. -/
def areaPass (l : List Section) : Bool :=
  (match findSection l 0x02 with | some _ => false | none => true) && (match checkSignature imaged header area l with | .error _ => false | .ok _ => true) &&
    bindsDevice imaged l

/-- What the checks of the contents ask of them. -/
def contentsPass (l : List Section) : Bool :=
  !requiredTypes.any (fun t => (resolved l (subsection l 1) t).isNone) &&
    (match checkContents l (subsection l 1) with | .error _ => false | .ok _ => true)

/-- What the plan that they give shows. -/
def planBare (l : List Section) : Bool :=
  decide ((readPlan imaged .a l (subsection l 1)).regions = []) && (readPlan imaged .a l (subsection l 1)).classes.all (fun r => !r.inUse)

/-- All of them. -/
def sectionsPass (l : List Section) : Bool := areaPass l && contentsPass l && planBare l

/-- The area's sections are read without a fault, and pass a check. -/
def areaHas (q : List Section → Bool) : Bool := match runSections 0x40 16 0 0 area with | (l, none) => q l | (_, some _) => false

set_option maxRecDepth 100000 in
theorem area_pass : areaHas areaPass = true := by decide +kernel

set_option maxRecDepth 100000 in
theorem contents_pass : areaHas contentsPass = true := by decide +kernel

set_option maxRecDepth 100000 in
theorem plan_bare : areaHas planBare = true := by decide +kernel

theorem area_sections : areaHas sectionsPass = true := by
  have h := area_pass
  have k := contents_pass
  have m := plan_bare
  revert h k m; unfold areaHas; rcases runSections 0x40 16 0 0 area with ⟨l, _ | e⟩ <;> simp +contextual [sectionsPass]

/-- A bank that passes its checks, from what each check finds. -/
theorem form_passes {s : State} {b : Bank} {h a : List Byte} {l : List Section} {len : Nat} (hh : flashRead s (bankBase b) 0x40 = h)
    (ha : flashRead s (bankBase b + 0x40) len = a) (h0 : field h 0 4 = 0x4855504C) (h4 : field h 4 2 = 1) (h6 : field h 6 2 = 0x40) (hc : field h 0x0C 4 = len)
    (hl : 8 ≤ len) (hm : len ≤ 0x017FFFC0) (hk : (crc32 (h.take 0x14 ++ (h.drop 0x18).take 0x24 ++ a)).toNat = field h 0x14 4)
    (hr : readSections false 0x40 16 0 0 a = (l, none)) (he : findSection l 0x02 = none) (hf : checkSignature s h a l = .ok ()) (hd : bindsDevice s l = true) :
    checkBankForm s b = .ok l := by
  have h8 : ¬ len < 8 := by omega
  have h9 : ¬ 0x017FFFC0 < len := by omega
  rw [List.append_assoc] at hk
  simp [checkBankForm, hh, h0, h4, h6, hc, ha, checkArea, hk, hr, he, hf, hd, lowest, h8, h9]

theorem imaged_form : ∃ l, checkBankForm imaged .a = .ok l ∧ sectionsPass l = true := by
  have h := area_sections
  unfold areaHas at h
  rcases hl : runSections 0x40 16 0 0 area with ⟨l, _ | e⟩
  · rw [hl] at h
    refine ⟨l, ?_, h⟩
    simp only [sectionsPass, areaPass, Bool.and_eq_true] at h
    obtain ⟨⟨⟨⟨ha, hb⟩, hd⟩, -⟩, -⟩ := h
    have he : findSection l 0x02 = none := by revert ha; cases findSection l 0x02 <;> simp
    have hf : checkSignature imaged header area l = .ok () := by revert hb; cases checkSignature imaged header area l <;> simp
    have hcrc : (crc32 (header.take 0x14 ++ (header.drop 0x18).take 0x24 ++ area)).toNat = field header 0x14 4 := by
      rw [crc32_run, header_crc]; decide +kernel
    exact form_passes imaged_head imaged_area (by decide +kernel) (by decide +kernel) (by decide +kernel) (by decide +kernel) (by decide) (by decide)
      hcrc ((run_sections _ _ _ _ _).trans hl) he hf hd
  · rw [hl] at h; cases h

theorem header_adopt : BitVec.ofNat 32 (field ((header.drop 0x10).take 4) 0 4) = 0 := by decide +kernel

theorem bank_passes {s : State} {b : Bank} {l sub : List Section} (h : checkBankForm s b = .ok l) (hs : subsection l s.tank.addr.toNat = sub)
    (hr : requiredTypes.any (fun t => (resolved l sub t).isNone) = false) (hc : checkContents l sub = .ok ()) : checkBank s b = .ok (readPlan s b l sub) := by
  subst hs; simp only [checkBank, h, checkBankContents, hr, hc, Bool.false_eq_true, if_false]

theorem imaged_bank : ∃ p, checkBank imaged .a = .ok p ∧ p.adoptAt = 0 ∧ p.regions = [] ∧ compat imaged p 100 true = none ∧ admission p imaged.retired = none := by
  obtain ⟨l, hl, h⟩ := imaged_form
  simp only [sectionsPass, contentsPass, planBare, Bool.and_eq_true, Bool.not_eq_true', decide_eq_true_eq] at h
  obtain ⟨⟨-, hr, hc⟩, hg, hk⟩ := h
  have hc' : checkContents l (subsection l 1) = .ok () := by revert hc; cases checkContents l (subsection l 1) <;> simp
  have ha : imaged.tank.addr.toNat = 1 := by simp only [imaged]; rfl
  have hp : imaged.plans.plan = none := by simp only [imaged]; rfl
  refine ⟨readPlan imaged .a l (subsection l 1), ?_, ?_, hg, by simp only [compat, hp], ?_⟩
  · exact bank_passes hl (congrArg (subsection l) ha) hr hc'
  · exact (congrArg (BitVec.ofNat 32) (imaged_word 0x10 (by decide))).trans header_adopt
  · have hx : imaged.retired = BitVec.allOnes 64 := by simp only [imaged]; rfl
    have hn : ∀ r ∈ (readPlan imaged .a l (subsection l 1)).classes, r.inUse = false := by simpa using hk
    have h1 : (readPlan imaged .a l (subsection l 1)).classes.any (fun r => r.inUse && (decide (r.target < 100) || decide (1000 < r.target))) = false := by
      rw [List.any_eq_false]; intro r hr; simp [hn r hr]
    have h3 : (planLeases (readPlan imaged .a l (subsection l 1))) = [] := by simp [planLeases, hg]
    have h2 : ∀ ch ∈ List.range 64, (BitVec.allOnes 64).getLsbD ch = true := by decide
    simp only [admission, hx, h1, h3, List.any_nil, Bool.false_eq_true, if_false]
    rw [List.findSome?_eq_none_iff]; intro ch hc; rw [if_pos (h2 ch hc)]

/-- A device at the second step of a warm start that keeps a plan, bank B being staged. -/
def warm (p : Plan) (s : State) : State := { s with plans := { s.plans with plan := some p, target := some .b } }

theorem warm_check (p : Plan) (s : State) (b : Bank) : checkBank (setBS .a 6 0 0 (warm p s)) b = checkBank s b := rfl

theorem warm_form (p : Plan) (s : State) (b : Bank) : checkBankForm (warm p s) b = checkBankForm s b := rfl

theorem warm_arm (p : Plan) (s : State) (b : Bank) : armWord (warm p s) b = armWord s b := rfl

/-- The state after the checks of a warm start is the one before it, with the armed bank valid, and its bank is the one to try. -/
theorem warm_selects {s : State} {p : Plan} {l : List Section} (hp : checkBank s .a = .ok p) (hl : checkBankForm s .a = .ok l) (hw : armWord s .a = 0x5A5A5A5A)
    (hr : p.regions = []) (hs : s.regions = []) (hd : admission p s.retired = none) (hb : s.plans.bankB.state ≠ 6) (hf : s.plans.forced = none) :
    (let w := checkAtWarm .b (checkAtWarm .a (warm p s))
     w.tank = s.tank ∧ armed w .a = true ∧ w.plans.plan.isSome = true ∧ bankOrder w = [.a] ∧ checkBank w .a = .ok p ∧
      (∀ m, compat (viewOf (readRecords w).1 (readRecords w).2) p m true = none) ∧ admission p (readRecords w).2.retired = none) := by
  have h1 : checkAtWarm .a (warm p s) = setBS .a 6 0 0 (warm p s) := by
    have ht : (warm p s).plans.target = some .b := rfl
    have hk : armed (setBS .a 6 0 0 (warm p s)) .a = true := rfl
    simp [checkAtWarm, ht, warm_form, hl, validBank, warm_arm, hw, hk]
  have h2 : checkAtWarm .b (setBS .a 6 0 0 (warm p s)) = setBS .a 6 0 0 (warm p s) := by
    have ht : (setBS .a 6 0 0 (warm p s)).plans.target = some .b := rfl
    simp [checkAtWarm, ht]
  have h3 : readRecords (setBS .a 6 0 0 (warm p s)) = ([], setBS .a 6 0 0 (warm p s)) := by
    have hq : planOf (setBS .a 6 0 0 (warm p s)) = p := rfl
    simp [readRecords, hq, hr]
  have ho : bankOrder (setBS .a 6 0 0 (warm p s)) = [.a] := by
    have ka : armed (setBS .a 6 0 0 (warm p s)) .a = true := rfl
    have kb : armed (setBS .a 6 0 0 (warm p s)) .b = false := decide_eq_false hb
    have kf : (setBS .a 6 0 0 (warm p s)).plans.forced = none := hf
    unfold bankOrder
    cases newerSeq (getBS (setBS .a 6 0 0 (warm p s)) .b).seq (getBS (setBS .a 6 0 0 (warm p s)) .a).seq <;> simp [List.filter, ka, kb, kf]
  rw [h1, h2]; dsimp only; rw [h3]
  refine ⟨rfl, rfl, rfl, ho, (warm_check p s .a).trans hp, fun m => ?_, hd⟩
  have hq : (viewOf [] (setBS .a 6 0 0 (warm p s))).plans.plan = some p := rfl
  have hx : (viewOf [] (setBS .a 6 0 0 (warm p s))).regions = [] := hs
  simp [compat, hq, hx, hr]

theorem imaged_arm : armWord imaged .a = 0x5A5A5A5A := by rw [armWord, imaged_word 0x3C (by decide)]; decide +kernel

/-- The bank in which the warm start finds its plan is put back into force. -/
theorem test_warm_bank : ∃ p, (let w := checkAtWarm .b (checkAtWarm .a (warm p imaged))
    w.tank = imaged.tank ∧ armed w .a = true ∧ w.plans.plan.isSome = true ∧ bankOrder w = [.a] ∧ checkBank w .a = .ok p ∧
      (∀ m, compat (viewOf (readRecords w).1 (readRecords w).2) p m true = none) ∧ admission p (readRecords w).2.retired = none) ∧ p.adoptAt = 0 := by
  obtain ⟨p, hp, ha, hr, -, hd⟩ := imaged_bank
  obtain ⟨l, hl, -⟩ := imaged_form
  exact ⟨p, warm_selects hp hl imaged_arm hr (by simp only [imaged]; rfl) hd (by simp only [imaged]; decide) (by simp only [imaged]; rfl), ha⟩

/-- The unit with the plan in bank A has everything that a selection asks for. -/
theorem test_selectable : imaged.tank.phase = 6 ∧ imaged.tank.anchored = true ∧ imaged.tank.minute = 100 ∧ bankOrder imaged = [.a] ∧
    imaged.pins.wrstUntil ≤ imaged.tank.clockUs ∧ imaged.pins.powerFail = false := by decide +kernel

theorem test_armed_bank : (∀ (s : State) (p : Byte) (b : Bank), checkBankForm (inPhase p s) b = checkBankForm s b) ∧ armWord imaged .a = 0x5A5A5A5A ∧
    imaged.plans.target = none := by
  exact ⟨fun _ _ _ => rfl, imaged_arm, by simp only [imaged]; rfl⟩

theorem test_plan_selection : timeReady (inPhase 5 serving) = true ∧ bankOrder (inPhase 6 serving) = [] ∧
    bankOrder { inPhase 6 serving with plans := { serving.plans with bankB := { BankState.reset with state := 6 } } } = [.b] ∧
    after (exec .planSelection (inPhase 5 serving)) (fun t => t.tank.phase = 6) = true ∧
    after (exec .planSelection (inPhase 6 serving)) (fun t => t.tank.phase = 0xE0) = true := by decide +kernel

/-- A drain for WRST_N. -/
def drainFor (acked : BitVec 64) (stop : Bool) : Drain := { cause := .wrst, acked := acked, timedOut := false, stopAfter := stop, wrstAfter := false }

/-- The unit drains. -/
def draining (d : Drain) (writes : List (Nat × Nat)) : State :=
  { inPhase 0x10 serving with tank := { (inPhase 0x10 serving).tank with lastReset := 1, pendingWrites := writes, drain := some d } }

theorem test_channel_ack : after (exec (.channelSelfRefreshAck 63) (draining (drainFor 0 false) [])) (fun t =>
    (getChan t 63).selfRefresh) = true := by decide +kernel

/-- An address on the pending-write list of a write that no queue holds stays there. -/
theorem test_writes_left : writesLeft (finishChannel 63 (draining (drainFor 0 false) [(63, 128)])) 63 = true ∧
    writesLeft (finishChannel 63 (draining (drainFor 0 false) [])) 63 = false := by decide +kernel

/-- With no journal entry and no minute record under way, nothing is torn beside the tenants' writes. -/
theorem tear_none {ch : Nat} {s : State} (h : s.journal.queue = []) (hr : lastRecordLine s ch = none) : tearSystem ch s = drawn s := by
  simp [tearSystem, h, hr]

/-- Channel 63 alone has not acknowledged. -/
theorem test_drain_timeout : lateChannels (drainFor 0x7FFFFFFFFFFFFFFF false) = [63] ∧
    after (exec .drainTimeout (draining (drainFor 0x7FFFFFFFFFFFFFFF false) [(63, 128)])) (fun t =>
      (getChan t 63).selfRefresh && t.tank.torn = [(63, 128)] && !t.tank.coreRunning) = true := by
  have hl : lateChannels (drainFor 0x7FFFFFFFFFFFFFFF false) = [63] := by decide +kernel
  refine ⟨hl, ?_⟩
  have ht := tear_none (ch := 63) (s := draining (drainFor 0x7FFFFFFFFFFFFFFF false) [(63, 128)]) rfl (by decide +kernel)
  have hd : (draining (drainFor 0x7FFFFFFFFFFFFFFF false) [(63, 128)]).tank.drain = some (drainFor 0x7FFFFFFFFFFFFFFF false) := rfl
  simp only [exec, execDrainTimeout, hd, forceChannels, hl, forEach, List.foldl, forceChannel, ht]
  decide +kernel

theorem test_warm_start : drainOver (drainFor 0xFFFFFFFFFFFFFFFF false) = true ∧
    after (exec (.warmStart []) (draining (drainFor 0xFFFFFFFFFFFFFFFF false) [])) (fun t =>
      t.tank.phase = 0xE1 && t.tank.haltReason = 2 && t.qps = []) = true := by decide +kernel

theorem test_warm_start_stop : after (exec (.warmStart []) (draining (drainFor 0xFFFFFFFFFFFFFFFF true) [])) (fun t =>
    t.tank.phase = 0xF0 && t.tank.coreRunning) = true := by decide +kernel

/-- A unit whose factory hash is marginal in OTP, so that the area cannot match it. -/
def unhashed (p : Byte) : State :=
  { inPhase p serving with otp := { serving.otp with read := [(80, { OtpRead.zero with marginal := true })] } }

theorem test_unhashed : ∀ p : Byte, factoryMatches (unhashed p) = false := fun _ => rfl

theorem test_factory_check : (getChan (setChan 0 { Chan.zero with initialised := true } (unhashed 2)) 0).initialised = true ∧
    after (exec .factoryAreaCheck (setChan 0 { Chan.zero with initialised := true } (unhashed 2))) (fun t =>
      t.tank.phase = 0xE1 && t.tank.haltReason = 1 && t.churn.inbox.map (fun m => m.kind) = [0x30]) = true := by decide +kernel

/-- The cells that read as a hash from OTP word 80 on. -/
def hashed (ws : List W64) : Table OtpRead :=
  [(80, ws[0]!, true), (81, ws[0]!, false), (82, ws[1]!, true), (83, ws[1]!, false), (84, ws[2]!, true), (85, ws[2]!, false), (86, ws[3]!, true), (87, ws[3]!, false),
    (88, ws[4]!, true), (89, ws[4]!, false), (90, ws[5]!, true), (91, ws[5]!, false)].map (fun (e : Nat × W64 × Bool) =>
      (e.1, { data := BitVec.ofNat 32 (if e.2.2 then e.2.1.toNat / 2 ^ 32 else e.2.1.toNat), marginal := false }))

/-- The unit with a hash in OTP. -/
def hashing (ws : List W64) : State := { inPhase 2 serving with otp := { serving.otp with read := hashed ws } }

theorem test_factory_good : ∃ ws, factoryMatches (hashing ws) = true := by
  obtain ⟨a, b, c, d, e, f, h⟩ := sha384_words (factoryArea (inPhase 2 serving))
  refine ⟨[a, b, c, d, e, f], ?_⟩
  have hr : ∀ ws, otpHash (hashing ws) 80 =
      some ((hashed ws).flatMap (fun e => beBytes 4 e.2.data.toNat)) := fun _ => rfl
  have hm : ∀ ws, factoryMatches (hashing ws) =
      decide (otpHash (hashing ws) 80 = some (sha384 (factoryArea (inPhase 2 serving)))) := fun _ => rfl
  rw [hm, hr, h]
  simp only [List.flatMap_cons, List.flatMap_nil, beBytes_split, decide_eq_true_eq, Option.some.injEq]
  rfl

theorem test_warm_start_factory : after (exec (.warmStart []) { unhashed 0x11 with tank := { (unhashed 0x11).tank with lastReset := 2 } }) (fun t =>
    t.tank.phase = 0xE1 && t.tank.haltReason = 1) = true := by decide +kernel

/-- At the second step of a warm start, the area is good, and the layers are hot or not. -/
theorem test_warm_start_good : ∃ ws, ∀ (r : Bool) (l : Layer), ∃ s, s = { setLayer 15 l (inPhase 0x11 (hashing ws)) with thermal := { (setLayer 15 l (hashing ws)).thermal with recheck := r } } ∧
    factoryMatches s = true ∧ s.tank.drain = none ∧ s.pins.refclkOk = true ∧ s.tank.filled = true ∧ s.thermal.recheck = r ∧ s.tank.phase = 0x11 := by
  obtain ⟨ws, h⟩ := test_factory_good
  exact ⟨ws, fun r l => ⟨_, rfl, h, rfl, rfl, rfl, rfl, rfl⟩⟩

theorem test_threshold : atThreshold (setLayer 15 { Layer.zero with effective := 1100 } serving) = true ∧ atThreshold serving = false := by decide +kernel

/-- A torn line: its message, and its poison. -/
theorem test_torn : (let s := { serving with tank := { serving.tank with torn := [(0, 128)] } }
    isRetired s (homeOf s 128).1 = false ∧ s.tank.tornSystem = [] ∧ (tearLines s).churn.inbox.map (fun m => (m.kind, m.addr)) = [(0x70, 128)] ∧
      isPoisoned (tearLines s) (dataHome s (homeOf s 128).1 (homeOf s 128).2) = true) := by decide +kernel

/-- No bank is armed after the checks of a warm start. -/
theorem test_warm_no_bank : (let w := checkAtWarm .b (checkAtWarm .a { inPhase 0x11 serving with tank := { (inPhase 0x11 serving).tank with lastReset := 2 } })
    armed w .a = false ∧ armed w .b = false ∧ w.tank.lastReset ≠ 0) := by decide +kernel

/-- An interface without VLAN tags, of address 10.0.0.1, whose code point 5 has the lossless priority 3. -/
def iface : Iface :=
  { hasV4 := true, hasV6 := true, lossless := 8, vlan := 0, mac := 2, controlPrio := 6, controlDscp := 48, v4 := 0x0A000001, v6 := 9,
    dscpMap := [0, 0, 0, 0, 0, 3] }

/-- A class with a limiter: minimum rate 1000, g of 256/1024, step 100. -/
def klass : ClassRec :=
  { inUse := true, pfc := 3, dscp := 5, esc := 0, target := 0, cap := 64, minRate := 1000, gain := 256, step := 100, period := 55 }

/-- Tenant 3 may connect from 10.0.0.0/8. -/
def tenant : TenantRec := { index := 3, cls := 0, accessCount := 1, quota := 5, serviceId := 77, accessFirst := 0 }

/-- A lease of region 0 from minute 100 to minute 200. -/
def leaseRec : Lease := { id := 9, start := 100, stop := 200, flags := 0, cls := 0 }

/-- A plan with one interface on quadrant 0, of four ports; one class, one tenant and one region. -/
def plan : Plan :=
  { planOf State.reset with
    ifaces := [iface], modes := [(1, 15)], tenants := [tenant], prefixes := [{ family := 4, length := 8, addr := 0x0A000000 }],
    classes := [klass], regions := [{ index := 131071, tenant := 3, vbase := 0x10000, slab := 900, slabs := 1, leases := [leaseRec] }] }

/-- The unit in service with this plan. -/
def planned : State := { serving with plans := { serving.plans with plan := some plan, inForce := some .a } }

theorem test_service_open : (∀ p < 16, (getPort (inPhase 7 planned) p).present = true → (getPort (inPhase 7 planned) p).trained = true) ∧
    after (exec .serviceOpen (inPhase 7 planned)) (fun t => t.tank.phase = 8) = true := by decide +kernel

theorem test_por_fall : after (exec (.porNFall 10) serving) (fun t => !t.pins.porN && t.tank.phase = 1 && !t.tank.filled) = true ∧
    majority serving.tank.lockLatch = false ∧ after (exec (.porNFall 1) serving) (fun t => decide (t = serving)) = true := by decide +kernel

theorem test_por_fall_locked : majority 5 = true ∧
    after (exec (.porNFall 10) { inPhase 0xF1 serving with tank := { (inPhase 0xF1 serving).tank with lockLatch := 5 } }) (fun t =>
      t.tank.phase = 0xF1 && t.tank.lockLatch = 5 && !t.pins.porN) = true := by decide +kernel

theorem test_supply_removal : after (exec .supplyRemoval { inPhase 0xF1 serving with tank := { (inPhase 0xF1 serving).tank with lockLatch := 7 } }) (fun t =>
    t.tank.phase = 1 && t.tank.lockLatch = 0 && t.pins.up = 0) = true := by decide +kernel

/-! ### Supplies and REFCLK -/

/-- The unit whose PWR_OK is high and whose REFCLK runs. -/
def powered : State := { serving with pins := { serving.pins with pwrOk := true, refclkOk := true } }

theorem test_out_of_window : after (exec (.supplyOutOfWindow .vddk none true 20) powered) (fun t => t.churn.inbox.map (fun m => m.addr) = [0x108]) = true ∧
    after (exec (.supplyOutOfWindow .vddk none true 19) powered) (fun t => t.churn.inbox = []) = true := by decide +kernel

theorem test_out_of_window_layer :
    after (exec (.supplyOutOfWindow .vpp (some 15) false 20) serving) (fun t => t.churn.inbox.map (fun m => m.addr) = [0x0F4]) = true ∧
    after (exec (.supplyOutOfWindow .vdda (some 0) true 20) powered) (fun t => t.churn.inbox.map (fun m => m.addr) = [0x103]) = true := by decide +kernel

theorem test_rail_down : railBit powered.pins.up .vddk = true ∧
    after (exec (.supplyOutOfWindow .vddc none false 20) { powered with pins := { powered.pins with pwrOk := false, up := 0x81, started := 0x81 } }) (fun t =>
      t.pins.up = 0x80 && t.pins.started = 0x80 && t.churn.inbox = []) = true := by decide +kernel

theorem test_sequence_violation : after (exec (.supplySequenceViolation .order .vddm) { serving with pins := { serving.pins with porN := false } }) (fun t =>
    t.tank.lockLatch = 7 && t.churn.inbox.map (fun m => (m.kind, m.severity)) = [(0x51, 2)]) = true := by decide +kernel

/-- An order event holds for a rail below 80 % while PWR_OK is high; a skew event needs the monitor's supply alone. -/
theorem test_event_holds : eventHolds .order .vddm { powered with pins := { powered.pins with up := 0x80 } } = true ∧
    eventHolds .skew .vddm { powered with pins := { powered.pins with up := 0x80, pwrOk := false } } = true ∧
    eventHolds .skew .vddm { powered with pins := { powered.pins with up := 0 } } = false := by decide +kernel

theorem test_refclk_off : after (exec .refclkOffFrequency powered) (fun t => t.pins.refclkHold && t.churn.inbox.map (fun m => m.addr) = [0x70C]) = true := by
  decide +kernel

theorem test_refclk_stopped : after (exec .refclkStopped powered) (fun t =>
    t.tank.unsync && !t.tank.coreRunning && !t.chain.chu.up && !t.chain.chd.up && !t.pins.refclkOk &&
      t.churn.inbox.any (fun m => (m.kind, m.addr) = (0x52, 0x60C))) = true := by decide +kernel

theorem test_refclk_restored :
    after (exec .refclkRestored { powered with pins := { powered.pins with refclkHold := true, refclkOk := false } }) (fun t =>
      t.pins.refclkOk && !t.pins.refclkHold && t.pins.pllLocked && t.tank.coreRunning) = true := by decide +kernel

theorem test_rail_up : earlierUp 0x80 .vddc = false ∧
    after (exec (.railUp .vddc true) { serving with pins := { serving.pins with porN := false, started := 0x80, up := 0x80 } }) (fun t =>
      t.pins.up = 0x81 && t.tank.lockLatch = 7) = true := by decide +kernel

theorem test_pwr_ok_rise : after (exec .pwrOkRise serving) (fun t => t.pins.pwrOk) = true := by decide +kernel

theorem test_pwr_ok_fall : after (exec (.pwrOkFall 0xFF true) (setChan 63 { Chan.zero with initialised := true } powered)) (fun t =>
    !t.pins.pwrOk && t.pins.powerFail && (getChan t 63).selfRefresh) = true := by decide +kernel

theorem test_pwr_ok_journal : skipRetired powered.retired 64 powered.journal.nextSeq = 0 ∧ (getChan powered 0).selfRefresh = false ∧ markedRow powered (journalLine 0) = false ∧
    after (exec (.pwrOkFall 0xFF true) powered) (fun t => t.journal.queue = [] && t.journal.written = 1 &&
      t.churn.inbox.map (fun m => (m.kind, m.addr)) = [(0x50, 0x40F)] && (lineBytes t (journalLine 0) 0 8) = beBytes 8 0) = true := by decide +kernel

/-! ### The data ports -/

/-- Port 3 of the plan runs, priority 3 lossless. -/
def ported3 : State := setPort 3 { Port.zero with present := true, up := true, trained := true, lossless := 8, mode := 1 } planned

/-- Port 3 trains. -/
def training : State := setPort 3 { Port.zero with present := true, training := true, mode := 1 } (inPhase 7 planned)

theorem test_training : after (exec (.linkTrainingComplete 3 true [[1, 2]]) training) (fun t =>
      (getPort t 3).up && (getPort t 3).heldOut && (getLane t 3).coeffs = [1, 2] && (getLane t 3).locked) = true ∧
    after (exec (.linkTrainingComplete 3 false []) training) (fun t => !(getPort t 3).up && (getPort t 3).trained) = true := by decide +kernel

theorem test_join_set : after (exec (.portJoinSet 3) (setPort 3 { getPort ported3 3 with heldOut := true } ported3)) (fun t =>
    !(getPort t 3).heldOut && members t 0 = [3]) = true := by decide +kernel

theorem test_retrain : after (exec (.portRetrain 3) (setPort 3 { Port.zero with present := true } planned)) (fun t => (getPort t 3).training) = true := by
  decide +kernel

theorem test_port_down : after (exec (.portDown 3) ported3) (fun t =>
    !(getPort t 3).up && (getPort t 3).training && Map.get 0 (3 * 32 + 22) t.ctr.port = 1) = true := by decide +kernel

theorem test_fec_threshold : after (exec (.fecThreshold 3) ported3) (fun t => (getPort t 3).up && (getPort t 3).heldOut) = true := by decide +kernel

/-- A RoCEv2 frame for the interface, of the lossless priority, with a length. -/
def dataFrame (n : Nat) : DataFrame :=
  { fcsOk := true, length := n, dmac := 2, tags := [], ethertype := 0x0800, macOpcode := 0, ipHeaderOk := true, ipNext := 17,
    srcIp := .v4 0x0A000002, dstIp := .v4 0x0A000001, dscp := 5, udpPort := 4791, destQp := 0x100, tver := 0, pkey := 0xFFFF, slowKind := .other, codewords := 1,
    corrected := 0, uncorrectable := 0, symbols := 0 }

theorem test_frame_fails : acceptance iface (dataFrame 63) = some 8 ∧ acceptance iface { dataFrame 64 with fcsOk := false } = some 5 ∧
    after (exec (.dataFrameReceive 3 (dataFrame 63)) ported3) (fun t => Map.get 0 (3 * 32 + 8) t.ctr.port = 1 && Map.get 0 (3 * 32 + 4) t.ctr.port = 0) = true := by
  decide +kernel

theorem test_frame_buffer : acceptance iface (dataFrame 4352) = none ∧ framePriority iface (dataFrame 4352) = 3 ∧
    after (exec (.dataFrameReceive 3 (dataFrame 4352)) ported3) (fun t => Map.get 0 3 (getPort t 3).use = 4352 && Map.get 0 (3 * 32 + 4) t.ctr.port = 1) = true := by
  decide +kernel

/-- Priority 3 of port 3 uses its share and all of its headroom but one byte. -/
def nearlyFull : State :=
  setPort 3 { getPort ported3 3 with use := [(3, xoffShare ported3 0 + headroom 1 - 64)] } ported3

theorem test_frame_limit : after (exec (.dataFrameReceive 3 (dataFrame 64)) nearlyFull) (fun t =>
      Map.get 0 (3 * 32 + 9) t.ctr.port = 0 && Map.get 0 3 (getPort t 3).use = xoffShare ported3 0 + headroom 1) = true ∧
    after (exec (.dataFrameReceive 3 (dataFrame 65)) nearlyFull) (fun t => Map.get 0 (3 * 32 + 9) t.ctr.port = 1) = true := by decide +kernel

theorem test_frame_pause : acceptance iface { dataFrame 64 with ethertype := 0x8808, macOpcode := 0x0101 } = none ∧
    after (exec (.dataFrameReceive 3 { dataFrame 64 with ethertype := 0x8808, macOpcode := 0x0101 }) ported3) (fun t =>
      (getPort t 3).use = []) = true := by decide +kernel

theorem test_frame_slow : after (exec (.dataFrameReceive 3 { dataFrame 64 with udpPort := 1, slowKind := .echo }) ported3) (fun t =>
      t.slow.tokens = 63 && t.slow.reserve = [(0, 64)]) = true ∧
    after (exec (.dataFrameReceive 3 { dataFrame 64 with udpPort := 1 }) ported3) (fun t =>
      t.slow.tokens = 63 && t.slow.reserve = [] && Map.get 0 (3 * 32 + 12) t.ctr.port = 1) = true := by decide +kernel

theorem test_frame_qp1 : after (exec (.dataFrameReceive 3 { dataFrame 64 with destQp := 1, tver := 1 }) ported3) (fun t =>
      Map.get 0 (3 * 32 + 25) t.ctr.port = 1 && Map.get 0 (3 * 32 + 12) t.ctr.port = 0) = true ∧
    after (exec (.dataFrameReceive 3 { dataFrame 64 with destQp := 1, slowKind := .mra }) ported3) (fun t =>
      t.slow.tokens = 63 && Map.get 0 (3 * 32 + 12) t.ctr.port = 0) = true := by decide +kernel

theorem test_frame_policed : after (exec (.dataFrameReceive 3 { dataFrame 64 with udpPort := 1, slowKind := .echo })
      { ported3 with slow := { ported3.slow with reserve := [(0, 65473)] } }) (fun t =>
      t.slow.tokens = 64 && Map.get 0 (3 * 32 + 11) t.ctr.port = 1) = true := by decide +kernel

/-- Eight quanta, all the same. -/
def quanta (n : W16) : List W16 := List.replicate 8 n

/-- The frames that have left the data ports. -/
def left (t : State) : List (Nat × TxFrame) := t.dataSent.map (fun e => (e.1, e.2.frame))

/-- Priority 7 of port 3 is paused, with an ARP reply waiting. -/
def paused : State := setPort 3 { getPort ported3 3 with paused := 0x80, queue := [(7, .gratuitousArp 1)] } ported3

theorem test_pfc : after (exec (.pfcReceive 3 0x81 (quanta 9)) ported3) (fun t => (getPort t 3).paused = 0x81) = true ∧
    after (exec (.pfcReceive 3 0x80 (quanta 0)) paused) (fun t => (getPort t 3).paused = 0 && left t = [(3, .gratuitousArp 1)]) = true := by
  decide +kernel

theorem test_pfc_expiry : after (exec (.pfcPauseExpiry 3 7) paused) (fun t => (getPort t 3).queue = [] && left t = [(3, .gratuitousArp 1)]) = true := by
  decide +kernel

theorem test_pfc_watchdog : after (exec (.pfcWatchdog 3 7) paused) (fun t =>
    (getPort t 3).queue = [] && t.dataSent = [] && Map.get 0 (3 * 32 + 21) t.ctr.port = 1) = true := by decide +kernel

/-- Priority 3 of port 3 has sent XOFF and uses n bytes. -/
def pausing (n : Nat) : State := setPort 3 { getPort ported3 3 with pausing := 8, use := [(3, n)] } ported3

theorem test_xoff : after (exec (.pfcXoffRepeat 3 3) (pausing (xoffShare ported3 0 - 8704))) (fun t =>
    left t = [(3, .pfc 3 0xFFFF)] && Map.get 0 (3 * 32 + 19) t.ctr.port = 1) = true := by decide +kernel

theorem test_xon : after (exec (.pfcXon 3 3 1) (pausing (xoffShare ported3 0 - 8704))) (fun t =>
      left t = [(3, .pfc 3 0)] && (getPort t 3).pausing = 0) = true ∧
    after (exec (.pfcXon 3 3 0) (pausing (xoffShare ported3 0 - 8704))) (fun t => t.dataSent = [] && (getPort t 3).pausing = 8) = true := by
  decide +kernel

theorem test_arp : slowOpen ported3 3 = true ∧
    after (exec (.arpRequest 3 { srcMac := 5, srcIp := .v4 6, target := .v4 0x0A000001 }) ported3) (fun t => left t = [(3, .arpReply 5 (.v4 6))]) = true := by
  decide +kernel

theorem test_solicitation : after (exec (.neighbourSolicitation 3 { srcMac := 5, srcIp := .v6 6, target := .v6 9 }) ported3) (fun t =>
    left t = [(3, .advertisement 5 (.v6 6) (.v6 9))]) = true := by decide +kernel

/-- An echo request with a packet length. -/
def echo (n : Nat) : Echo := { srcMac := 5, srcIp := .v4 6, dstIp := .v4 0x0A000001, ipBytes := n, body := [1] }

/-- 999 echo replies have left in this second. -/
def echoed (n : Nat) : State := { ported3 with slow := { ported3.slow with reserve := [(0, 64)], echoCount := [(0, n)] } }

theorem test_echo : after (exec (.echoRequest 3 (echo 1500)) (echoed 999)) (fun t => t.dataSent.length = 1 && Map.get 0 0 t.slow.echoCount = 1000) = true ∧
    after (exec (.echoRequest 3 (echo 1501)) (echoed 999)) (fun t => t.dataSent = [] && t.slow.reserve = []) = true ∧
    after (exec (.echoRequest 3 (echo 1500)) (echoed 1000)) (fun t => t.dataSent = [] && t.slow.reserve = []) = true := by decide +kernel

theorem test_token : after (exec .slowPathToken { serving with slow := { serving.slow with tokens := 64 } }) (fun t => t.slow.tokens = 64) = true ∧
    after (exec .slowPathToken { serving with slow := { serving.slow with tokens := 63 } }) (fun t => t.slow.tokens = 64) = true := by decide +kernel

/-! ### Lanes -/

/-- A sample whose middle eye is 1 of a span of 6, and whose SNR is 20.0 dB. -/
def sample : LaneSample :=
  { mean0 := -3, mean1 := -1, mean2 := 1, mean3 := 3, varSum := 0, eye0 := 2, eye1 := 1, eye2 := 2, signal := true, locked := true }

theorem test_lane_sample : after (exec (.laneQualitySample 15 { sample with varSum := 2 }) ported3) (fun t =>
      (getLane t 15).margin = 128 && (getLane t 15).snr = 100) = true ∧
    after (exec (.laneQualitySample 15 { sample with eye1 := 0 }) ported3) (fun t => (getLane t 15).margin = 0) = true := by decide +kernel

theorem test_lane_rearmed : (calibration serving).2 = 180 ∧ (calibration serving).2 + 5 ≤ snrOf sample ∧
    after (exec (.laneQualitySample 0 sample) (setLane 0 { Lane.zero with okSince := some 999, lowRaised := true } serving)) (fun t =>
      !(getLane t 0).lowRaised) = true := by decide +kernel

theorem test_snr_low : mayQueue (setLane 3 { Lane.zero with snr := 179 } ported3) 3 = true ∧
    after (exec (.laneSnrLow 3) (setLane 3 { Lane.zero with snr := 179 } ported3)) (fun t => t.recal.urgent = [3] && (getLane t 3).lowRaised) = true ∧
    after (exec (.laneSnrLow 3) (setLane 3 { Lane.zero with snr := 180 } ported3)) (fun t => t.recal.urgent = []) = true := by decide +kernel

/-- Lane 3 is being recalibrated. -/
def calibrating : State := setLane 3 { Lane.zero with calibrating := true, coeffs := [1] } { ported3 with recal := { urgent := [], queue := [], active := some 3 } }

theorem test_recal_start : nextLane { ported3 with recal := { urgent := [3], queue := [2], active := none } } = some 3 ∧
    after (exec .recalStart { ported3 with recal := { urgent := [3], queue := [2], active := none } }) (fun t =>
      t.recal.active = some 3 && t.recal.urgent = [] && t.recal.queue = [2] && (getLane t 3).calibrating) = true := by decide +kernel

theorem test_recal_decision :
    after (exec (.recalDecision 180 190 [2]) calibrating) (fun t => (getLane t 3).coeffs = [2] && (getLane t 3).rollback = [1]) = true ∧
    after (exec (.recalDecision 180 191 [2]) calibrating) (fun t => (getLane t 3).coeffs = [1] && Map.get 0 (3 * 32 + 23) t.ctr.port = 1) = true ∧
    after (exec (.recalDecision 179 0 [2]) calibrating) (fun t => (getLane t 3).coeffs = [1] && (getLane t 3).marginal) = true := by decide +kernel

theorem test_recal_retry : mayQueue (setLane 3 { Lane.zero with marginal := true, retryDue := some 1 } ported3) 3 = true ∧
    after (exec (.recalRetry 3) (setLane 3 { Lane.zero with marginal := true, retryDue := some 1 } ported3)) (fun t =>
      t.recal.queue = [3] && (getLane t 3).retryDue = some 1) = true := by decide +kernel

/-! ### The remote memory service -/

/-- An established QP of tenant 3 on quadrant 0, of path MTU 1,024. -/
def qp : Qp := { Qp.zero with state := .established, tenant := 3, iface := 0, mtu := 3, remote := .v4 0x0A000002, epsn := 0xFFFFFF, rate := 2000, target := 2000, alpha := 1023 }

/-- Region 131071 as the plan has it, with all rights. -/
def granted : Region := { leased with gen := 7, vbase := 0x10000, slab := 900 }

/-- QP 0x400FF stands, and its region is active. -/
def connected (q : Qp) : State := setQp 0x400FF q (setRegion 131071 granted ported3)

/-- A packet on port 3 for the last QPN, with the expected PSN. -/
def packet (op : Byte) (va n : Nat) (payload : List Byte) : Pkt :=
  { port := 3, prio := 3, dqp := 0x400FF, srcIp := .v4 0x0A000002, icrcOk := true, tver := 0, pkey := 0xFFFF, padOk := true, ecn := 0, opcode := op,
    psn := 0xFFFFFF, va := BitVec.ofNat 64 va, rkey := BitVec.ofNat 32 (131071 * 32768 + 7), dmaLen := BitVec.ofNat 32 n, compare := 1, swapAdd := 2,
    payload := payload, sramBad := false }

/-- The QP has an open WRITE message of 4 bytes left. -/
def openWrite (n : Nat) : Qp := { qp with writeOpen := true, writeRemaining := n, writeRkey := BitVec.ofNat 32 (131071 * 32768 + 7), writeDma := 900 * 65536 }

/-- A packet passes every check of its operation, on a state that its admission leaves. -/
def accepted (k : Pkt) (o : ReqOp) (s : State) : Bool :=
  let a := admitPacket k s
  packetsRun s k.port.val && a.1 && (getQp a.2 k.dqp).epsn = k.psn && (checkRequest a.2 (getQp a.2 k.dqp) o k false false).isNone &&
    trackerFree a.2 (getQp a.2 k.dqp)

theorem test_read_request : accepted (packet 0x0C (0x1FFFF - 1024) 1025 []) .read (connected qp) = true ∧
    after (exec (.rdmaReadRequest (packet 0x0C (0x1FFFF - 1024) 1025 [])) (connected qp)) (fun t =>
      (getQp t 0x400FF).epsn = 1 && (getQp t 0x400FF).outstanding = 1) = true := by decide +kernel

theorem test_read_past_end : checkRequest (connected qp) qp .read (packet 0x0C 0x1FFFF 2 []) false false = some 0x62 ∧
    after (exec (.rdmaReadRequest (packet 0x0C 0x1FFFF 2 [])) (connected qp)) (fun t => (getQp t 0x400FF).state = .error) = true := by
  decide +kernel

theorem test_write_first : accepted (packet 0x06 0x10000 1025 (List.replicate 1024 5)) .writeFirst (connected qp) = true ∧
    after (exec (.rdmaWriteFirst (packet 0x06 0x10000 1025 (List.replicate 1024 5))) (connected qp)) (fun t =>
      (getQp t 0x400FF).writeOpen && (getQp t 0x400FF).writeRemaining = 1 && (getQp t 0x400FF).epsn = 0) = true := by decide +kernel

theorem test_write_middle : accepted (packet 0x07 0 0 (List.replicate 1024 5)) .writeMiddle (connected (openWrite 2048)) = true ∧
    after (exec (.rdmaWriteMiddle (packet 0x07 0 0 (List.replicate 1024 5))) (connected (openWrite 2048))) (fun t =>
      (getQp t 0x400FF).writeOpen && (getQp t 0x400FF).writeRemaining = 1024) = true := by decide +kernel

theorem test_write_last : accepted (packet 0x08 0 0 [1, 2, 3, 4]) .writeLast (connected (openWrite 4)) = true ∧
    after (exec (.rdmaWriteLast (packet 0x08 0 0 [1, 2, 3, 4])) (connected (openWrite 4))) (fun t => !(getQp t 0x400FF).writeOpen) = true := by
  decide +kernel

theorem test_write_only : accepted (packet 0x0A 0x1FFFC 4 [1, 2, 3, 4]) .writeOnly (connected qp) = true ∧
    after (exec (.rdmaWriteOnly (packet 0x0A 0x1FFFC 4 [1, 2, 3, 4])) (connected qp)) (fun t =>
      (getQp t 0x400FF).ops.map (fun o => (o.kind, o.psn, o.linesLeft)) = [(.write, 0xFFFFFF, 1)]) = true := by decide +kernel

theorem test_atomics : accepted (packet 0x13 0x1FFF8 0 []) .cmpSwap (connected qp) = true ∧ accepted (packet 0x14 0x10000 0 []) .fetchAdd (connected qp) = true ∧
    after (exec (.cmpSwap (packet 0x13 0x1FFF8 0 [])) (connected qp)) (fun t => (getQp t 0x400FF).outstanding = 1 && (getQp t 0x400FF).epsn = 0) = true ∧
    after (exec (.fetchAdd (packet 0x14 0x10000 0 [])) (connected qp)) (fun t => (getQp t 0x400FF).ops.map (fun o => o.kind) = [.atomic]) = true := by
  decide +kernel

/-- Counter n of port 3 counts the packet, and nothing else happens. -/
def dropped (n : Nat) (k : Pkt) (s : State) : Bool := after (exec (.rdmaReadRequest k) s) (fun t => Map.get 0 (3 * 32 + n) t.ctr.port = 1 && decide (t.qps = s.qps))

theorem test_first_checks : dropped 29 { packet 0x0C 0 0 [] with sramBad := true } (connected qp) = true ∧
    dropped 24 { packet 0x0C 0 0 [] with icrcOk := false } (connected qp) = true ∧
    dropped 25 { packet 0x0C 0 0 [] with tver := 1 } (connected qp) = true ∧ dropped 26 { packet 0x0C 0 0 [] with dqp := 0x40100 } (connected qp) = true ∧
    dropped 27 (packet 0x0C 0 0 []) (connected { qp with remote := .v4 1 }) = true ∧ dropped 7 (packet 0x0C 0 0 []) (connected { qp with iface := 1 }) = true := by
  decide +kernel

theorem test_error_silent : after (exec (.rdmaReadRequest (packet 0x0C 0x10000 1 [])) (connected { qp with state := .error })) (fun t =>
    decide (t = connected { qp with state := .error })) = true := by decide +kernel

theorem test_ahead : psnClass 0x7FFFFE 0xFFFFFF = .ahead ∧ psnClass 0x7FFFFF 0xFFFFFF = .duplicate ∧
    after (exec (.rdmaReadRequest { packet 0x0C 0x10000 1 [] with psn := 0x7FFFFE }) (connected qp)) (fun t =>
      (getQp t 0x400FF).seqNak && (getQp t 0x400FF).epsn = 0xFFFFFF) = true ∧
    after (exec (.rdmaReadRequest { packet 0x0C 0x10000 1 [] with psn := 0x7FFFFE }) (connected { qp with seqNak := true })) (fun t =>
      t.dataSent = []) = true := by decide +kernel

theorem test_unsupported : supportedOpcode 0x1F = false ∧ (0x1F : Byte).toNat < 0x20 ∧
    after (exec (.unsupportedOpcode (packet 0x1F 0 0 [])) (connected qp)) (fun t => (getQp t 0x400FF).state = .error) = true := by decide +kernel

/-- The QP's expected PSN is 6, so that a packet of PSN 5 is a duplicate; its replay ring holds an atomic of PSN 5. -/
def later : Qp := { qp with epsn := 6, ring := [{ psn := 5, fetchAdd := true, orig := 8 }] }

/-- A packet of PSN 5. -/
def again (op : Byte) (va n : Nat) (payload : List Byte) : Pkt := { packet op va n payload with psn := 5 }

/-- The QP without a replay ring, with an operation of PSN 5 at work. -/
def atWork (k : OpKind) : Qp := { later with ring := [], ops := [{ QpOp.zero with kind := k, psn := 5, npkts := 1, lastOfMsg := true }], outstanding := 1 }

/-- The packet is admitted as a duplicate, and no check answers it. -/
def duplicate (k : Pkt) (o : ReqOp) (reused : Bool) (q : Qp) : Bool :=
  let a := admitPacket k (connected q)
  packetsRun (connected q) 3 && a.1 && decide (psnClass k.psn (getQp a.2 k.dqp).epsn = .duplicate) && (checkRequest a.2 (getQp a.2 k.dqp) o k true reused).isNone

theorem test_duplicate_atomic : duplicate (again 0x14 0x10000 0 []) .fetchAdd false later = true ∧ duplicate (again 0x14 0x10000 0 []) .fetchAdd true (atWork .atomic) = true ∧
    after (exec (.fetchAdd (again 0x14 0x10000 0 [])) (connected later)) (fun t => (getQp t 0x400FF).epsn = 6 &&
      (getQp t 0x400FF).ops.map (fun o => (o.kind, o.result, o.dup)) = [(.atomic, some 8, true)]) = true ∧
    after (exec (.fetchAdd (again 0x14 0x10000 0 [])) (connected { later with ring := [] })) (fun t => (getQp t 0x400FF).state = .error) = true ∧
    after (exec (.fetchAdd (again 0x14 0x10000 0 [])) (connected (atWork .atomic))) (fun t => decide (getQp t 0x400FF = atWork .atomic)) = true := by decide +kernel

theorem test_duplicate_write : duplicate (again 0x0A 0x10000 1 [9]) .writeOnly false later = true ∧
    after (exec (.rdmaWriteOnly (again 0x0A 0x10000 1 [9])) (connected later)) (fun t => (getQp t 0x400FF).epsn = 6 && (getQp t 0x400FF).ops = [] && t.path.classQ = []) = true := by
  decide +kernel

theorem test_duplicate_read : duplicate (again 0x0C 0x10000 1 []) .read false later = true ∧ duplicate (again 0x0C 0x10000 1 []) .read true (atWork .read) = true ∧
    (originalRead later 5).isNone = true ∧ (originalRead (atWork .read) 5).isSome = true ∧
    after (exec (.rdmaReadRequest (again 0x0C 0x10000 1 [])) (connected later)) (fun t => (getQp t 0x400FF).outstanding = 1 &&
      (getQp t 0x400FF).ops.map (fun o => (o.kind, o.dup, o.lastOfMsg)) = [(.read, true, false)]) = true ∧
    after (exec (.rdmaReadRequest (again 0x0C 0x10000 1 [])) (connected (atWork .read))) (fun t => (getQp t 0x400FF).outstanding = 1 &&
      (getQp t 0x400FF).ops.map (fun o => (o.kind, o.dup, o.lastOfMsg)) = [(.read, true, true)]) = true := by decide +kernel

theorem test_no_tracker : trackerFree { connected qp with trackers := [(0, 16384)] } qp = false ∧
    after (exec (.rdmaReadRequest (packet 0x0C 0x10000 1 [])) { connected qp with trackers := [(0, 16384)] }) (fun t =>
      Map.get 0 (3 * 32 + 28) t.ctr.port = 1 && decide (getQp t 0x400FF = qp)) = true ∧
    after (exec (.rdmaReadRequest (again 0x0C 0x10000 1 [])) { connected later with trackers := [(0, 16384)] }) (fun t =>
      Map.get 0 (3 * 32 + 28) t.ctr.port = 1 && decide (getQp t 0x400FF = later)) = true := by decide +kernel

theorem test_write_nothing : accepted (packet 0x0A 0x10000 0 []) .writeOnly (connected qp) = true ∧
    after (exec (.rdmaWriteOnly (packet 0x0A 0x10000 0 [])) (connected qp)) (fun t =>
      (getQp t 0x400FF).ops = [] && (getQp t 0x400FF).donePsn = 0xFFFFFF && (getQp t 0x400FF).msn = 1) = true := by decide +kernel

theorem test_cnp : qp.cnpActedAt = none ∧
    after (exec (.cnpReceive (packet 0x81 0 0 [])) (connected qp)) (fun t =>
      (getQp t 0x400FF).target = 2000 && (getQp t 0x400FF).rate = 1000 && (getQp t 0x400FF).alpha = 1023) = true := by
  decide +kernel

theorem test_alpha : after (exec (.rpAlphaDecay 0x400FF) (connected qp)) (fun t => (getQp t 0x400FF).alpha = 767) = true := by decide +kernel

theorem test_increase : after (exec (.rpIncrease 0x400FF) (connected { qp with rate := 1000, target := 1500, stage := 4 })) (fun t =>
      (getQp t 0x400FF).rate = 1250 && (getQp t 0x400FF).target = 1500 && (getQp t 0x400FF).stage = 5) = true ∧
    after (exec (.rpIncrease 0x400FF) (connected { qp with rate := 1000, target := 1500, stage := 5 })) (fun t =>
      (getQp t 0x400FF).rate = 1300 && (getQp t 0x400FF).target = 1600) = true := by decide +kernel

/-- A READ of 1,025 bytes of which `sent` packets have left, every line of it staged. -/
def reading (sent : Nat) : QpOp :=
  { QpOp.zero with kind := .read, psn := 5, npkts := 2, sent := sent, dma := 0, len := 1025,
                   staged := (List.range 17).map (fun i => { dma := 64 * i, data := List.replicate 64 1, tag := .pass, cls := 0, slot := 4 }) }

/-- A QP whose order begins with a request. -/
def ordered (o : QpOp) : State := connected { qp with ops := [o], outstanding := 1 }

theorem test_response : egress (ordered (reading 0)) 0 0x400FF = some 3 ∧ (ifaceOf (ordered (reading 0)) 0).isSome = true ∧ silent (ordered (reading 0)) 3 = false ∧ (packetLines qp (reading 0)).isSome = true ∧ (packetLines qp (reading 1)).isSome = true ∧
    after (exec (.responseSend 0x400FF) (ordered (reading 0))) (fun t => (getQp t 0x400FF).ackPsn = 5 && (getQp t 0x400FF).outstanding = 1 && t.dataSent.length = 1) = true ∧
    after (exec (.responseSend 0x400FF) (ordered (reading 1))) (fun t => (getQp t 0x400FF).ops = [] && (getQp t 0x400FF).outstanding = 0) = true := by
  decide +kernel

theorem test_response_bad : after (exec (.responseSend 0x400FF) (ordered { reading 1 with badPkt := some 1 })) (fun t =>
    (getQp t 0x400FF).outstanding = 0 && t.dataSent.length = 1) = true := by decide +kernel

theorem test_response_atomic : after (exec (.responseSend 0x400FF)
    (ordered { QpOp.zero with kind := .atomic, result := some 8 })) (fun t => (getQp t 0x400FF).outstanding = 0 && t.dataSent.length = 1) = true := by
  decide +kernel

theorem test_ack_deadline : after (exec (.ackDeadline 0x400FF) (connected { qp with unacked := 1, donePsn := 4, ackNew := true, ackDeadline := 9 })) (fun t =>
    (getQp t 0x400FF).ackPsn = 4 && (getQp t 0x400FF).unacked = 0 && t.dataSent.length = 1) = true := by decide +kernel

/-- A connection-management message from 10.0.0.2. -/
def mad : Mad :=
  { port := 3, srcIp := .v4 0x0A000002, srcMac := 5, srcUdp := 6, srcQp := 1, tver := 0, pkey := 0xFFFF, qkey := 0x80010000, mgmtClass := 7, baseVersion := 1, classVersion := 2,
    localComm := 21, remoteComm := 22, serviceId := 77, transport := 0, mtu := 5, startPsn := 33, reqQpn := 44,
    gid := BitVec.ofNat 128 (0xFFFF * 2 ^ 32 + 0x0A000002), flow := 0, priv := [] }

theorem test_req : (staleContext ported3 mad).isNone = true ∧ matchReq ported3 mad = none ∧ (tenantOf ported3 mad).isSome = true ∧
    findQpn { ported3 with qpnPtr := 0x400FF } 262144 0x400FF = some 0x400FF ∧
    after (exec (.cmReq mad) { ported3 with qpnPtr := 0x400FF }) (fun t =>
      (getQp t 0x400FF).state = .connecting && (getQp t 0x400FF).mtu = 5 && (getQp t 0x400FF).epsn = 33 && t.qpnPtr = 0x100 && t.dataSent.length = 1) = true := by decide +kernel

/-- A context that the message names. -/
def cmContext (st : QpState) : State := connected { qp with state := st, localComm := 22, remoteComm := 21, repSends := 2, reqPort := 3 }

theorem test_cm : (matchingContext (cmContext .connecting) mad).isSome = true ∧
    after (exec (.cmRtu mad) (cmContext .connecting)) (fun t => (getQp t 0x400FF).state = .established) = true ∧
    after (exec (.cmRejReceive mad) (cmContext .connecting)) (fun t => (getQp t 0x400FF).state = .free) = true ∧
    after (exec (.cmDreq mad) (cmContext .established)) (fun t => (getQp t 0x400FF).state = .disconnecting && t.dataSent.length = 1) = true ∧
    after (exec (.cmDreq mad) (cmContext .error)) (fun t => (getQp t 0x400FF).state = .free) = true := by decide +kernel

theorem test_cm_timers : after (exec (.disconnectComplete 0x400FF) (cmContext .disconnecting)) (fun t => (getQp t 0x400FF).state = .free) = true ∧
    after (exec (.repTimeout 0x400FF) (cmContext .connecting)) (fun t => (getQp t 0x400FF).repSends = 3 && t.dataSent.length = 1) = true ∧
    after (exec (.repTimeout 0x400FF) (connected { qp with state := .connecting, repSends := 3 })) (fun t => (getQp t 0x400FF).state = .free) = true ∧
    after (exec (.qpErrorTimeout 0x400FF) (cmContext .error)) (fun t => (getQp t 0x400FF).state = .free) = true := by decide +kernel

/-! ### The memory path -/

/-- A line request of the last QPN for the first line of region 131071's slab. -/
def request (k : ReqKind) : LineReq :=
  { kind := k, qpn := 0x400FF, psn := 5, serial := 0, port := 3, prio := 3, dma := 900 * 65536, off := 60, len := 4, data := [1, 2, 3, 4], compare := 1, swapAdd := 2, cls := 0,
    slot := 4, region := 131071, spec := false, enq := 0, target := none }

/-- The request waits in its class queue, and its page word is held. -/
def queued (k : ReqKind) : State :=
  setClassQ 0 0 [request k]
    { ordered { QpOp.zero with kind := .read, psn := 5, len := 4, dma := 900 * 65536 + 60 } with pageCache := [systemLine 0 14] }

/-- Page 14400 is prepared. -/
def prepared (s : State) : State := writePageWord 14400 (mkPageWord false false 3) s

theorem test_point_fresh_read : pageHit (queued .read) 14400 = true ∧ pwFresh (pageWord (queued .read) 14400) = true ∧
    pointWaits (queued .read) 0 0 (request .read) = false ∧ opIndex (getQp (queued .read) 0x400FF) (request .read) = some 0 ∧
    after (exec (.orderingPointPass 0 [] []) (queued .read)) (fun t =>
      (getQp t 0x400FF).ops.map (fun o => o.staged) = [[{ dma := 900 * 65536, data := [0, 0, 0, 0], tag := .pass, cls := 0, slot := 4 }]]) = true := by decide +kernel

theorem test_point_init : sepRoom (queued .partWrite) = true ∧ pointWaits (queued .partWrite) 0 0 (request .partWrite) = false ∧
    after (exec (.orderingPointPass 0 [] []) (queued .partWrite)) (fun t =>
      t.sep.inits.map (fun x => (x.page, x.heldReqs)) = [(14400, [request .partWrite])] && isLocked t (900 * 65536)) = true := by decide +kernel

theorem test_point_pass : pageHit (prepared (queued .fetchAdd)) 14400 = true ∧ pwFresh (pageWord (prepared (queued .fetchAdd)) 14400) = false ∧
    pointWaits (prepared (queued .fetchAdd)) 0 0 (request .fetchAdd) = false ∧ rewriteOf (prepared (queued .fetchAdd)) 14400 = none ∧
    pageLost (prepared (queued .fetchAdd)) 14400 = false ∧ (metaEntry (prepared (queued .fetchAdd)) 0 14400).1 = 0 ∧
    bankRoom (prepared (queued .fetchAdd)) 0 4 0 = true ∧
    after (exec (.orderingPointPass 0 [] []) (prepared (queued .fetchAdd))) (fun t =>
      (bankQ t 0 4).map (fun e => e.req) = [request .fetchAdd] && isLocked t (900 * 65536) && (getCls t 0 0).outstanding = 1) = true := by decide +kernel

/-- Nothing else of the channel comes before it: no held write, no move's line, no visit; and no write of the page is under way. -/
theorem test_point_order : (∀ k ∈ [ReqKind.read, .partWrite], (noteWaiting 0 (queued k)).sep = (queued k).sep ∧ passHeld 0 (noteWaiting 0 (queued k)) = none ∧
      whenOpen (noteWaiting 0 (queued k)) 0 (nextMove 0 (noteWaiting 0 (queued k))) = none ∧ visitOlder (noteWaiting 0 (queued k)) 0 = false ∧
      classQ (noteWaiting 0 (queued k)) 0 0 = [request k]) ∧
    (∀ c < 16, c ≠ 0 → classQ (noteWaiting 0 (queued .read)) 0 c = []) ∧ passHeld 0 (noteWaiting 0 (prepared (queued .fetchAdd))) = none ∧
    isRetired (queued .read) 0 = false ∧ headBefore (request .read) { request .read with enq := 1 } = true ∧
    pageDue (prepared (queued .fetchAdd)) 14400 = false ∧ passedWrites (prepared (queued .fetchAdd)) 0 (900 * 65536) = 0 ∧
    pwMajor (pageWord (prepared (queued .fetchAdd)) 14400) ≠ exhaustedMajor := by decide +kernel

/-- A visit that came first passes first. -/
theorem test_visit_first : visitOlder (setChan 0 { getChan (queued .read) 0 with visits := [{ line := 0, dma := none, since := 0 }] }
    (setClassQ 0 0 [{ request .read with enq := 1 }] { queued .read with skim := { (queued .read).skim with running := true } })) 0 = true := by decide +kernel

/-- A burst of the line, as its column command found it. -/
def burst (k : ReqKind) : Burst :=
  { req := request k, withMeta := false, data := List.replicate 64 0, poisoned := false, errors := [], minor := 0, tag := 0, slot := 4, major := 3 }

/-- The burst has arrived. -/
def arrived (k : ReqKind) : State := setInFlight 0 [burst k] (queued k)

theorem test_line_decode : inFlight (arrived .fetchAdd) 0 = [burst .fetchAdd] ∧ (burst .fetchAdd).withMeta = false ∧
    after (exec (.lineDecode 0 [] [] []) (arrived .fetchAdd)) (fun t =>
      inFlight t 0 = [] && (inCrypto t 0).map (fun e => (e.req, e.ct)) = [(request .fetchAdd, List.replicate 64 0)]) = true := by decide +kernel

/-- A unit whose message waits for room in the Churn's buffer. -/
def stalledAt (src : BitVec 12) (s : State) : State := { s with churn := { s.churn with stalled := [{ message 0x63 1 0 with source := src }] } }

theorem test_stalled : stalls (stalledAt 0x03F serving) 63 = true ∧ stalls (stalledAt 0x04F serving) (0x040 + 63 / 4) = true ∧ stalls (arrived .fetchAdd) 0 = false ∧
    after (exec (.lineDecode 0 [] [] []) (stalledAt 0 (arrived .fetchAdd))) (fun t => inFlight t 0 = [burst .fetchAdd]) = true := by decide +kernel

/-- The line stands in the crypto lane with a tag. -/
def inLane (tag : BitVec 56) : CryptoEntry :=
  { req := request .fetchAdd, ct := List.replicate 64 0, minor := 0, major := 0, tag := tag, slot := 4, channel := 0, late := false }

/-- Every line in the crypto lane verifies under one tag, and fails under another. -/
theorem test_tag_check (s : State) (e : CryptoEntry) : (∃ tag, tagOk s { e with tag := tag } = true) ∧ (∃ tag, tagOk s { e with tag := tag } = false) := by
  refine ⟨⟨tagOf (getKey s e.slot) e.slot e.req.dma e.major e.minor e.ct, by simp [tagOk]⟩,
    ⟨tagOf (getKey s e.slot) e.slot e.req.dma e.major e.minor e.ct + 1, ?_⟩⟩
  simp only [tagOk, decide_eq_false_iff_not]
  generalize tagOf (getKey s e.slot) e.slot e.req.dma e.major e.minor e.ct = x
  bv_omega

/-- Whether the line still holds what the lane read. -/
theorem test_still_stored : (inLane 0).late = false ∧ isRetired (queued .fetchAdd) 0 = false ∧ homeOf (queued .fetchAdd) (900 * 65536) = (0, 14400) ∧
    stillStored (queued .fetchAdd) 0 14400 0 (metaEntry (queued .fetchAdd) 0 14400).2 = true ∧
    stillStored (queued .fetchAdd) 0 14400 1 (metaEntry (queued .fetchAdd) 0 14400).2 = false := by decide +kernel

theorem test_in_lane : ∀ tag, inCrypto (setInCrypto 0 [inLane tag] (queued .fetchAdd)) 0 = [inLane tag] := fun _ => rfl

/-- A verified read half of a CmpSwap whose Compare differs from the line, so that nothing is written; channel 0 stands at an open slot. -/
def halvedAt (c : Chan) : State :=
  lockLine (900 * 65536) (setHalves 0 [{ req := request .cmpSwap, plain := List.replicate 64 0 }]
    (setParlour 0 { Parlour.zero with cal := List.replicate 4096 0x10 } (setChan 0 { c with initialised := true, turned := true } (prepared (queued .cmpSwap)))))

/-- Its column commands can be issued. -/
def halved : State := halvedAt Chan.zero

theorem test_write_half : turnDue halved 0 = false ∧ halfLegal halved 0 (request .cmpSwap) = true ∧ homeOf halved (900 * 65536) = (0, 14400) ∧
    lineKey halved 131071 (900 * 65536) = (4, 3) ∧ rewriteOf halved 14400 = none ∧
    (metaEntry halved 0 14400).1 < 255 ∧ modified (request .cmpSwap) (List.replicate 64 0) = none ∧
    (modified (request .fetchAdd) (List.replicate 64 0)).isSome = true ∧
    after (exec (.writeHalf 0) halved) (fun t => halves t 0 = [] && isLocked t (900 * 65536) = false && decide (t.dram = halved.dram)) = true := by
  decide +kernel

theorem test_write_half_waits : turnDue (halvedAt { Chan.zero with second := some { bank := 4, entry := { req := request .read, since := 0, metaIssued := false }, left := 1 } }) 0 = false ∧
    halfLegal (halvedAt { Chan.zero with second := some { bank := 4, entry := { req := request .read, since := 0, metaIssued := false }, left := 1 } }) 0 (request .cmpSwap) = false := by
  decide +kernel

/-- A line of page 14400 that its rewrite carries, verified; the page's major counter is 3. -/
def carrying : State :=
  setHalves 0 [{ req := { request .cmpSwap with kind := .carry, off := 0, len := 64 }, plain := List.replicate 64 0 }]
    { halved with sep := { halved.sep with rewrites :=
      [{ page := 14400, region := 131071, major := 3, moved := 0, move := false, recover := false, heldReqs := [] }] } }

theorem test_carry : halfLegal carrying 0 { request .cmpSwap with kind := .carry, off := 0, len := 64 } = true ∧
    (rewriteOf carrying 14400).map (fun x => (lineMoved carrying x (900 * 65536), newKey carrying x)) = some (false, (4, 4)) := by decide +kernel

theorem test_store_line : copyHome halved 0 14400 = none ∧ dataHome halved 0 14400 ≠ (metaHome halved 0 14400).1 := by decide +kernel

/-- A second column command that is left. -/
def secondCol : SecondCol := { bank := 4, entry := { req := request .read, since := 0, metaIssued := false }, left := 1 }

/-- Channel 63 runs, with a second column command left and bank 31 in a state of its own. -/
def engine (b : DBank) : State := setBank 63 31 b (setChan 63 { Chan.zero with initialised := true, opp := 9000, second := some secondCol } planned)

theorem test_burst : engineRuns (engine DBank.zero) 63 = true ∧ after (exec (.burstOpportunity 63) (engine DBank.zero)) (fun t =>
    (getChan t 63).opp = 9001 && (getChan t 63).second = none) = true := by decide +kernel

/-- The channel's column command is a write half's, or the second of a read. -/
theorem test_burst_busy : after (exec (.burstOpportunity 63) (setChan 63 { getChan (engine DBank.zero) 63 with colBusy := 2 } (engine DBank.zero))) (fun t =>
    (getChan t 63).colBusy = 1) = true := by decide +kernel

/-- Channel 0 stands at a slot that class 0 owns, with a request of the class in the queue of bank 4, whose row is open if given. -/
def picking (k : ReqKind) (row : Option Nat) : State :=
  let s := setBankQ 0 4 [{ req := request k, since := 0, metaIssued := true }] (prepared (queued k))
  setBank 0 4 { DBank.zero with openRow := row } (setParlour 0 { Parlour.zero with cal := List.replicate 4096 0 }
    (setChan 0 { Chan.zero with initialised := true, turned := true, opp := 9000 } s))

theorem test_pick : (let s := picking .read (some (rowOf (prepared (queued .read)) 0 (request .read)))
      turnDue s 0 = false ∧ (getChan s 0).colBusy = 0 ∧ (getChan s 0).second = none ∧
        (choosePick s 0 (columnEligible s 0)).1.map (fun x => (x.1, x.2.1, x.2.2.req)) = some (4, 0, request .read)) ∧
    after (exec (.burstOpportunity 0) (picking .read (some (rowOf (prepared (queued .read)) 0 (request .read))))) (fun t =>
      (inFlight t 0).map (fun b => b.req) = [request .read] && bankQ t 0 4 = []) = true ∧
    after (exec (.burstOpportunity 0) (picking .fullWrite (some (rowOf (prepared (queued .read)) 0 (request .read))))) (fun t =>
      (getChan t 0).second.map (fun x => x.entry.req) = some (request .fullWrite) && bankQ t 0 4 = []) = true := by decide +kernel

theorem test_pick_none : (choosePick (picking .read none) 0 (columnEligible (picking .read none) 0)).1 = none ∧
    (∀ d < 32, (forcedCommand (columnCommand 0 (picking .read none)).2 0 d).isNone = true) ∧
    (choosePick (columnCommand 0 (picking .read none)).2 0 (rowEligible (columnCommand 0 (picking .read none)).2 0)).1.map (fun x => (x.1, x.2.1)) = some (4, 0) ∧
    (getBank (picking .read none) 0 4).openRow = none := by decide +kernel

theorem test_refresh_interval : after (exec (.refreshInterval 63 31) (engine { DBank.zero with owed := 6 })) (fun t =>
      (getBank t 63 31).owed = 7 && (getBank t 63 31).forcedRefresh = 0) = true ∧
    after (exec (.refreshInterval 63 31) (engine { DBank.zero with owed := 7 })) (fun t =>
      (getBank t 63 31).owed = 8 && (getBank t 63 31).forcedRefresh = 1) = true := by decide +kernel

theorem test_neighbour : after (exec (.neighbourRefreshDeadline 63 31)
      (engine { DBank.zero with neighbours := [{ row := 1, forced := true }, { row := 2, forced := false }] })) (fun t =>
    (getBank t 63 31).neighbours.all (fun n => n.forced) && (getBank t 63 31).forcedNeighbour = 1) = true := by decide +kernel

/-- A row of bank 31 has been open since cycle 0. -/
def staleEngine (ch : Nat) : State :=
  setBank ch 31 { DBank.zero with openRow := some 7 } (setChan ch { Chan.zero with initialised := true, opp := 9000 }
    { planned with plans := { planned.plans with plan := some { plan with k := 64 } } })

theorem test_express : staleRow (staleEngine 63) 63 31 = true ∧ after (exec (.expressRowTimeout 63 31) (staleEngine 63)) (fun t =>
    (getBank t 63 31).openRow = none) = true := by decide +kernel

theorem test_reseed_sampler : after (exec (.rowDisturbReseed 0) (setChan 0 { Chan.zero with sampleDraws := 3 } serving)) (fun t =>
    t.drbg.requests = 1) = true := by decide +kernel

theorem test_no_page : exec (.pageInitComplete 0xDC8000) serving = .fault .noSuchObject ∧ pageCount ≤ 0xDC8000 ∧ ¬ pageCount ≤ 0xDC7FFF := ⟨rfl, by decide, by decide⟩

/-- Page 14400 is initialised for a write that waits, with some of its lines written. -/
def initing (done : BitVec 64) : State :=
  { planned with sep := { planned.sep with inits := [{ page := 14400, done := done, heldReqs := [request .partWrite, request .fullWrite] }] } }

theorem test_page_init : (initing 0).sep.inits.find? (fun y => y.page = 14400) =
      some { page := 14400, done := 0, heldReqs := [request .partWrite, request .fullWrite] } ∧
    pageOpen (initing 0) 14400 = true ∧
    initReady (initing (BitVec.allOnes 64)) { page := 14400, done := BitVec.allOnes 64, heldReqs := [request .partWrite, request .fullWrite] } (fun _ => false) = true ∧
    initReady (initing 0) { page := 14400, done := 0, heldReqs := [request .partWrite, request .fullWrite] } (fun _ => false) = false ∧
    after (exec (.pageInitComplete 14400) (initing (BitVec.allOnes 64))) (fun t =>
      t.sep.inits = [] && t.sep.waiting = [request .fullWrite] && !pwFresh (pageWord t 14400)) = true := by decide +kernel

/-- Page 14400 is rewritten, or moved, from a major counter, with every line moved. -/
def rewriting (m : Nat) (mv : Bool) : State :=
  { planned with regions := [(131071, granted)], sep := { planned.sep with rewrites :=
    [{ page := 14400, region := 131071, major := m, moved := 0xFFFFFFFFFFFFFFFF, move := mv, recover := false, heldReqs := [] }] } }

theorem test_page_rewrite : after (exec (.pageRewriteComplete 14400) (rewriting 3 false)) (fun t =>
      t.sep.rewrites = [] && pwMajor (pageWord t 14400) = 4 && t.sep.rekeys = []) = true ∧
    after (exec (.pageRewriteComplete 14400) (rewriting 0x3FFFFFFE false)) (fun t =>
      pwMajor (pageWord t 14400) = 0x3FFFFFFF && (rekeyOf t 131071).isSome) = true := by decide +kernel

theorem test_rewrite_waits : pageOpen (rewriting 3 false) 14400 = true ∧ (rewriteOf (rewriting 3 false) 14400).map (carryReady (rewriting 3 false)) = some true ∧
    (rewriteOf (rewriting 3 true) 14400).map (fun x => x.move) = some true ∧ (rewriting 3 false).sep.waiting = [] ∧ (rewriting 3 false).sep.due = [] ∧
    after (exec (.pageRewriteComplete 14400) (rewriting 3 true)) (fun t => t.sep.rewrites.length = 1) = true := by decide +kernel

/-- Region 131071 is re-keyed, with current slot 4 and next slot 5. -/
def rekeyed (k : Rekey) : State :=
  setKey 4 { KeySlot.zero with state := .current, region := 131071, key := 1 } (setKey 5 { KeySlot.zero with state := .next, region := 131071, key := 2 }
    { planned with drbg := { planned.drbg with entropyOk := true }, regions := [(131071, { granted with rekeying := true, nextSlot := 5, nextValid := true, pagesRemaining := 16 })],
                   sep := { planned.sep with rekeys := [k] } })

/-- A re-key of region 131071 in a state. -/
def rekey (st : RekeyState) : Rekey :=
  { region := 131071, state := st, exhausted := [14400], lost := [], again := [], sweep := 0, moved := 0, startUs := 0, oldSlot := 4, newSlot := 5 }

theorem test_key_draw : keyReady (rekeyed (rekey .draw)) = true ∧ firstFree (rekeyed (rekey .draw)) 8192 0 = some 0 ∧
    after (exec (.keyDraw 131071) (rekeyed (rekey .draw))) (fun t => (getRegion t 131071).nextSlot = 0 && (getRegion t 131071).nextValid && (t.sep.rekeys.map (fun k => k.state)) = [.move]) = true := by decide +kernel

theorem test_page_move : nextListed (rekeyed (rekey .move)) (rekey .move) = some (14400, false) ∧ pageBusy (rekeyed (rekey .move)) 14400 = false ∧
    after (exec (.pageMove 131071 14400) (rekeyed (rekey .move))) (fun t => (getRegion t 131071).pagesRemaining = 15 &&
      pwGen (pageWord t 14400) && pwFresh (pageWord t 14400)) = true ∧
    exec (.pageMove 131071 pageCount) (rekeyed (rekey .move)) = .fault .noSuchObject := by refine ⟨?_, ?_, ?_, rfl⟩ <;> decide +kernel

theorem test_sweep : (0 : Nat) < regionPages granted ∧ after (exec (.rekeySweepStep 131071) (rekeyed (rekey .move))) (fun t =>
    (getRegion t 131071).pagesRemaining = 15 && t.sep.rekeys.map (fun k => k.sweep) = [1]) = true := by decide +kernel

/-- A page whose word was lost may move during the flush; and the sweep finds its page at rest. -/
theorem test_moves : nextListed (rekeyed { rekey .flush with lost := [14401] }) { rekey .flush with lost := [14401] } = some (14401, true) ∧
    pageBusy (rekeyed { rekey .flush with lost := [14401] }) 14401 = false ∧ pageOpen (rekeyed (rekey .move)) 14400 = true ∧
    granted.slab * 16 + 0 = 14400 ∧ unmoved (rekeyed (rekey .move)) 131071 14400 = true ∧ upkeepRuns (rekeyed (rekey .move)) = true ∧
    markedRow (rekeyed (rekey .flush)) (leaseHome (rekeyed (rekey .flush)) 131071).1 = false ∧
    pageOpen { rekeyed (rekey .move) with retiring := [0] } 14400 = false := by decide +kernel

/-- Page 14400 has been written, so that its move begins with a record. -/
theorem test_move_begins : pwFresh (pageWord (prepared (rekeyed (rekey .move))) 14400) = false ∧
    after (exec (.pageMove 131071 14400) (prepared (rekeyed (rekey .move)))) (fun t =>
      (rewriteOf t 14400).map (fun x => (x.major, x.moved, x.move)) = some (3, 0, true)) = true ∧
    after (exec (.rekeySweepStep 131071) (prepared (rekeyed (rekey .move)))) (fun t => (rewriteOf t 14400).isSome && t.sep.rekeys.map (fun k => k.sweep) = [1]) = true := by
  decide +kernel

/-- The move of page 14400, all its lines moved. -/
def moving : State :=
  let s := prepared (rekeyed (rekey .move))
  { s with sep := { s.sep with rewrites :=
    [{ page := 14400, region := 131071, major := 3, moved := 0xFFFFFFFFFFFFFFFF, move := true, recover := false, heldReqs := [request .partWrite] }] } }

theorem test_move_ends : (rewriteOf moving 14400).map (moveReady moving 131071) = some true ∧ pageDue moving 14400 = false ∧
    after (exec (.pageMove 131071 14400) moving) (fun t => (getRegion t 131071).pagesRemaining = 15 && (rewriteOf t 14400).isNone &&
      t.sep.waiting = [request .partWrite] && pwGen (pageWord t 14400)) = true := by decide +kernel

/-- The sweep of the region has passed its last page; its pages have moved, or have not. -/
theorem test_sweep_ends : regionPages granted ≤ 16 ∧
    after (exec (.rekeySweepStep 131071) (rekeyed { rekey .move with sweep := 16 })) (fun t => t.sep.rekeys.map (fun k => k.state) = [.move]) = true ∧
    after (exec (.rekeySweepStep 131071) (setRegion 131071 { getRegion (rekeyed (rekey .move)) 131071 with curBit := true } (rekeyed { rekey .move with sweep := 16 }))) (fun t =>
      t.sep.rekeys.map (fun k => k.state) = [.flush] && (getKey t 4).state = .retiring) = true := by decide +kernel

theorem test_retirement_again : slotQuiet (rekeyed { rekey .flush with again := [14400] }) 4 = true ∧
    after (exec (.keyRetirement 131071) (rekeyed { rekey .flush with again := [14400] })) (fun t => (rekeyOf t 131071).isSome) = true := by decide +kernel

theorem test_retirement : slotQuiet (rekeyed (rekey .flush)) 4 = true ∧
    after (exec (.keyRetirement 131071) (rekeyed { rekey .flush with exhausted := [] })) (fun t => (getRegion t 131071).curSlot = 5 &&
      (getKey t 5).state = .current && decide (getKey t 4 = KeySlot.zero) && !(getRegion t 131071).rekeying && t.sep.rekeys = []) = true := by decide +kernel

theorem test_drbg : serving.drbg.instantiated = true ∧ serving.pins.porN = true ∧ sampleFails 5 serving.drbg = false ∧
    after (exec (.entropySample 5 []) serving) (fun t => t.drbg.entropyOk && t.drbg.repeated = some (5, 1)) = true ∧
    after (exec (.entropySample 5 [6]) serving) (fun t => t.drbg.entropyOk && t.drbg.repeated = some (6, 1)) = true ∧
    after (exec .entropyFailure serving) (fun t => t.churn.inbox.map (fun m => (m.kind, m.addr, m.severity)) = [(0x35, 0x10000, 2)]) = true := by
  decide +kernel

/-- A run of equal samples that the next one brings to the cutoff. -/
theorem test_sample_fails : sampleFails 5 { serving.drbg with repeated := some (5, Config.repetitionCutoff) } = true := by
  simp [sampleFails, repetitionTest]

/-- A DRBG whose source gives good samples. -/
theorem test_reseed_premises : (rekeyed (rekey .draw)).drbg.instantiated = true ∧ (rekeyed (rekey .draw)).drbg.entropyOk = true := by decide +kernel

/-! ### Leases and plans -/

theorem test_minute : after (exec .minuteBoundary { serving with tank := { serving.tank with usec := 59999999 } }) (fun t =>
    t.tank.minute = 101 && t.tank.usec = 0) = true := by decide +kernel

/-- Minute 199 runs out, with an entry of region 131071 and a plan. -/
def lastMinute (r : Region) (pl : Plan) : State :=
  let s := { serving with plans := { serving.plans with plan := some pl, inForce := some .a }, genDrawn := [131071] }
  { s with regions := [(131071, r)], tank := { s.tank with minute := 199, roundMinute := 199, usec := 59999999 }, records := { s.records with openMinute := 199 } }

/-- A lease that follows on. -/
def nextLease : Lease := { leaseRec with id := 10, start := 200, stop := 300 }

/-- The region's record with both leases. -/
def onwardRec : RegionRec := { index := 131071, tenant := 3, vbase := 0x10000, slab := 900, slabs := 1, leases := [leaseRec, nextLease] }

/-- The plan with the second lease. -/
def onward : Plan := { plan with regions := [onwardRec] }

theorem test_minute_ends : roundRuns serving = false ∧ roundRuns (lastMinute granted plan) = true ∧ boundariesHeld (lastMinute granted plan) = false ∧
    pendingBank (lastMinute granted plan) = none ∧
    after (exec .minuteBoundary (lastMinute granted plan)) (fun t => t.tank.roundMinute = 200 && t.records.openMinute = 200 && t.records.lastMinute = 199 &&
      !(getRegion t 131071).active && (getRegion t 131071).erase = .draining) = true := by decide +kernel

theorem test_minute_follows : regionRec (lastMinute granted onward) 131071 = some onwardRec ∧
    (openLeases (lastMinute granted onward) onwardRec).find? (fun x => x.id = 10) = some nextLease ∧
    after (exec .minuteBoundary (lastMinute { granted with foId := 10, foEnd := 300 } onward)) (fun t =>
      (getRegion t 131071).active && (getRegion t 131071).leaseId = 10 && (getRegion t 131071).leaseEnd = 300 && (getRegion t 131071).gen = 7) = true := by decide +kernel

/-- A plan without regions and classes has been prepared in bank B for minute 200. -/
def adopting : State :=
  let s := lastMinute Region.zero (planOf State.reset)
  { s with retired := BitVec.allOnes 64,
           plans := { s.plans with prepared := true, buffer := some (planOf State.reset), bankB := { BankState.reset with state := 4, adoptAt := 200 } } }

theorem test_minute_adopts : pendingBank adopting = some .b ∧ compat adopting (planOf State.reset) 200 false = none ∧ boundariesHeld adopting = false ∧
    admission (planOf State.reset) adopting.retired = none ∧ (getBS adopting .b).adoptAt.toNat = 200 ∧ adopting.plans.buffer = some (planOf State.reset) := by decide +kernel

theorem test_record_sequence : nextRecordSeq 0x1F 64 64 = 69 := by decide +kernel

theorem test_record_line : recordSlot 69 = (5, 0x8001) ∧ markedRow serving (systemLine 5 0x8001) = false := by decide +kernel

/-- The lease start of region 131071 waits. -/
def heldStart (m : BitVec 32) : State :=
  { planned with otp := { planned.otp with life := 2 }, drbg := { planned.drbg with entropyOk := true }, genDrawn := [131071], held := [(131071, false)],
                 tank := { planned.tank with minute := m, roundMinute := m } }

theorem test_held_start : leaseAt (heldStart 100) 131071 100 = some leaseRec ∧ leaseAt (heldStart 200) 131071 200 = none ∧
    eraseBlocks (loadEntry 131071 (heldStart 100)) 131071 = false ∧ keyReady (heldStart 100) = true ∧ firstFree (heldStart 100) 8192 0 = some 0 ∧
    after (exec (.heldLeaseStart 131071) (heldStart 100)) (fun t => (getRegion t 131071).active && t.held = []) = true ∧
    after (exec (.heldLeaseStart 131071) (heldStart 200)) (fun t => !(getRegion t 131071).active && t.held = []) = true := by decide +kernel

/-- An erase of region 131071 in a stage. -/
def erasing (e : EraseStage) : State :=
  setKey 4 { KeySlot.zero with state := .current, region := 131071 } { planned with genDrawn := [131071], regions := [(131071, { granted with active := false, erasePending := true, erase := e })] }

theorem test_erase : regionQuiet (erasing .draining) 131071 = true ∧ upkeepRuns (erasing .draining) = true ∧
    after (exec (.eraseDrainComplete 131071) (erasing .draining)) (fun t => (getRegion t 131071).erase = .erasing && (getRegion t 131071).pagesRemaining = 0) = true ∧
    after (exec (.eraseDrainComplete 131071) (prepared (erasing .draining))) (fun t => (getRegion t 131071).pagesRemaining = 1) = true ∧
    unerased (prepared (erasing .erasing)) 131071 = [14400] ∧ unerased (erasing .erasing) 131071 = [] ∧
    after (exec (.cryptoEraseComplete 131071) (erasing .erasing)) (fun t => !(getRegion t 131071).erasePending && decide (getKey t 4 = KeySlot.zero) &&
      pageWord t 14415 = 0x40000000) = true := by decide +kernel

theorem test_prepared : (match checkBank serving .b with | .error _ => true | .ok _ => false) = true ∧
    after (exec .adoptionPrepared { serving with plans := { serving.plans with preparing := some .b, bankB := { BankState.reset with state := 4 } } }) (fun t =>
      (getBS t .b).state = 7 && (getBS t .b).reason ≠ 0 && t.plans.preparing = none) = true := by decide +kernel

theorem test_table_rewrite : regionRec planned 0 = none ∧ (regionRec planned 131071).isSome = true ∧
    after (exec .regionTableRewrite { planned with genDrawn := [0, 5, 131071], plans := { planned.plans with rewritePending := true }, regions := [(0, { leased with active := false }), (5, leased)] }) (fun t =>
      !(getRegion t 0).inUse && (getRegion t 131071).inUse && (getRegion t 131071).slab = 900 && decide (getRegion t 5 = leased) &&
      t.plans.tableWritten && decide (getRegion t 0 = Region.unnamed)) = true := by decide +kernel

/-- Bank A holds one empty section, of a type. -/
def sectioned (ty : Nat) : State :=
  flashProgram (bankBase .a + 0x0C) (beBytes 4 16) (flashProgram (bankBase .a + 0x40) (beBytes 1 ty ++ List.replicate 15 0) { planned with genDrawn := [131071] })

theorem test_reload : sectionIntact (sectioned 6) .a 6 = true ∧ after (exec (.sectionReload (.region 131071)) (sectioned 6)) (fun t =>
    !NSet.has (waitKey 131071) t.plans.reloadFailed) = true := by decide +kernel

theorem test_reload_damaged : sectionIntact (sectioned 7) .a 6 = false ∧ after (exec (.sectionReload (.region 131071)) (sectioned 7)) (fun t =>
    NSet.has 131071 t.plans.reloadFailed && (getBS t .a).reason = 0x0A) = true := by decide +kernel

/-! ### Upkeep and heat -/

/-- A window of 4,096 bursts in which a lane had n errors. -/
def laneWindow (n : Nat) : State := setChan 63 { Chan.zero with initialised := true, windowBursts := 4096, laneErrors := [(71, n)] } serving

theorem test_window : after (exec (.laneErrorWindow 63) (laneWindow 64)) (fun t => (getChan t 63).failedLanes = [71] && (getChan t 63).laneErrors = []) = true ∧
    after (exec (.laneErrorWindow 63) (laneWindow 63)) (fun t => (getChan t 63).failedLanes = []) = true := by decide +kernel

theorem test_relief : engineIdle { serving with retiring := [63] } 63 = true ∧ upkeepRuns { serving with retiring := [63] } = true ∧ reliefChannel { serving with retiring := [63] } 63 = some 31 ∧
    after (exec (.reliefCopyComplete 63) { serving with retiring := [63] }) (fun t => isRetired t 63 && t.relief = [(63, 31)] && t.retiring = []) = true := by
  decide +kernel

/-- The Skimmer runs. -/
def skimming (s : State) : State := { s with skim := { s.skim with running := true } }

theorem test_skimmer_step : (skimming planned).skim.behind = 0 ∧ (getChan (skimming planned) (stepVisit (skimming planned)).1).visits.length < 16 ∧ (stepVisit (skimming planned)).2.isSome = true ∧ after (exec .skimmerStep (skimming planned)) (fun t =>
    t.skim.position = 1 && (getChan t 0).visits.length = 1 && t.skim.behind = 0) = true := by decide +kernel

/-- A visit to the first line of page 14400. -/
def visit : Visit := { line := 0, dma := some (900 * 65536), since := 0 }

/-- The visit waits for its ordering point, and no request does. -/
def visiting : State := setChan 0 { Chan.zero with initialised := true, visits := [visit] } (skimming (prepared planned))

theorem test_visit_pass : passHeld 0 visiting = none ∧ whenOpen visiting 0 (nextMove 0 visiting) = none ∧ ownOpen visiting 0 = true ∧
    (∀ c < 16, classQ visiting 0 c = []) ∧ (bankQ visiting 0 (lineBank 2097672)).length < 16 ∧ cycleOf visiting 0 = 0 ∧
    (getChan visiting 0).early ++ (getChan visiting 0).visits = [visit] ∧ NSet.has (lockKey (visitReq visit 0)) visiting.path.locks = false ∧
    markedRow visiting (reqLine visiting 0 (visitReq visit 0)) = false ∧
    after (exec (.orderingPointPass 0 [] []) visiting) (fun t => (getChan t 0).visits = [] &&
      (bankQ t 0 (lineBank 2097672)).map (fun e => e.req) = [visitReq visit 0] && NSet.has (lockKey (visitReq visit 0)) t.path.locks) = true := by decide +kernel

/-- The visit's line has arrived. -/
def visited : State := setArrivedVisits 0 [visitReq visit 0] (skimming (prepared planned))

theorem test_visit : stalls visited 0 = false ∧ reqLine visited 0 (visitReq visit 0) = 2097672 ∧ (visitReq visit 0).target.bind (fun v => v.dma) = some (visitReq visit 0).dma ∧
    isRetired visited 0 = false ∧ arrivedVisits visited 0 = [visitReq visit 0] ∧
    after (exec (.skimmerVisit 0 [] []) visited) (fun t => (getLayer t 0).visits = 1 && decide (t.dram = visited.dram)) = true ∧
    after (exec (.skimmerVisit 0 [(3, 1)] []) visited) (fun t => arrivedVisits t 0 = [] && burstErrors t 2097672 [] = []) = true := by decide +kernel

theorem test_visit_uncorrectable : after (exec (.skimmerVisit 0 [(0, 1), (1, 1), (2, 1), (3, 1), (4, 1)] []) visited) (fun t =>
    isPoisoned t 2097672) = true := by decide +kernel

/-- An SRAM word in error. -/
def finding (area : Fin 10) (item : Nat) (double : Bool) : Option SramFinding := some { area := area, item := item, psn := 0, double := double, bothCopies := false }

theorem test_sram : after (exec (.sramScrub none) serving) (fun t => decide (t = serving)) = true ∧
    after (exec (.sramScrub (finding 9 0 false)) serving) (fun t => Map.get 0 521 t.ctr.chan = 1) = true ∧
    after (exec (.sramScrub (finding 0 0x400FF true)) (connected qp)) (fun t => (getQp t 0x400FF).state = .free && Map.get 0 544 t.ctr.chan = 1) = true ∧
    after (exec (.sramScrub (finding 2 5 true)) { serving with metaCache := [4, 5] }) (fun t => t.metaCache = [4]) = true ∧
    after (exec (.sramScrub (finding 6 0 true)) serving) (fun t => t.tank.coreHeld) = true ∧
    after (exec (.sramScrub (finding 9 7 true)) serving) (fun t => Map.get 0 7 t.ctr.tenant = max64) = true := by decide +kernel

/-- Channel 63 stands at slot 0. -/
def atSlot0 : State := setChan 63 { Chan.zero with initialised := true, opp := 8192 } planned

theorem test_calendar : engineRuns atSlot0 63 = true ∧ turnDue atSlot0 63 = true ∧ calendarsLoaded atSlot0 = true ∧ layerBand atSlot0 63 ≤ plan.band ∧
    turnDue (engine DBank.zero) 63 = false ∧ after (exec (.calendarTurn 63) atSlot0) (fun t =>
      decide ((getParlour t 63).planCal = planCalendar plan 63) && (getParlour t 63).cuts = [] && (getChan t 63).turned) = true := by decide +kernel

theorem test_latency : after (exec (.latencyUpdate 63 15) (setCls 63 15 { ClsCh.zero with e := 80, window := List.replicate 64 48 ++ [7] } planned)) (fun t =>
    (getCls t 63 15).window = [7] && (getCls t 63 15).e = 72) = true := by decide +kernel

/-- All layers and the base die read a temperature. -/
def sampled (base layer : Int) : State → Host.Outcome State Fault Refusal :=
  exec (.thermalSample (List.replicate 24 (some base)) (List.replicate 64 (some layer)))

theorem test_thermal : thermalRuns serving = true ∧ after (sampled 1151 1100 serving) (fun t =>
      t.thermal.shutdownMask = 0x10000 && (getLayer t 15).effective = 1100 && (getLayer t 15).band = bandOf 1100) = true ∧
    after (sampled 1150 1100 serving) (fun t => t.thermal.shutdownMask = 0) = true := by decide +kernel

/-- Layer 15 has a band, a step and an effective temperature. -/
def hotAt (band step : Nat) (e : Int) : State := setLayer 15 { Layer.zero with band := band, step := step, effective := e, valid := 8 } serving

/-- The layer after its release. -/
def released (s : State) (l : Nat) : Bool := after (exec (.thresholdRelease (.layer 15)) s) (fun t => layerState (getLayer t 15) = l)

theorem test_release : released (hotAt 2 2 1030) 2 = true ∧ released (hotAt 2 2 1031) 3 = true ∧ released (hotAt 2 1 930) 1 = true ∧
    released (hotAt 1 0 830) 0 = true ∧ released (hotAt 0 0 0) 0 = true ∧ layerState (getLayer (hotAt 2 2 0) 15) = 3 := by decide +kernel

/-- The base die after its release. -/
def cooled (st : Nat) (f : Int) : Bool :=
  after (exec (.thresholdRelease .base) { serving with thermal := { serving.thermal with baseState := st, baseFigure := f } }) (fun t => t.thermal.baseState + 1 = st)

theorem test_release_base : cooled 3 1130 = true ∧ cooled 2 1030 = true ∧ cooled 1 980 = true ∧ cooled 3 1131 = false := by decide +kernel

theorem test_sensors : after (exec (.sensorInvalid (.layer 15 3)) (hotAt 2 2 500)) (fun t => (getLayer t 15).failed && (getLayer t 15).valid = 0) = true ∧
    after (exec (.sensorInvalid (.base 23)) serving) (fun t => t.thermal.baseInvalid.getLsbD 23) = true ∧
    after (exec (.sensorsDeclaredFailed 15) (setLayer 15 { Layer.zero with disagree := true } serving)) (fun t => (getLayer t 15).failed) = true := by decide +kernel

/-- A record of the factory's thermal table. -/
def therm : ThermRecord := { kb := 0, ka := 0, kp := 0, k0 := 0, tau := 1, tr := 850, rr := 4, slope := 10 }

theorem test_retention : after (exec .retentionFloorUpdate (setLayer 15 { Layer.zero with visits := 262143, floor := some 5 } serving)) (fun t =>
      (getLayer t 15).floor = none) = true ∧
    after (exec .retentionFloorUpdate (setLayer 15 { Layer.zero with visits := 262144, retAt := [0, 1, 2] }
      { serving with factory := { serving.factory with therm := List.replicate 16 therm } })) (fun t => (getLayer t 15).floor = retentionFloor therm 2) = true := by
  decide +kernel

/-! ### The machine as a whole -/

theorem test_step : step { serving with pending := [.slowPathToken, .pwrOkRise] } = exec .slowPathToken { serving with pending := [.pwrOkRise] } ∧
    after (step serving) (fun t => t.tank.clockUs = 1) = true ∧ after (step State.reset) (fun t => t.tank.clockUs = 1) = true := by
  refine ⟨rfl, ?_, ?_⟩ <;> decide +kernel

theorem test_reset : startWord State.reset = 0x01000000 ∧ pageWord State.reset 0 = 0x40000000 ∧ pageWord State.reset 0xDC7FFF = 0x40000000 ∧
    lineData State.reset (dataHome State.reset 63 0) = List.replicate 64 0 := by decide +kernel

theorem test_stored : Sys2Proof.Safety.Stored State.reset := by
  refine ⟨?_, ?_, ?_, ?_, ?_⟩ <;> decide +kernel

/-! ### Well-formedness -/

/-- A word that a margin reference misreads. -/
def weak : WeakWord := { word := 5, lost := 1, gained := 0 }

theorem test_wf_margin : Instr.wf (.otpMarginRead [weak]) = true ∧ Instr.wf (.otpMarginRead [weak, weak]) = false ∧
    Instr.wf (.warmStart [weak, weak]) = false := by decide +kernel

theorem test_wf_training : Instr.wf (.linkTrainingComplete 0 true [List.replicate 28 0]) = true ∧
    Instr.wf (.linkTrainingComplete 0 true [List.replicate 27 0]) = false ∧
    Instr.wf (.linkTrainingComplete 0 true (List.replicate 5 (List.replicate 28 0))) = false ∧ Instr.wf (.recalDecision 0 0 [1]) = false := by decide +kernel

theorem test_wf_chain : Instr.wf (.anchor .chu (command 1 [1, 2])) = true ∧ Instr.wf (.anchor .chu { command 1 [1, 2] with length := 3 }) = false ∧
    Instr.wf (.stagingWrite .chu (command 1 (List.replicate 1025 0))) = false := by decide +kernel

theorem test_wf_objects : Instr.wf (.unitCopy 0 225791) = true ∧ Instr.wf (.unitCopy 0 225792) = false ∧ Instr.wf (.pageMove 0 0xDC7FFF) = true ∧
    Instr.wf (.pageMove 0 0xDC8000) = false ∧ Instr.wf (.pageInitComplete 0xDC8000) = false ∧ Instr.wf (.pageRewriteComplete 0xDC8000) = false := by
  decide +kernel

theorem test_wf_ports : Instr.wf (.pfcReceive 0 1 (quanta 0)) = true ∧ Instr.wf (.pfcReceive 0 1 [0]) = false ∧
    Instr.wf (.rdmaWriteOnly (packet 0x0A 0 0 (List.replicate 4097 0))) = false ∧ Instr.wf (.cmReq { mad with priv := List.replicate 233 0 }) = false := by
  decide +kernel

theorem test_wf_errors : Instr.wf (.lineDecode 0 [(0, 1), (1, 1)] [] []) = true ∧ Instr.wf (.lineDecode 0 [(0, 1), (0, 2)] [] []) = false ∧
    Instr.wf (.lineDecode 0 [] [(0, 0)] []) = false ∧ Instr.wf (.lineDecode 0 [] [] [(0, 0)]) = false ∧
    Instr.wf (.orderingPointPass 0 [(0, 0)] []) = false ∧ Instr.wf (.skimmerVisit 0 [] [(0, 0)]) = false := by decide +kernel

theorem test_wf_sample : Instr.wf (.thermalSample (List.replicate 24 none) (List.replicate 64 none)) = true ∧
    Instr.wf (.thermalSample (List.replicate 23 none) (List.replicate 64 none)) = false ∧
    Instr.wf (.thermalSample (List.replicate 24 none) (List.replicate 63 none)) = false := by decide +kernel

end Sys2Proof.Tests
end

namespace Sys2Proof.Safety
open Sys2Proof.Machine

/-! ## READs and WRITEs of the object map

What a READ returns depends on nothing that the link changes with the frame's receipt. For the windows of the rings this is shown
through the demand accesses to the array: each runs alike in two states that differ in what is reported (`Reports`). The other blocks
are compared word by word. -/

/-! ### What is reported -/

/-- Nothing but counters, the Churn's records, the chain and the channels that await retirement differs: what a READ of a window of the
array reports, and what its link changes. -/
def Reports (u t : State) : Prop :=
  ∃ (k : Churn) (h : Chain) (l : List ChainSent) (c : Counters) (r : NatSet),
    t = { u with churn := k, chain := h, chainSent := l, ctr := c, retiring := r }

theorem Reports.refl (s : State) : Reports s s := ⟨_, _, _, _, _, rfl⟩

theorem Reports.symm {a b : State} : Reports a b → Reports b a := by
  rintro ⟨_, _, _, _, _, rfl⟩
  exact ⟨a.churn, a.chain, a.chainSent, a.ctr, a.retiring, rfl⟩

theorem Reports.trans {a b c : State} : Reports a b → Reports b c → Reports a c := by
  rintro ⟨_, _, _, _, _, rfl⟩ ⟨_, _, _, _, _, rfl⟩
  exact ⟨_, _, _, _, _, rfl⟩

theorem Links.reports {a b : State} : Links a b → Reports a b := by
  rintro ⟨_, _, _, _, _, _, _, _, rfl⟩
  exact ⟨_, _, _, _, _, rfl⟩

theorem Messages.reports {a b : State} (h : Messages a b) : Reports a b := h.links.reports

/-- Two states that differ so still do when each goes on by a step that only reports. -/
theorem Reports.both {a b c d : State} (h : Reports a b) (ha : Reports a c) (hb : Reports b d) : Reports c d :=
  (ha.symm.trans h).trans hb

theorem Reports.thermal {a b : State} : Reports a b → b.thermal = a.thermal := by
  rintro ⟨_, _, _, _, _, rfl⟩
  rfl

/-! ### Steps that only report -/

theorem startRetirement_reports (ch : Nat) (s : State) : Reports s (startRetirement ch s) := by
  unfold startRetirement
  split
  · exact Reports.refl s
  · exact Reports.trans ⟨_, _, _, _, _, rfl⟩ (raise_messages _ _ _ _).reports

theorem chanCount_reports (ch n k : Nat) (s : State) : Reports s (chanCount ch n k s) := by
  unfold chanCount
  dsimp only
  split
  · exact Reports.trans ⟨_, _, _, _, _, rfl⟩ (raise_messages _ _ _ _).reports
  · exact ⟨_, _, _, _, _, rfl⟩

theorem headCount_reports (key n : Nat) (s : State) : Reports s (headCount key n s) := ⟨_, _, _, _, _, rfl⟩

theorem systemBursts_reports (ch n : Nat) (s : State) : Reports s (systemBursts ch n s) := by
  unfold systemBursts classCount
  dsimp only
  split
  · exact Reports.refl s
  · split
    · exact Reports.trans ⟨_, _, _, _, _, rfl⟩ (raise_messages _ _ _ _).reports
    · exact ⟨_, _, _, _, _, rfl⟩

theorem logCorrection_reports (addr src : Nat) (lanes : List Nat) (nb : Nat) (er : Bool) (s : State) :
    Reports s (logCorrection addr src lanes nb er s).2 := by
  unfold logCorrection
  dsimp only
  split
  · split
    · exact Reports.refl s
    · exact ⟨_, _, _, _, _, rfl⟩
  · split
    · exact ⟨_, _, _, _, _, rfl⟩
    · exact headCount_reports _ _ _

theorem noteCorrection_reports (ch addr src : Nat) (isData : Bool) (lanes : List Nat) (nb : Nat) (er : Bool) (s : State) :
    Reports s (noteCorrection ch addr src isData lanes nb er s) := by
  unfold noteCorrection
  extract_lets r
  have h : Reports s r.2 := (chanCount_reports _ _ _ _).trans (logCorrection_reports _ _ _ _ _ _)
  by_cases hr : r.1 = true
  · rw [if_pos hr]
    exact h.trans (raise_messages _ _ _ _).reports
  · rw [if_neg hr]
    exact h

/-! ### Steps that read none of what is reported -/

section
variable {s u : State} (h : Reports s u)
include h

theorem Reports.congr_drawn : Reports (drawn s) (drawn u) := by
  obtain ⟨_, _, _, _, _, rfl⟩ := h
  exact ⟨_, _, _, _, _, rfl⟩

theorem Reports.congr_setChan (c : Nat) (v : Chan) : Reports (setChan c v s) (setChan c v u) := by
  obtain ⟨_, _, _, _, _, rfl⟩ := h
  exact ⟨_, _, _, _, _, rfl⟩

theorem Reports.congr_writeLine (line : Nat) (bs : List Byte) : Reports (writeLine line bs s) (writeLine line bs u) := by
  obtain ⟨_, _, _, _, _, rfl⟩ := h
  exact ⟨_, _, _, _, _, rfl⟩

theorem Reports.getChan_eq (c : Nat) : getChan u c = getChan s c := by
  obtain ⟨_, _, _, _, _, rfl⟩ := h
  rfl

theorem Reports.lineData_eq (line : Nat) : lineData u line = lineData s line := by
  obtain ⟨_, _, _, _, _, rfl⟩ := h
  rfl

theorem Reports.decodeOutcome_eq (line : Nat) : decodeOutcome u line [] u.free = decodeOutcome s line [] s.free := by
  obtain ⟨_, _, _, _, _, rfl⟩ := h
  rfl

theorem Reports.congr_countBurst (line : Nat) (d : Decoded) : Reports (countBurst line d s) (countBurst line d u) := by
  unfold countBurst
  dsimp only
  rw [h.getChan_eq]
  cases d with
  | clean | poisoned | corrected => exact h.congr_setChan _ _
  | uncorrectable =>
    dsimp only
    split
    · exact (h.congr_setChan _ _).both (startRetirement_reports _ _) (startRetirement_reports _ _)
    · exact h.congr_setChan _ _

theorem Reports.congr_earlyScrub (ch line : Nat) : Reports (earlyScrub ch line none s) (earlyScrub ch line none u) := by
  unfold earlyScrub cycleOf
  dsimp only
  rw [h.getChan_eq]
  split
  · exact h.congr_setChan _ _
  · exact h.both (headCount_reports _ _ _) (headCount_reports _ _ _)

/-- A demand access gives the same word in both, whatever its report says (R215, R224). -/
theorem Reports.congr_readSystem (line d e : Nat) :
    (readSystem line e u).1 = (readSystem line d s).1 ∧ Reports (readSystem line d s).2 (readSystem line e u).2 := by
  unfold readSystem decodeLine
  dsimp only
  rw [h.decodeOutcome_eq]
  have hc := h.congr_drawn.congr_countBurst line (decodeOutcome s line [] s.free)
  split <;> dsimp only
  · exact ⟨rfl, hc⟩
  · exact ⟨rfl, (hc.both (noteCorrection_reports _ _ _ _ _ _ _ _) (noteCorrection_reports _ _ _ _ _ _ _ _)).congr_earlyScrub _ _⟩
  · exact ⟨rfl, hc.both ((chanCount_reports _ _ _ _).trans (raiseDetail_messages _ _ _ _ _).reports)
      ((chanCount_reports _ _ _ _).trans (raiseDetail_messages _ _ _ _ _).reports)⟩

theorem Reports.congr_journal (j : Journal) : Reports { s with journal := j } { u with journal := j } := by
  obtain ⟨_, _, _, _, _, rfl⟩ := h
  exact ⟨_, _, _, _, _, rfl⟩

theorem Reports.journal_eq : u.journal = s.journal := by
  obtain ⟨_, _, _, _, _, rfl⟩ := h
  rfl

theorem Reports.congr_invalidateSlot (q : Nat) : Reports (invalidateSlot q s) (invalidateSlot q u) := by
  have hw := ((h.congr_journal { s.journal with invalid := satAdd max16 s.journal.invalid 1 }).congr_writeLine (journalLine q)
    (beBytes 8 q)).both (systemBursts_reports (journalSlot q).1 1 _) (systemBursts_reports (journalSlot q).1 1 _)
  unfold invalidateSlot
  dsimp only
  rw [h.journal_eq]
  split
  · exact hw.both (raise_messages _ _ _ _).reports (raise_messages _ _ _ _).reports
  · exact hw

/-- A lost line of either ring becomes the same invalid entry in both (R127, R324). -/
theorem Reports.congr_loseRing (line : Nat) : Reports (loseRing line s) (loseRing line u) := by
  unfold loseRing loseRecordLine loseJournalLine
  dsimp only
  rw [h.journal_eq, h.lineData_eq]
  split
  · exact h.congr_writeLine _ _
  · split
    · exact h.congr_invalidateSlot _
    · exact h.congr_writeLine _ _

end

/-! ### Reading the lines of a window -/

/-- One access of `readLines` to the rings: the words that differ from what the array holds, and the state. -/
def fetchLine (detail : State → Nat → Nat) (acc : List (Nat × List Byte) × State) (line : Nat) : List (Nat × List Byte) × State :=
  let d := readSystem line (detail acc.2 line) acc.2
  match d.1 with
  | some bs => (if padTo 64 bs = lineData d.2 line then acc.1 else acc.1 ++ [(line, bs)], d.2)
  | none => (acc.1, loseRing line d.2)

theorem readLines_eq (detail : State → Nat → Nat) (lines : List Nat) (s : State) :
    readLines detail loseRing lines s = lines.foldl (fetchLine detail) ([], s) := rfl

theorem Reports.congr_fetchLine {s u : State} (h : Reports s u) (detail : State → Nat → Nat) (l : List (Nat × List Byte)) (line : Nat) :
    (fetchLine detail (l, u) line).1 = (fetchLine detail (l, s) line).1 ∧
      Reports (fetchLine detail (l, s) line).2 (fetchLine detail (l, u) line).2 := by
  obtain ⟨h1, h2⟩ := h.congr_readSystem line (detail s line) (detail u line)
  unfold fetchLine
  dsimp only
  rw [h1, h2.lineData_eq]
  split
  · exact ⟨rfl, h2⟩
  · exact ⟨rfl, h2.congr_loseRing line⟩

/-- What a READ of lines of the rings brings, and the array after it, depend on nothing that is reported. -/
theorem Reports.congr_readLines {s u : State} (h : Reports s u) (detail : State → Nat → Nat) (lines : List Nat) :
    (readLines detail loseRing lines u).1 = (readLines detail loseRing lines s).1 ∧
      Reports (readLines detail loseRing lines s).2 (readLines detail loseRing lines u).2 := by
  rw [readLines_eq, readLines_eq]
  generalize ([] : List (Nat × List Byte)) = l
  induction lines generalizing s u l with
  | nil => exact ⟨rfl, h⟩
  | cons line lines ih =>
    obtain ⟨h1, h2⟩ := h.congr_fetchLine detail l line
    rw [List.foldl_cons, List.foldl_cons]
    generalize fetchLine detail (l, s) line = x at h1 h2 ⊢
    generalize fetchLine detail (l, u) line = y at h1 h2 ⊢
    obtain ⟨l', s'⟩ := x
    obtain ⟨_, u'⟩ := y
    cases h1
    exact ih h2 l'

theorem Reports.dramHidden_eq {s u : State} (h : Reports s u) : dramHidden u = dramHidden s := by
  obtain ⟨_, _, _, _, _, rfl⟩ := h
  rfl

theorem Reports.windowLines_eq {s u : State} (h : Reports s u) (b : Block) (a n : Nat) : windowLines u b a n = windowLines s b a n := by
  obtain ⟨_, _, _, _, _, rfl⟩ := h
  rfl

theorem Reports.congr_fetchWindow {s u : State} (h : Reports s u) (b : Block) (a n : Nat) :
    (fetchWindow u b a n).1 = (fetchWindow s b a n).1 ∧ Reports (fetchWindow s b a n).2 (fetchWindow u b a n).2 := by
  unfold fetchWindow
  rw [h.dramHidden_eq, h.windowLines_eq]
  split
  · exact ⟨rfl, h⟩
  · exact h.congr_readLines _ _

theorem Reports.congr_viewOf {s u : State} (h : Reports s u) (l : List (Nat × List Byte)) : Reports (viewOf l s) (viewOf l u) := by
  unfold viewOf forEach
  induction l generalizing s u with
  | nil => exact h
  | cons e l ih => exact ih (h.congr_writeLine e.1 e.2)

/-! ### What a READ of a block returns -/

/-- The windows of the rings show nothing that is reported (R128, R326). -/
theorem Reports.objectWord_eq {s u : State} (h : Reports s u) {b : Block} (hb : b = .minutes ∨ b = .journal) (a : Nat) :
    objectWord u b a = objectWord s b a := by
  obtain ⟨_, _, _, _, _, rfl⟩ := h
  obtain rfl | rfl := hb <;> rfl

/-- Only the rings are read from the array for a window. -/
theorem fetchWindow_other (s : State) {b : Block} (hm : b ≠ .minutes) (hj : b ≠ .journal) (a n : Nat) : fetchWindow s b a n = ([], s) := by
  have hl : windowLines s b a n = [] := by
    unfold windowLines
    split
    · exact absurd rfl hm
    · exact absurd rfl hj
    · rfl
  unfold fetchWindow
  rw [hl]
  split <;> rfl

theorem shown_links {s u : State} (h : Links s u) (g : Nat) : ∃ x : Table Nat, shown u g = { shown s g with chain := x } := by
  obtain ⟨_, _, _, n, _, _, _, _, rfl⟩ := h
  unfold shown
  dsimp only
  cases s.views.find? (fun v => decide (v.group = g)) with
  | none => exact ⟨n, rfl⟩
  | some v => exact ⟨v.c.chain, rfl⟩

theorem shownTenant_links {s u : State} (h : Links s u) (t : Nat) :
    ∃ x : Table Nat, shownTenant u t = { shownTenant s t with chain := x } := by
  obtain ⟨_, _, _, n, _, _, _, _, rfl⟩ := h
  unfold shownTenant
  dsimp only
  cases s.views.find? (fun v => decide (v.group = 0) && decide (v.first ≤ t) && decide (t < v.first + v.count)) with
  | none => exact ⟨n, rfl⟩
  | some v => exact ⟨v.c.chain, rfl⟩

theorem ceWord_links {s u : State} (h : Links s u) (o : Nat) : ceWord u o = ceWord s o := by
  obtain ⟨_, hx⟩ := shown_links h 3
  obtain ⟨_, hy⟩ := shown_links h 4
  obtain ⟨_, _, _, _, _, _, _, _, rfl⟩ := h
  simp only [ceWord, ceHeader, chanBytes, hx, hy]
  rfl

theorem portWord_links {s u : State} (h : Links s u) (o : Nat) : portWord u o = portWord s o := by
  obtain ⟨_, hx⟩ := shown_links h 1
  obtain ⟨_, _, _, _, _, _, _, _, rfl⟩ := h
  simp only [portWord, portBytes, hx]
  rfl

theorem classWord_links {s u : State} (h : Links s u) (o : Nat) : classWord u o = classWord s o := by
  obtain ⟨_, hx⟩ := shown_links h 2
  obtain ⟨_, _, _, _, _, _, _, _, rfl⟩ := h
  simp only [classWord, parlourBytes, classCounterBytes, hx]
  rfl

theorem tenantBytes_links {s u : State} (h : Links s u) (t : Nat) : tenantBytes u t = tenantBytes s t := by
  obtain ⟨_, hx⟩ := shownTenant_links h t
  obtain ⟨_, _, _, _, _, _, _, _, rfl⟩ := h
  simp only [tenantBytes, hx]
  rfl

/-- The words of a block other than the chain's do not show what the link changes, but for the count of dropped messages. -/
theorem objectWord_links {s u : State} (h : Links s u) {b : Block} (hb : b ≠ .chain) (hc : u.churn.ceDropped = s.churn.ceDropped) (a : Nat) :
    objectWord u b a = objectWord s b a := by
  cases b with
  | ceLog => simp only [objectWord, ceWord_links h, h.reports.dramHidden_eq]
  | ports => simp only [objectWord, portWord_links h]
  | classes => simp only [objectWord, classWord_links h]
  | tenants => simp only [objectWord, tenantBytes_links h]
  | chain => exact absurd rfl hb
  | _ =>
    obtain ⟨_, _, _, _, _, _, _, _, rfl⟩ := h
    cases hc
    rfl

theorem objectBytes_congr {s u : State} {b : Block} (h : ∀ a, objectWord u b a = objectWord s b a) (a n : Nat) :
    objectBytes u b a n = objectBytes s b a n := by
  unfold objectBytes
  simp only [h]

/-- A READ of any block but the chain's returns what stood there before the frame came (R373). -/
theorem objectRead_links {s u : State} (h : Links s u) {b : Block} (hb : b ≠ .chain) (hc : u.churn.ceDropped = s.churn.ceDropped) (a n : Nat) :
    objectRead u b a n = objectRead s b a n := by
  unfold objectRead
  by_cases hr : b = .minutes ∨ b = .journal
  · obtain ⟨h1, h2⟩ := h.reports.congr_fetchWindow b a n
    rw [h1]
    exact objectBytes_congr ((h2.congr_viewOf _).objectWord_eq hr) a n
  · have hm : b ≠ .minutes := fun e => hr (.inl e)
    have hj : b ≠ .journal := fun e => hr (.inr e)
    rw [fetchWindow_other u hm hj, fetchWindow_other s hm hj]
    exact objectBytes_congr (objectWord_links h hb hc) a n

/-! ### The layers -/

theorem countBurst_thermal (line : Nat) (d : Decoded) (s : State) : (countBurst line d s).thermal = s.thermal := by
  unfold countBurst
  cases d with
  | clean | poisoned | corrected => rfl
  | uncorrectable =>
    dsimp only
    split
    · exact (startRetirement_reports _ _).thermal
    · rfl

theorem earlyScrub_thermal (ch line : Nat) (dma : Option Nat) (s : State) : (earlyScrub ch line dma s).thermal = s.thermal := by
  unfold earlyScrub
  dsimp only
  split <;> rfl

theorem readSystem_thermal (line d : Nat) (s : State) : (readSystem line d s).2.thermal = s.thermal := by
  have hc : (decodeLine s line []).2.thermal = s.thermal := countBurst_thermal _ _ _
  unfold readSystem
  dsimp only
  split
  · exact hc
  · rw [earlyScrub_thermal, (noteCorrection_reports _ _ _ _ _ _ _ _).thermal, hc]
  · rw [(raiseDetail_messages _ _ _ _ _).reports.thermal, (chanCount_reports _ _ _ _).thermal, hc]

theorem writeLine_thermal (line : Nat) (bs : List Byte) (s : State) : (writeLine line bs s).thermal = s.thermal := rfl

theorem invalidateSlot_thermal (q : Nat) (s : State) : (invalidateSlot q s).thermal = s.thermal := by
  have hb := fun u => (systemBursts_reports (journalSlot q).1 1 u).thermal
  unfold invalidateSlot
  dsimp only
  split
  · rw [(raise_messages _ _ _ _).reports.thermal, hb, writeLine_thermal]
  · rw [hb, writeLine_thermal]

theorem loseRing_thermal (line : Nat) (s : State) : (loseRing line s).thermal = s.thermal := by
  unfold loseRing loseJournalLine
  dsimp only
  split
  · exact writeLine_thermal _ _ _
  · split
    · exact invalidateSlot_thermal _ _
    · exact writeLine_thermal _ _ _

theorem fetchLine_thermal (detail : State → Nat → Nat) (x : List (Nat × List Byte) × State) (line : Nat) :
    (fetchLine detail x line).2.thermal = x.2.thermal := by
  unfold fetchLine
  dsimp only
  split
  · exact readSystem_thermal _ _ _
  · exact (loseRing_thermal _ _).trans (readSystem_thermal _ _ _)

theorem readLines_thermal (detail : State → Nat → Nat) (lines : List Nat) (s : State) :
    (readLines detail loseRing lines s).2.thermal = s.thermal := by
  rw [readLines_eq]
  generalize ([] : List (Nat × List Byte)) = l
  induction lines generalizing s l with
  | nil => rfl
  | cons line lines ih =>
    rw [List.foldl_cons]
    exact (ih _ _).trans (fetchLine_thermal _ _ _)

theorem fetchWindow_thermal (s : State) (b : Block) (a n : Nat) : (fetchWindow s b a n).2.thermal = s.thermal := by
  unfold fetchWindow
  split
  · rfl
  · exact readLines_thermal _ _ _

/-- One step of `resetPeaks`: the Peak field of layer i, when the READ returns it (R247). -/
def resetPeak (a n i : Nat) (s : State) : State :=
  if a ≤ 0x40420 + 64 * i ∧ 0x40420 + 64 * i < a + n then setLayer i { getLayer s i with peak := none } s else s

theorem getLayer_resetPeak_same (a n i : Nat) (s : State) :
    getLayer (resetPeak a n i s) i =
      if a ≤ 0x40420 + 64 * i ∧ 0x40420 + 64 * i < a + n then { getLayer s i with peak := none } else getLayer s i := by
  unfold resetPeak
  split
  · exact getLayer_set_same _ _ _
  · rfl

theorem getLayer_resetPeak_other {i j : Nat} (h : j ≠ i) (a n : Nat) (s : State) : getLayer (resetPeak a n i s) j = getLayer s j := by
  unfold resetPeak
  split
  · exact getLayer_set_other _ h _
  · rfl

theorem getLayer_resetPeak_list (a n : Nat) {l : List Nat} (hl : l.Nodup) (j : Nat) (s : State) :
    getLayer (forEach l (resetPeak a n) s) j = if j ∈ l then getLayer (resetPeak a n j s) j else getLayer s j := by
  unfold forEach
  induction l generalizing s with
  | nil => rfl
  | cons i l ih =>
    obtain ⟨hi, hl⟩ := List.nodup_cons.mp hl
    rw [List.foldl_cons, ih hl]
    by_cases hj : j = i
    · subst hj
      simp [hi]
    · simp [hj, getLayer_resetPeak_same, getLayer_resetPeak_other hj]

/-- A READ resets the Peak fields that it returns, and changes no other field of a layer (R4, R247). -/
theorem getLayer_resetPeaks (a n : Nat) {i : Nat} (hi : i < 16) (s : State) :
    getLayer (resetPeaks a n s) i =
      if a ≤ 0x40420 + 64 * i ∧ 0x40420 + 64 * i < a + n then { getLayer s i with peak := none } else getLayer s i := by
  have hm : i ∈ upTo 16 := List.mem_range.mpr hi
  have h := getLayer_resetPeak_list a n List.nodup_range i (l := upTo 16) s
  rw [if_pos hm, getLayer_resetPeak_same] at h
  exact h

/-! ### The words of a WRITE -/

/-- A word with which a WRITE clears UC pending (R344). -/
def setsUc (a w : Nat) : Bool := a = 0x20008 && w.testBit 31

/-- A state with other selectors and another UC pending bit: all that the writable fields of R372 are. -/
def withWritable (v : Selectors) (uc : Bool) (s : State) : State := { s with sel := v, churn := { s.churn with ucPending := uc } }

/-- A written word changes writable fields alone, and UC pending only when it clears it (R344, R374). -/
theorem writeWord_eq (a w : Nat) (s : State) :
    writeWord a w s = withWritable (writeWord a w s).sel (s.churn.ucPending && !setsUc a w) s := by
  unfold writeWord setsUc withWritable
  by_cases h : a = 0x20008
  · simp only [h, if_true, decide_true, Bool.true_and]
    split
    · next hw => simp [hw]
    · next hw => simp [hw]
  · simp only [h, if_false, decide_false, Bool.false_and, Bool.not_false, Bool.and_true]
    split_ifs <;> rfl

theorem writeWord_sel {s u : State} (h : u.sel = s.sel) (a w : Nat) : (writeWord a w u).sel = (writeWord a w s).sel := by
  unfold writeWord
  simp only [h, apply_ite State.sel]

/-- The words that a WRITE carries, with their addresses. -/
def carriedWords (a : Nat) (bs : List Byte) : List (Nat × Nat) :=
  (List.range (bs.length / 4)).map (fun i => (a + 4 * i, wordAt bs (4 * i)))

theorem writeWords_foldl (a : Nat) (bs : List Byte) (s : State) :
    writeWords a bs s = (carriedWords a bs).foldl (fun t e => writeWord e.1 e.2 t) s := by
  unfold writeWords forEach carriedWords
  rw [List.foldl_map]

theorem clearsUc_any (f : ChainFrame) : clearsUc f = (carriedWords f.addr.toNat f.payload).any (fun e => setsUc e.1 e.2) := by
  unfold clearsUc carriedWords
  rw [List.any_map]
  rfl

/-- A WRITE changes writable fields alone, and UC pending only when it clears it (R344, R374). -/
theorem writeWords_eq (f : ChainFrame) (s : State) :
    writeWords f.addr.toNat f.payload s =
      withWritable (writeWords f.addr.toNat f.payload s).sel (s.churn.ucPending && !clearsUc f) s := by
  rw [writeWords_foldl, clearsUc_any]
  induction carriedWords f.addr.toNat f.payload generalizing s with
  | nil => simp [withWritable]
  | cons e l ih =>
    rw [List.foldl_cons, List.any_cons, Bool.not_or, ← Bool.and_assoc]
    refine (ih _).trans ?_
    generalize (l.foldl (fun t e => writeWord e.1 e.2 t) (writeWord e.1 e.2 s)).sel = v
    rw [writeWord_eq e.1 e.2 s]
    rfl

theorem writeWords_sel {s u : State} (h : u.sel = s.sel) (a : Nat) (bs : List Byte) : (writeWords a bs u).sel = (writeWords a bs s).sel := by
  rw [writeWords_foldl, writeWords_foldl]
  induction carriedWords a bs generalizing s u with
  | nil => exact h
  | cons e l ih => exact ih (writeWord_sel h e.1 e.2)

/-! ### READ and WRITE requests -/

theorem accessStatus_links {s u : State} (h : Links s u) (f : ChainFrame) : accessStatus u f = accessStatus s f := by
  obtain ⟨_, _, _, _, _, _, _, _, rfl⟩ := h
  rfl

/-- A request that is carried out names an address of its block. -/
theorem accessStatus_block {s : State} {f : ChainFrame} {st : Byte} {b : Block} (h : accessStatus s f = (st, some b)) :
    ∃ e, blockOf f.addr.toNat = some (e, b) := by
  unfold accessStatus at h
  split at h
  · next e c hb => exact ⟨e, by grind⟩
  · grind

theorem blockTable_below_staging : ∀ x ∈ blockTable, x.2.2 ≠ .staging → x.2.1 < 0x10000000 := by decide

/-- The bank ranges lie in the staging window (R276). -/
theorem windowBank_outside {a e : Nat} {b : Block} (h : blockOf a = some (e, b)) (hb : b ≠ .staging) : windowBank a = none := by
  obtain ⟨x, hx, hxb⟩ := Option.map_eq_some_iff.mp h
  have he := blockTable_below_staging x (List.mem_of_find?_eq_some hx) (by rw [hxb]; exact hb)
  have ha := List.find?_some hx
  simp only [Bool.and_eq_true, decide_eq_true_eq] at ha
  unfold windowBank
  rw [if_neg (by omega), if_neg (by omega)]

theorem readBody_carried {p : ChainPort} {f : ChainFrame} {s : State} {b : Block} (h : accessStatus s f = (0x00, some b)) :
    readBody p f s = answer p f 0x00 (objectRead s b f.addr.toNat (requestLength f)) (fromHardware b)
      (resetPeaks f.addr.toNat (requestLength f) (fetchWindow s b f.addr.toNat (requestLength f)).2) := by
  unfold readBody
  rw [h]

theorem writeBody_carried {p : ChainPort} {f : ChainFrame} {s : State} {b : Block} (h : accessStatus s f = (0x00, some b))
    (hb : b ≠ .staging) : writeBody p f s = answer p f 0x00 [] false (writeWords f.addr.toNat f.payload s) := by
  unfold writeBody
  rw [h]
  split
  · next he => cases he; exact absurd rfl hb
  · rfl
  · next he => cases he

/-- What every chain request leaves as it is, of the fields that a READ or a WRITE can change. -/
theorem Commanded.kept {u t : State} : Commanded u t →
    t.sel = u.sel ∧ t.thermal = u.thermal ∧ t.churn.ucPending = u.churn.ucPending ∧ t.churn.records = u.churn.records := by
  rintro ⟨_, _, _, _, _, _, _, _, _, _, _, _, _, rfl⟩
  exact ⟨rfl, rfl, rfl, rfl⟩

theorem getLayer_congr {s t : State} (h : t.thermal = s.thermal) (i : Nat) : getLayer t i = getLayer s i := by
  unfold getLayer
  rw [h]

theorem execPeakRead_delivered {p : ChainPort} {f : ChainFrame} {s : State} (hd : Delivered p f s) (hf : f.ftype = 1) :
    execPeakRead p f s = .next (runRequest p f (readBody p f) s) := by
  obtain ⟨_, ha, _, _⟩ := hd
  unfold execPeakRead
  rw [if_pos (by simp [hf, ha])]

/-- A READ that is carried out: the words of its block after the frame's receipt, and the Peak fields that it returns reset
(R4, R247, R306). -/
theorem peakRead_carried {p : ChainPort} {f : ChainFrame} {s : State} {b : Block} (hd : Delivered p f s) (hf : f.ftype = 1)
    (ha : accessStatus s f = (0x00, some b)) :
    ∃ t u, exec (.peakRead p f) s = .next t ∧ Links s u ∧ Answered f 0x00 (objectRead u b f.addr.toNat (requestLength f)) t ∧
      ∀ i < 16, getLayer t i = getLayer (resetPeaks f.addr.toNat (requestLength f) s) i := by
  obtain ⟨u, hl, hr⟩ := runRequest_delivered hd (readBody p f)
  rw [readBody_carried ((accessStatus_links hl f).trans ha)] at hr
  refine ⟨_, u, (execPeakRead_delivered hd hf).trans (congrArg _ hr), hl, answer_answered (by decide), fun i hi => ?_⟩
  have hw := (fetchWindow_thermal u b f.addr.toNat (requestLength f)).trans hl.reports.thermal
  obtain ⟨_, ht, _, _⟩ := (answer_commanded p f 0x00 (objectRead u b f.addr.toNat (requestLength f)) (fromHardware b)
    (resetPeaks f.addr.toNat (requestLength f) (fetchWindow u b f.addr.toNat (requestLength f)).2)).kept
  rw [getLayer_congr ht, getLayer_resetPeaks _ _ hi, getLayer_resetPeaks _ _ hi, getLayer_congr hw]

/-- A WRITE that is carried out is answered, and changes writable fields alone beside what every request touches (R306, R374). -/
theorem writeBody_delivered {p : ChainPort} {f : ChainFrame} {s : State} {b : Block} (hd : Delivered p f s)
    (ha : accessStatus s f = (0x00, some b)) (hb : b ≠ .staging) :
    ∃ t, runRequest p f (writeBody p f) s = t ∧ Answered f 0x00 [] t ∧
      Commanded (withWritable (writeWords f.addr.toNat f.payload s).sel (s.churn.ucPending && !clearsUc f) s) t := by
  obtain ⟨u, hl, hr⟩ := runRequest_delivered hd (writeBody p f)
  rw [writeBody_carried ((accessStatus_links hl f).trans ha) hb, writeWords_eq] at hr
  have hu : u.sel = s.sel ∧ u.churn.ucPending = s.churn.ucPending := by
    obtain ⟨h1, _, h2, _⟩ := hl.commanded.kept
    exact ⟨h1, h2⟩
  rw [writeWords_sel hu.1, hu.2] at hr
  refine ⟨_, hr, answer_answered (by decide), Commanded.trans ?_ (answer_commanded _ _ _ _ _ _)⟩
  obtain ⟨_, _, _, _, _, _, _, _, rfl⟩ := hl
  exact Links.commanded ⟨_, _, _, _, _, _, _, _, rfl⟩

/-- Settles O14: a delivered request reaches its rule in a state that differs in what the link keeps, of which no block but the
chain's shows more than the count of dropped messages. -/
theorem objectAccessesAct : Obligations.ObjectAccessesAct := by
  unfold Obligations.ObjectAccessesAct
  intro p f s hd
  refine ⟨fun b hf ha => ?_, fun b hf ha hb => ?_⟩
  · obtain ⟨t, u, hx, hl, hans, hlay⟩ := peakRead_carried hd hf ha
    refine ⟨t, u, _, hx, hans, hl, rfl, fun hb hc => objectRead_links hl hb hc _ _, fun i hi => ?_⟩
    rw [hlay i hi, getLayer_resetPeaks _ _ hi]
  · obtain ⟨e, he⟩ := accessStatus_block ha
    have hw := windowBank_outside he hb
    obtain ⟨t, hr, hans, hc⟩ := writeBody_delivered hd ha hb
    obtain ⟨hsel, _, huc, hrec⟩ := hc.kept
    obtain ⟨_, hact, _, _⟩ := hd
    refine ⟨fun hn => ⟨t, ?_, hans, hsel, ?_⟩, fun hy => ⟨t, ?_, hans, ?_, hrec⟩⟩
    · show execRegisterWrite p f s = _
      unfold execRegisterWrite
      rw [if_pos (by simp [hf, hact, hn, hw]), hr]
    · rw [hn, Bool.not_false, Bool.and_true] at hc
      rw [hsel]
      exact hc
    · show execUcPendingClear p f s = _
      unfold execUcPendingClear
      rw [if_pos (by simp [hf, hact, hy]), hr]
    · rw [huc]
      simp [withWritable, hy]

end Sys2Proof.Safety

namespace Sys2Proof.Safety
open Sys2Proof.Machine

/-! ## SRAM findings and the counters of a channel that does not exist

`chanCount` keeps counter n of channel c under key 8c + n, and `headCount` the findings of area a under key 544 + a, beyond those of
channel 63 (R216, R219): counter 1 of a channel 68 would share the key of area 1. A state whose relief list names channel 68 brings the
two together: the region entry that a finding reloads has its lease-state record there, and a symbol corrected in that line is counted
under the same key. `reliefChannel` chooses channels below 64 only, so that no copy of a channel leads to such a state; the statement has
no hypothesis that shuts it out. -/

/-- The line that holds region 0's lease-state record when channel 68 is named as the relief of channel 0 (R159, R186). -/
def strayLine : Nat := systemLine 68 (0x38000 + 0x4000)

/-- The flash with one empty section of type 6, the region table, in bank A (R253 to R257). -/
def regionFlash : List Host.Cell :=
  (flashProgram (bankBase .a + 0x0C) (beBytes 4 16)
    (flashProgram (bankBase .a + 0x40) (beBytes 1 6 ++ List.replicate 15 0) State.reset)).flash

/-- POR_N is high, bank A is in force, region 0 has a lease in progress, channel 68 is named as the relief of channel 0, and an error of
one bit stands in the line of region 0's lease-state record there. -/
def strayRelief : State :=
  { State.reset with
    pins := { State.reset.pins with porN := true },
    plans := { State.reset.plans with inForce := some .a },
    flash := regionFlash,
    regions := [(0, { Region.zero with inUse := true, active := true })],
    relief := [(0, 68)],
    dram := { State.reset.dram with upsets := [(strayLine * 72, 1)] } }

/-- The entry of region 0 is found damaged beyond correction (R213). -/
def lostEntry : SramFinding := { area := 1, item := 0, psn := 0, double := true, bothCopies := false }

/-- The findings of area 1 that have been counted after a command. -/
def areaFindings (r : Host.Outcome State Fault Refusal) : Nat :=
  match r with
  | .next t => Map.get 0 (544 + 1) t.ctr.chan
  | .fault _ => 0
  | .refused _ => 0

/-- One finding counts twice: by itself, and by the correction that its reload meets on channel 68. -/
theorem areaFindings_lostEntry : areaFindings (exec (.sramScrub (some lostEntry)) strayRelief) = 2 := by decide +kernel

/-- Refutes O54: its last clause says that an uncorrectable finding outside area 9 adds one to its area's count, in every state. In
`strayRelief`, which names a relief channel 68 that the device does not have, a finding in region 0's entry adds two: the reload reads the
lease-state record on channel 68, and the correction there counts under the same key. -/
theorem not_storedDataIsTended : ¬ Obligations.StoredDataIsTended := by
  unfold Obligations.StoredDataIsTended
  intro h
  obtain ⟨_, _, _, _, _, _, hsram⟩ := h strayRelief
  obtain ⟨_, hdouble⟩ := hsram lostEntry rfl
  obtain ⟨t, ht, hcount, _⟩ := hdouble rfl
  have hone : areaFindings (exec (.sramScrub (some lostEntry)) strayRelief) = 1 := by
    rw [ht]
    exact hcount (by decide)
  rw [areaFindings_lostEntry] at hone
  exact absurd hone (by decide)

end Sys2Proof.Safety

namespace Sys2Proof.Safety
open Sys2Proof.Machine

/-! ## A page word that changes while its request passes

The first clause of O47 takes the page word as it stands before the pass. ORDERING_POINT_PASS first makes the page-word line the newest
of its cache set, and where 8 others of that set are held the oldest of them goes, with the word that the decoder gave under its number
(R141, R208). In a state whose cache holds more than 8 lines of a set, and the decoded word of one line under the number of another, that
word goes during the pass, and the request meets another page word. `touchCache` keeps every set
at 8 lines or fewer, so that no run of the cache leads to such a state; the statement has no hypothesis that shuts it out.

The set of a line is a free value (`Config.pageSet`), so the two lines come from a pigeonhole argument over 6,145 page-word lines of
channel 63. -/

/-! ### What keeps the queues of the memory path -/

theorem raise_path (src : Nat) (k : Byte) (a : Nat) (s : State) : (raise src k a s).path = s.path := by
  obtain ⟨_, _, _, _, h⟩ := raise_messages src k a s
  rw [h]

theorem classCount_path (ch : Nat) (c : Option Nat) (i flag n : Nat) (s : State) : (classCount ch c i flag n s).path = s.path := by
  unfold classCount
  extract_lets
  split
  · rfl
  · split
    · exact raise_path _ _ _ _
    · rfl

theorem binCount_path (ch c bin : Nat) (s : State) : (binCount ch c bin s).path = s.path := by
  unfold binCount
  extract_lets
  split
  · rfl
  · split
    · exact raise_path _ _ _ _
    · rfl

theorem completeReq_path (ch : Nat) (r : LineReq) (s : State) : (completeReq ch r s).path = s.path := by
  unfold completeReq
  dsimp only
  rw [binCount_path, classCount_path]
  rfl

theorem changeOp_path (r : LineReq) (f : QpOp → QpOp) (s : State) : (changeOp r f s).path = s.path := by
  unfold changeOp
  dsimp only
  split <;> rfl

/-! ### A channel with one read waiting -/

/-- A write alone is noted as waiting for its page (R95). -/
theorem noteWaiting_reads {ch : Nat} {s : State} (h : ∀ c, ∀ r ∈ (classQ s ch c).head?, isWrite r.kind = false) :
    noteWaiting ch s = s := by
  have hstep : ∀ l : List Nat, l.foldl (fun (t : State) c =>
      match classQ t ch c with
      | [] => t
      | r :: _ =>
        if !isWrite r.kind || isRetired t ch || pointWaits t ch c r then t
        else match gateWrite ch r t with
          | .blocked => parkOp r t
          | _ => t) s = s := by
    intro l
    induction l with
    | nil => rfl
    | cons c l ih =>
      rw [List.foldl_cons]
      have hc := h c
      cases hq : classQ s ch c with
      | nil => simpa [hq] using ih
      | cons r rest =>
        have hr : isWrite r.kind = false := hc r (by simp [hq])
        simpa [hq, hr] using ih
  exact hstep (upTo 16)

/-- A request that nothing keeps, alone at the heads of its channel and with its page word held: ORDERING_POINT_PASS gives what `passPoint`
answers once the page-word line is the newest of its set (R141, R166). -/
theorem orderingPointPass_only {ch : Fin 64} {n c : Nat} (hn : ch.val = n) {s t : State} {r : LineReq} {rest : List LineReq}
    (hq : classQ s n c = r :: rest) (hnote : noteWaiting n s = s) (hheld : passHeld n s = none)
    (hmove : whenOpen s n (nextMove n s) = none) (hvisit : visitOlder s n = false)
    (horder : headOrder s n = [c]) (hret : isRetired s n = false) (hwait : pointWaits s n c r = false)
    (hpage : pageHit s (r.dma / 4096) = true)
    (hpass : passPoint n c r rest (touchPage (r.dma / 4096) s) = some t) (es path : Errors) :
    exec (.orderingPointPass ch es path) s = .next t := by
  have hword : readPageWord r es path s = (false, touchPage (r.dma / 4096) s) := by
    unfold readPageWord
    rw [if_pos hpage]
  have hhead : tryHead n es path c s = some t := by
    unfold tryHead
    simp only [hq, hret, hwait, hword, hpass, Bool.false_eq_true, if_false]
  have hclient : passClient n es path s = some t := by
    unfold passClient
    simp [horder, hhead]
  show execOrderingPointPass ch es path s = .next t
  unfold execOrderingPointPass passRest
  simp [hn, hnote, hheld, hmove, hvisit, hclient]

/-! ### Page-word lines of channel 63 -/

/-! The fields of a physical line's number (R155). -/

theorem lineRow_physLine {ch b row pos : Nat} (hrow : row < 32768) (hpos : pos < 16) : lineRow (physLine ch b row pos) = row := by
  unfold lineRow physLine
  omega

theorem lineBank_physLine {ch b row pos : Nat} (hb : b < 32) (hrow : row < 32768) (hpos : pos < 16) : lineBank (physLine ch b row pos) = b := by
  unfold lineBank physLine
  omega

theorem linePos_physLine {ch b row pos : Nat} (hpos : pos < 16) : linePos (physLine ch b row pos) = pos := by
  unfold linePos physLine
  omega

/-- A system line lies in the system rows, and its number is that of its place there (R155, R157). -/
theorem systemIndex_systemLine (ch : Nat) {sl : Nat} (h : sl < 262144) :
    isSystemLine (systemLine ch sl) = true ∧ systemIndex (systemLine ch sl) = sl := by
  have hb : sl / 16 % 32 < 32 := Nat.mod_lt _ (by decide)
  have hrow : 32256 + sl / 16 / 32 < 32768 := by omega
  have hpos : sl % 16 < 16 := Nat.mod_lt _ (by decide)
  unfold systemIndex isSystemLine systemLine
  rw [lineRow_physLine hrow hpos, lineBank_physLine hb hrow hpos, linePos_physLine hpos]
  exact ⟨decide_eq_true (Nat.le_add_right _ _), by omega⟩

/-- A plan with one express channel, 63, and class 0 in use. -/
def pointPlan : Plan :=
  { planOf State.reset with
    k := 1,
    classes := [{ inUse := true, pfc := 0, dscp := 0, esc := 0, target := 1000, cap := 1, minRate := 0, gain := 0, step := 0, period := 0 }] }

/-- The j-th page-word line of channel 63 (R159). -/
def wordLine (j : Nat) : Nat := systemLine 63 j

/-- The page whose page word is the first of that line. -/
def wordPage (j : Nat) : Nat := 63 * 0x37200 + 16 * j

theorem wordLine_injective {j m : Nat} (hj : j < 6145) (hm : m < 6145) (h : wordLine j = wordLine m) : j = m := by
  rw [← (systemIndex_systemLine 63 (sl := j) (by omega)).2, ← (systemIndex_systemLine 63 (sl := m) (by omega)).2]
  exact congrArg systemIndex h

theorem pageWordSlot_wordPage {j : Nat} (hj : j < 6145) : pageWordSlot pointPlan (wordPage j) = (63, 16 * j) := by
  have hbase : expressBase pointPlan = 63 * 0x37200000 := rfl
  have hk : pointPlan.k = 1 := rfl
  unfold pageWordSlot steer wordPage
  simp only [hbase, hk, channelBytes]
  rw [if_pos (by omega), if_pos (by omega)]
  refine Prod.ext ?_ ?_ <;> dsimp only <;> omega

/-- What the fill leaves in the first page word of a line: a fresh page (R46). -/
theorem fillByte_wordLine {j i : Nat} (hj : j < 6145) (hi : i < 4) : fillByte (wordLine j * 64 + i) = if i = 0 then 0x40 else 0 := by
  obtain ⟨hsys, hidx⟩ := systemIndex_systemLine 63 (sl := j) (by omega)
  have hline : (wordLine j * 64 + i) / 64 = systemLine 63 j := by
    unfold wordLine
    omega
  have h4 : (wordLine j * 64 + i) % 4 = i := by omega
  unfold fillByte
  simp only [hline, hsys, hidx, h4]
  simp [show j < 0x3720 by omega]

/-! ### The state -/

/-- A READ's line in the first page of a page-word line. -/
def wordRead (j : Nat) : LineReq :=
  { kind := .read, qpn := 0x100, psn := 0, serial := 0, port := 0, prio := 0, dma := wordPage j * 4096, off := 0, len := 64, data := [],
    compare := 0, swapAdd := 0, cls := 0, slot := 0, region := 0, spec := false, enq := 0, target := none }

/-- Channel 63 with one read waiting, on pages as the fill leaves them; the page-word cache holds `cache`, and under the number of line m
zeros as the decoded word of line j. -/
def wordWaits (j m : Nat) (cache : NatSet) : State :=
  setClassQ 63 0 [wordRead j]
    { State.reset with
      plans := { State.reset.plans with plan := some pointPlan },
      pageCache := cache,
      misread := [(wordLine j, wordLine m, List.replicate 64 0)] }

/-- Line j is held, and line m 8 times over. -/
def overfull (j m : Nat) : NatSet := wordLine j :: List.replicate 8 (wordLine m)

theorem wordRead_page (j : Nat) : (wordRead j).dma / 4096 = wordPage j := Nat.mul_div_cancel _ (by decide)

theorem classQ_wordWaits (j m c : Nat) (l : NatSet) : classQ (wordWaits j m l) 63 c = if c = 0 then [wordRead j] else [] := by
  by_cases h : c = 0
  · subst h
    rfl
  · rw [if_neg h]
    exact classQ_set_other _ (by omega) _

theorem misreadOf_wordWaits (j m : Nat) (l : NatSet) :
    misreadOf (wordWaits j m l) (wordLine j) = if wordLine m ∈ l then some (List.replicate 64 0) else none := by
  have hl : (wordWaits j m l).misread = [(wordLine j, wordLine m, List.replicate 64 0)] := rfl
  have hp : (wordWaits j m l).pageCache = l := rfl
  have hm : (wordWaits j m l).metaCache = [] := rfl
  unfold misreadOf
  by_cases h : wordLine m ∈ l <;> simp [hl, hp, hm, h]

/-- What stays of the page-word cache when line j has been touched: as both lines fall in one set, the 8 others were one too many. -/
theorem touchCache_overfull {j m : Nat} (hset : Config.pageSet (wordLine m) % 6144 = Config.pageSet (wordLine j) % 6144)
    (hne : wordLine m ≠ wordLine j) : touchCache 8 (fun x => Config.pageSet x % 6144) (wordLine j) (overfull j m) = [wordLine j] := by
  have hrest : (overfull j m).filter (· ≠ wordLine j) = List.replicate 8 (wordLine m) := by
    simp [overfull, hne]
  unfold touchCache
  simp only [hrest]
  simp [hset]

section
variable {j : Nat} (hj : j < 6145) (m : Nat) (l : NatSet)
include hj

theorem pageWordSlot_wordWaits : pageWordSlot (planOf (wordWaits j m l)) (wordPage j) = (63, 16 * j) := pageWordSlot_wordPage hj

theorem pageWordHome_wordWaits : pageWordHome (wordWaits j m l) (wordPage j) = (wordLine j, 0) := by
  unfold pageWordHome
  simp only [pageWordSlot_wordWaits hj, Nat.mul_div_cancel_left j (show 0 < 16 by decide), Nat.mul_mod_right]
  rfl

theorem pageHit_overfull : pageHit (wordWaits j m (overfull j m)) (wordPage j) = true := by
  unfold pageHit
  simp only [pageWordSlot_wordWaits hj, Nat.mul_div_cancel_left j (show 0 < 16 by decide)]
  exact List.contains_iff_mem.mpr List.mem_cons_self

/-- Line j becomes the newest of its set, and line m goes. -/
theorem touchPage_overfull (hset : Config.pageSet (wordLine m) % 6144 = Config.pageSet (wordLine j) % 6144) (hne : wordLine m ≠ wordLine j) :
    touchPage (wordPage j) (wordWaits j m (overfull j m)) = wordWaits j m [wordLine j] := by
  have hkey : systemLine 63 j = wordLine j := rfl
  have hc : (wordWaits j m (overfull j m)).pageCache = overfull j m := rfl
  have hhit : (overfull j m).contains (wordLine j) = true := List.contains_iff_mem.mpr List.mem_cons_self
  unfold touchPage freshHold
  simp only [pageWordSlot_wordWaits hj, Nat.mul_div_cancel_left j (show 0 < 16 by decide), hkey, hc, hhit, touchCache_overfull hset hne, if_true]
  rfl

/-- While line m is held, the page is not fresh: its word is read from the zeros under that number. -/
theorem pageWord_misread (h : wordLine m ∈ l) : pageWord (wordWaits j m l) (wordPage j) = 0 := by
  unfold pageWord counterBytes
  simp only [pageWordHome_wordWaits hj, misreadOf_wordWaits, if_pos h]
  rfl

/-- With line m gone the page reads as the fill has left it: fresh (R46). -/
theorem pageWord_filled (h : wordLine m ∉ l) : pageWord (wordWaits j m l) (wordPage j) = 0x40000000 := by
  have hbytes : lineBytes (wordWaits j m l) (wordLine j) 0 4 = [0x40, 0, 0, 0] := by
    have hbyte (i : Nat) (hi : i < 4) := fillByte_wordLine hj hi
    show [fillByte (wordLine j * 64 + 0), fillByte (wordLine j * 64 + 1), fillByte (wordLine j * 64 + 2), fillByte (wordLine j * 64 + 3)] = _
    rw [hbyte 0 (by decide), hbyte 1 (by decide), hbyte 2 (by decide), hbyte 3 (by decide)]
    rfl
  unfold pageWord counterBytes
  simp only [pageWordHome_wordWaits hj, misreadOf_wordWaits, if_neg h, hbytes]
  rfl

end

/-- A read of a fresh page takes no bank-queue entry: it is answered with zeros (R139). -/
theorem passPoint_fresh {ch c : Nat} {r : LineReq} {rest : List LineReq} {s : State} (hread : r.kind = .read)
    (hfresh : pwFresh (pageWord s (r.dma / 4096)) = true) (hback : s.path.backlog = []) :
    ∃ t, passPoint ch c r rest s = some t ∧ ∀ b, bankQ t ch b = bankQ s ch b := by
  have hpath : (outstand ch c (popClass ch c rest s)).path.bankQ = s.path.bankQ := by
    unfold outstand popClass drainBacklog
    simp [hback, drainList]
  refine ⟨completeReq ch r (stageLine r (List.replicate 64 0) .pass (outstand ch c (popClass ch c rest s))), ?_, fun b => ?_⟩
  · unfold passPoint
    simp [hread, hfresh]
  · unfold bankQ
    rw [completeReq_path, stageLine, changeOp_path, hpath]

/-! ### The refutation -/

/-- Of 6,145 page-word lines two fall in one of the 6,144 sets (R141). -/
theorem exists_same_set : ∃ j m : Nat, j < 6145 ∧ wordLine m ≠ wordLine j ∧
    Config.pageSet (wordLine m) % 6144 = Config.pageSet (wordLine j) % 6144 := by
  obtain ⟨j, m, hne, hset⟩ := Fintype.exists_ne_map_eq_of_card_lt
    (fun i : Fin 6145 => (⟨Config.pageSet (wordLine i) % 6144, Nat.mod_lt _ (by decide)⟩ : Fin 6144)) (by simp)
  exact ⟨j, m, j.isLt, fun h => hne (Fin.ext (wordLine_injective m.isLt j.isLt h).symm), (congrArg Fin.val hset).symm⟩

theorem noteWaiting_wordWaits (j m : Nat) (l : NatSet) : noteWaiting 63 (wordWaits j m l) = wordWaits j m l := by
  refine noteWaiting_reads fun c r hr => ?_
  rw [classQ_wordWaits] at hr
  split at hr
  · obtain rfl : wordRead j = r := by simpa using hr
    rfl
  · simp at hr

theorem headOrder_wordWaits (j m : Nat) (l : NatSet) : headOrder (wordWaits j m l) 63 = [0] := by
  unfold headOrder
  simp only [classQ_wordWaits]
  rfl

theorem pointWaits_wordWaits (j m : Nat) (l : NatSet) : pointWaits (wordWaits j m l) 63 0 (wordRead j) = false := by
  have hclass : heldByClass (wordWaits j m l) 63 0 (wordRead j) = false := by
    unfold heldByClass
    simp only [classQ_wordWaits]
    rfl
  unfold pointWaits
  rw [hclass]
  rfl

theorem passHeld_wordWaits (j m : Nat) (l : NatSet) : passHeld 63 (wordWaits j m l) = none := rfl

theorem nextMove_wordWaits (j m : Nat) (l : NatSet) : whenOpen (wordWaits j m l) 63 (nextMove 63 (wordWaits j m l)) = none := rfl

theorem visitOlder_wordWaits (j m : Nat) (l : NatSet) : visitOlder (wordWaits j m l) 63 = false := rfl

theorem isRetired_wordWaits (j m : Nat) (l : NatSet) : isRetired (wordWaits j m l) 63 = false :=
  show (0 : BitVec 64).getLsbD 63 = false by decide

theorem bankQ_wordWaits (j m b : Nat) (l : NatSet) : bankQ (wordWaits j m l) 63 b = [] := rfl

theorem bankRoom_wordWaits (j m b : Nat) (l : NatSet) : bankRoom (wordWaits j m l) 63 b 0 = true := rfl

/-- The pass drops line m, and the read leaves without a bank-queue entry. -/
theorem wordRead_answered {j m : Nat} (hj : j < 6145) (hne : wordLine m ≠ wordLine j)
    (hset : Config.pageSet (wordLine m) % 6144 = Config.pageSet (wordLine j) % 6144) :
    ∃ t, exec (.orderingPointPass 63 [] []) (wordWaits j m (overfull j m)) = .next t ∧ ∀ b, bankQ t 63 b = [] := by
  have hfresh : pwFresh (pageWord (wordWaits j m [wordLine j]) ((wordRead j).dma / 4096)) = true := by
    rw [wordRead_page, pageWord_filled hj m _ (by simpa using hne)]
    decide
  obtain ⟨t, hpass, hbank⟩ := passPoint_fresh (ch := 63) (c := 0) (rest := []) (r := wordRead j) rfl hfresh rfl
  refine ⟨t, orderingPointPass_only (n := 63) rfl (classQ_wordWaits j m 0 (overfull j m)) (noteWaiting_wordWaits j m (overfull j m))
    (passHeld_wordWaits j m (overfull j m)) (nextMove_wordWaits j m (overfull j m)) (visitOlder_wordWaits j m (overfull j m))
    (headOrder_wordWaits j m (overfull j m)) (isRetired_wordWaits j m (overfull j m)) (pointWaits_wordWaits j m (overfull j m))
    ?_ ?_ [] [], fun b => (hbank b).trans (bankQ_wordWaits j m b _)⟩
  · rw [wordRead_page]
    exact pageHit_overfull hj m
  · rw [wordRead_page, touchPage_overfull hj m hset hne]
    exact hpass

/-- Refutes O47: its first clause takes the page word as it stands before the pass, in every state. In `wordWaits j m (overfull j m)`, with
two lines j and m of one set, that word is not fresh and the clause claims a bank-queue entry for the read; the pass touches line j, which
drops line m and the word held under its number, so that the page reads as fresh and the read is answered with zeros. -/
theorem not_requestsPassTheirLines : ¬ Obligations.RequestsPassTheirLines := by
  unfold Obligations.RequestsPassTheirLines
  intro h
  obtain ⟨j, m, hj, hne, hset⟩ := exists_same_set
  obtain ⟨t, hexec, hbank⟩ := wordRead_answered hj hne hset
  have hword : pwFresh (pageWord (wordWaits j m (overfull j m)) ((wordRead j).dma / 4096)) = false := by
    rw [wordRead_page, pageWord_misread hj m _ (by simp [overfull])]
    decide
  have hother : ∀ (c : Nat) (q : LineReq), c ≠ 0 → (classQ (wordWaits j m (overfull j m)) 63 c).head? = some q →
      headBefore (wordRead j) q = true := by
    intro c q hc hq
    rw [classQ_wordWaits, if_neg hc] at hq
    cases hq
  obtain ⟨hclient, _⟩ := h 63 (wordWaits j m (overfull j m))
  have hread := hclient (wordWaits j m (overfull j m)) 0 [] [] (wordRead j) []
  simp only [show ((63 : Fin 64) : Nat) = 63 from rfl, show ((0 : Fin 16) : Nat) = 0 from rfl] at hread
  obtain ⟨_, _, htake⟩ := hread _ _
    (noteWaiting_wordWaits j m (overfull j m)).symm (classQ_wordWaits j m 0 (overfull j m)) (passHeld_wordWaits j m (overfull j m))
    (nextMove_wordWaits j m (overfull j m)) (by rw [visitOlder_wordWaits j m (overfull j m)]; rfl) hother
    (isRetired_wordWaits j m (overfull j m)) (pointWaits_wordWaits j m (overfull j m))
    (by rw [wordRead_page]; exact pageHit_overfull hj m) rfl rfl
  obtain ⟨u, e, hu, _, _, htaken, _⟩ := htake hword (bankRoom_wordWaits j m _ (overfull j m)) (.inl rfl)
  obtain rfl : t = u := by
    injection hexec.symm.trans hu
  exact absurd (htaken.symm.trans (hbank _)) (List.append_ne_nil_of_right_ne_nil _ (List.cons_ne_nil _ _))

end Sys2Proof.Safety

namespace Sys2Proof.Safety
open Sys2Proof.Machine

/-! ## Supplies, clocks and cold resets -/

/-! ### Cold resets (R34, R44, R57, R347) -/

theorem porFalls_unlocked {s : State} (h : majority s.tank.lockLatch = false) :
    porFalls s = coldReset { s with pins := { s.pins with porN := false, powerFail := false, refclkHold := false, pllLocked := false } } := by
  unfold porFalls locked
  simp [h]

theorem porFalls_locked {s : State} (h : majority s.tank.lockLatch = true) :
    porFalls s = { s with pins := { s.pins with porN := false } } := by
  unfold porFalls locked
  simp [h]

theorem porNFall_seen {s : State} {us : Nat} (hp : s.pins.porN = true) (hus : 10 ≤ us) :
    exec (.porNFall us) s = .next (porFalls s) := by
  show execPorNFall us s = _
  unfold execPorNFall
  rw [if_neg (by simp [hp]; omega), if_neg (by omega)]

theorem porNFall_ignored {s : State} {us : Nat} (hus : us ≤ 1) : exec (.porNFall us) s = .next s := by
  show execPorNFall us s = _
  unfold execPorNFall
  rw [if_pos (by simp [hus])]

/-- Settles O33: a low that is seen is a cold reset unless the lock latch is set, and the loss of VDDK is one always. -/
theorem coldResetsKeepOtpAndFlash : Obligations.ColdResetsKeepOtpAndFlash := by
  unfold Obligations.ColdResetsKeepOtpAndFlash
  intro s
  refine ⟨fun us hp hus hl => ?_, fun us hp hus hl => ?_, fun us hus => porNFall_ignored hus, ?_⟩
  · rw [porNFall_seen hp hus, porFalls_unlocked hl]
    exact ⟨_, rfl, rfl, rfl, rfl, rfl, rfl, rfl, rfl, rfl⟩
  · rw [porNFall_seen hp hus, porFalls_locked hl]
    exact ⟨_, rfl, rfl, rfl, rfl⟩
  · exact ⟨_, rfl, rfl, rfl, rfl, rfl, rfl, rfl, rfl, rfl⟩

/-! ### The cold start (R27, R44) -/

theorem updateSeed_instantiated (x : BitVec 384) (d : Drbg) : (updateSeed x d).instantiated = d.instantiated := by
  unfold updateSeed
  rfl

theorem reseed_instantiated (s : State) : (reseed s).drbg.instantiated = s.drbg.instantiated := by
  simp only [reseed, drawn, updateSeed_instantiated]

theorem generate_instantiated (n : Nat) (s : State) : (generate n s).2.drbg.instantiated = s.drbg.instantiated := by
  simp only [generate, updateSeed_instantiated]
  split
  · exact reseed_instantiated s
  · rfl

/-- A start instantiates the generator (R132). -/
theorem instantiate_frame (s : State) : ∃ d n, instantiate s = { s with drbg := d, free := n } ∧ d.instantiated = true := ⟨_, _, rfl, rfl⟩

theorem drawChallenge_instantiated (s : State) : (drawChallenge s).drbg.instantiated = s.drbg.instantiated := generate_instantiated 128 s

/-- The QPN pointer is drawn from the generator, and nothing else differs (R87). -/
theorem drawPointer_frame (s : State) :
    ∃ d n q, drawPointer s = { s with drbg := d, free := n, qpnPtr := q } ∧ d.instantiated = s.drbg.instantiated := by
  obtain ⟨d, n, h⟩ := generate_frame 18 s
  have hd := generate_instantiated 18 s
  rw [h] at hd
  refine ⟨d, n, BitVec.ofNat 24 (0x100 + (generate 18 s).1.toNat), ?_, hd⟩
  unfold drawPointer
  dsimp only
  rw [h]

/-- What a start draws touches the generator, the challenge and the QPN pointer alone, and leaves the generator instantiated (R87, R132). -/
theorem startDraws_frame (s : State) :
    ∃ d n c q, startDraws s = { s with drbg := d, free := n, chain := { s.chain with challenge := c }, qpnPtr := q } ∧ d.instantiated = true := by
  unfold startDraws
  generalize hu : ({ s with drbg := { s.drbg with lastGoodUs := s.tank.clockUs } } : State) = u
  obtain ⟨_, _, hinst, hd⟩ := instantiate_frame u
  obtain ⟨_, _, c, hchal⟩ := drawChallenge_frame (instantiate u)
  have hd' := drawChallenge_instantiated (instantiate u)
  obtain ⟨d, n, q, hptr, hd''⟩ := drawPointer_frame (drawChallenge (instantiate u))
  refine ⟨d, n, c, q, ?_, ?_⟩
  · rw [hptr, hchal, hinst, ← hu]
  · rw [hd'', hd', hinst]
    exact hd

/-- The device at step 1 of a cold start, before it draws: reset but for the messages that the monitor has raised (R44). -/
def risen (head : Bool) (s : State) : State :=
  { coldReset { s with pins := { s.pins with porN := true, head := head, nvReleaseUs := s.tank.clockUs + 100 } } with
    churn := { Churn.reset with inbox := s.churn.inbox, stalled := s.churn.stalled } }

theorem startWord_risen (head : Bool) (s : State) : startWord (risen head s) = 0x01000000 := by
  simp [startWord, risen, coldReset, Tank.reset, bit]

theorem porNRise_starts {s : State} (head : Bool) (hp : s.pins.porN = false) (hph : s.tank.phase ≠ 0xF1) :
    exec (.porNRise head) s = .next (porRises head s) := by
  show execPorNRise head s = _
  unfold execPorNRise
  rw [if_neg (by simp [hp]), if_neg hph]

theorem porRises_unlocked {s : State} (head : Bool) (hl : majority s.tank.lockLatch = false) :
    porRises head s = startDraws (risen head s) := by
  unfold porRises locked
  rw [if_neg (by simp [hl])]
  rfl

theorem islandPllLock_locks {s : State} (hp : s.pins.porN = true) (hpll : s.pins.pllLocked = false) (href : s.pins.refclkOk = true) :
    exec .islandPllLock s = .next
      { s with pins := { s.pins with pllLocked := true }, tank := { s.tank with coreRunning := true, heartbeatUs := 0 } } := by
  show execIslandPllLock s = _
  unfold execIslandPllLock
  rw [if_neg (by simp [hp, hpll, href])]

/-- Settles O26: the start is a cold reset that keeps the monitor's messages, and what it draws touches none of the fields named. -/
theorem coldStartBegins : Obligations.ColdStartBegins := by
  unfold Obligations.ColdStartBegins
  intro s
  refine ⟨fun head hp hph hl => ?_, fun hp hpll href => islandPllLock_locks hp hpll href⟩
  obtain ⟨d, n, c, q, hdraws, hd⟩ := startDraws_frame (risen head s)
  rw [porNRise_starts head hp hph, porRises_unlocked head hl, hdraws]
  exact ⟨_, rfl, startWord_risen head s, rfl, rfl, rfl, rfl, rfl, rfl, rfl, rfl, rfl, rfl, rfl, hd, rfl, rfl⟩

/-! ### Fault messages that wait (R335) -/

/-- Every UC or FT message that waited for the Churn still does, in the buffers where it was there (R335). -/
def Waits (u t : State) : Prop :=
  ∀ m : FaultMsg, m.cls ≠ 0 → (m ∈ u.churn.inbox → m ∈ t.churn.inbox) ∧ (m ∈ u.churn.stalled → m ∈ t.churn.stalled)

theorem Waits.of_eq {u t : State} (hi : t.churn.inbox = u.churn.inbox) (hs : t.churn.stalled = u.churn.stalled) : Waits u t := by
  intro m _
  rw [hi, hs]
  exact ⟨id, id⟩

theorem Waits.trans {a b c : State} (hab : Waits a b) (hbc : Waits b c) : Waits a c := fun m hm =>
  ⟨(hbc m hm).1 ∘ (hab m hm).1, (hbc m hm).2 ∘ (hab m hm).2⟩

theorem mem_dropNewestCe {src : BitVec 12} {l : List FaultMsg} {m : FaultMsg} (hm : m.cls ≠ 0) (h : m ∈ l) : m ∈ dropNewestCe src l := by
  unfold dropNewestCe
  rw [List.mem_reverse, List.mem_eraseP_of_neg (by simpa using fun _ => hm)]
  exact List.mem_reverse.mpr h

theorem pushMsg_waits (x : FaultMsg) (s : State) : Waits s (pushMsg x s) := by
  unfold pushMsg
  dsimp only
  intro m hm
  split
  · exact ⟨List.mem_append_left _, id⟩
  · split
    · exact ⟨id, id⟩
    · split
      · exact ⟨fun h => List.mem_append_left _ (mem_dropNewestCe hm h), id⟩
      · exact ⟨id, List.mem_append_left _⟩

/-- A UC or FT message stands in its source's buffer, or its source stalls with it (R335). -/
theorem pushMsg_mem {m : FaultMsg} (hm : m.cls ≠ 0) (s : State) : m ∈ (pushMsg m s).churn.inbox ∨ m ∈ (pushMsg m s).churn.stalled := by
  unfold pushMsg
  dsimp only
  rw [if_neg hm]
  split
  · exact .inl (by simp)
  · split
    · exact .inl (by simp)
    · exact .inr (by simp)

/-- A UC or FT message that is raised waits on, in the buffer if there was room (R335). -/
theorem pushMsg_stays {m : FaultMsg} {s t : State} (hm : m.cls ≠ 0) (h : Waits (pushMsg m s) t) :
    (m ∈ t.churn.inbox ∨ m ∈ t.churn.stalled) ∧
      ((s.churn.inbox.filter (fun x => x.source = m.source)).length < 8 → m ∈ t.churn.inbox) := by
  obtain ⟨hin, hst⟩ := h m hm
  refine ⟨(pushMsg_mem hm s).imp hin hst, fun hroom => hin ?_⟩
  rw [pushMsg_room hroom]
  simp

/-! ### The monitor's messages (R36, R37) -/

/-- The message that `raise` pushes (R331, R337). -/
def raisedMsg (src : Nat) (kind : Byte) (addr : Nat) : FaultMsg :=
  { source := BitVec.ofNat 12 src, kind := kind, cls := kindClass kind, severity := kindSeverity kind, addr := BitVec.ofNat 36 addr,
    ownEntry := kind = 0x31 || kind = 0x32 || kind = 0x34, detail := 0 }

theorem raise_eq (src : Nat) (kind : Byte) (addr : Nat) (s : State) : raise src kind addr s = pushMsg (raisedMsg src kind addr) s := rfl

/-! The monitor's kinds, from source 0x0FF (R37). -/

theorem raisedMsg_window (a : Nat) : raisedMsg 0x0FF 0x50 a =
    { source := 0x0FF, kind := 0x50, cls := 1, severity := 0, addr := BitVec.ofNat 36 a, ownEntry := false, detail := 0 } := rfl

theorem raisedMsg_sequence (a : Nat) : raisedMsg 0x0FF 0x51 a =
    { source := 0x0FF, kind := 0x51, cls := 2, severity := 2, addr := BitVec.ofNat 36 a, ownEntry := false, detail := 0 } := rfl

theorem raisedMsg_refclk (a : Nat) : raisedMsg 0x0FF 0x52 a =
    { source := 0x0FF, kind := 0x52, cls := 2, severity := 1, addr := BitVec.ofNat 36 a, ownEntry := false, detail := 0 } := rfl

theorem monitorAddr_noLayer (e r : Nat) : monitorAddr e 0 r = e * 256 + r := by
  unfold monitorAddr
  omega

/-- The monitor sees what lasts 20 ns or more while it has its own supply (R36). -/
theorem supplyOutOfWindow_seen {s : State} {ns : Nat} (hns : 20 ≤ ns) (hk : railBit s.pins.up .vddk = true) :
    (ns < 20 || !railBit s.pins.up .vddk) = false := by
  simp [hk]
  omega

/-- The message of a sequence violation (R37). -/
def violationMsg (e : SeqEvent) (r : Rail) : FaultMsg := raisedMsg 0x0FF 0x51 (monitorAddr (seqCode e) 0 (railCode r))

/-- A violation is its message, and before POR_N rises the lock latch (R36, R339). -/
theorem violate_eq (e : SeqEvent) (r : Rail) (s : State) :
    violate e r s = { pushMsg (violationMsg e r) s with tank := if s.pins.porN then s.tank else { s.tank with lockLatch := 7 } } := by
  obtain ⟨i, st, cd, lr, h⟩ := pushMsg_messages (violationMsg e r) s
  unfold violate
  rw [raise_eq, ← violationMsg, h]
  dsimp only
  split <;> rfl

theorem supplySequenceViolation_violates {e : SeqEvent} {r : Rail} {s : State} (h : eventHolds e r s = true) :
    exec (.supplySequenceViolation e r) s = .next (violate e r s) := by
  show execSupplySequenceViolation e r s = _
  unfold execSupplySequenceViolation
  rw [if_pos h]

/-- Settles O34: each report is one message pushed on the state as it was, but for the latch that a violation sets and the hold of REFCLK. -/
theorem monitorMessagesCarryTheirCodes : Obligations.MonitorMessagesCarryTheirCodes := by
  unfold Obligations.MonitorMessagesCarryTheirCodes
  intro s
  refine ⟨fun r high ns hns hok hk => ?_, fun r l high ns hns hr hh hk => ?_, fun e r he => ?_, fun hp href => ?_⟩
  · show execSupplyOutOfWindow r none high ns s = _
    unfold execSupplyOutOfWindow
    simp only [supplyOutOfWindow_seen hns hk, hok, raise_eq, raisedMsg_window, monitorAddr_noLayer, if_true, Bool.false_eq_true, if_false]
  · show execSupplyOutOfWindow r (some l) high ns s = _
    unfold execSupplyOutOfWindow
    simp only [supplyOutOfWindow_seen hns hk, raise_eq, raisedMsg_window, monitorAddr, Bool.false_eq_true, if_false]
    rw [if_pos (by simpa using ⟨hr, hh⟩)]
  · rw [supplySequenceViolation_violates he, violate_eq]
    refine ⟨_, rfl, rfl, ?_, fun hroom => ?_⟩
    · obtain ⟨i, st, cd, lr, h⟩ := pushMsg_messages (violationMsg e r) s
      rw [h]
      exact ⟨i, st, cd, lr, rfl⟩
    · rw [pushMsg_room hroom, violationMsg, raisedMsg_sequence, monitorAddr_noLayer]
  · show execRefclkOffFrequency s = _
    unfold execRefclkOffFrequency
    rw [if_neg (by simp [hp, href]), raise_eq, raisedMsg_refclk]
    rfl

/-! ### REFCLK (R36, R38) -/

theorem setCPort_getCPort (p : ChainPort) (s : State) : setCPort p (getCPort s p) s = s := by cases p <;> rfl

theorem setCPort_setCPort (p : ChainPort) (v w : CPort) (s : State) : setCPort p w (setCPort p v s) = setCPort p w s := by cases p <;> rfl

/-- The break of a hop changes its port's record and the messages that wait (R299). -/
theorem breakHop_frame (p : ChainPort) (n : Nat) (s : State) :
    ∃ v k, breakHop p n s = setCPort p v { s with churn := k } ∧ Waits s { s with churn := k } := by
  unfold breakHop
  dsimp only
  split
  · exact ⟨_, _, (setCPort_getCPort p s).symm, .of_eq rfl rfl⟩
  · generalize { getCPort s p with broken := true } = v
    have hwait := pushMsg_waits (raisedMsg (chainSource p) 0x15 (n * 256 + chainIndex p)) (setCPort p v s)
    obtain ⟨_, _, _, _, h⟩ := pushMsg_messages (raisedMsg (chainSource p) 0x15 (n * 256 + chainIndex p)) (setCPort p v s)
    rw [raise_eq, h]
    rw [h] at hwait
    exact ⟨v, _, by cases p <;> rfl, by cases p <;> exact hwait⟩

/-- A port without its clock is down; nothing else changes but the messages that wait (R36). -/
theorem stopChainPort_frame (p : ChainPort) (s : State) :
    ∃ v k, stopChainPort p s = setCPort p v { s with churn := k } ∧ v.up = false ∧ Waits s { s with churn := k } := by
  unfold stopChainPort
  split
  · next h => exact ⟨_, _, (setCPort_getCPort p s).symm, by simpa using h, .of_eq rfl rfl⟩
  · obtain ⟨v, k, hb, hwait⟩ := breakHop_frame p 0 s
    dsimp only
    rw [hb, setCPort_setCPort]
    exact ⟨_, k, rfl, rfl, hwait⟩

/-- Both chain ports without their clock (R36). -/
theorem stopChainPorts_frame (s : State) : ∃ v w k,
    stopChainPort .chd (stopChainPort .chu s) = { s with chain := { s.chain with chu := v, chd := w }, churn := k } ∧
      v.up = false ∧ w.up = false ∧ Waits s { s with churn := k } := by
  obtain ⟨v, k, hchu, hv, hwait⟩ := stopChainPort_frame .chu s
  obtain ⟨w, l, hchd, hw, hwait'⟩ := stopChainPort_frame .chd (stopChainPort .chu s)
  rw [hchd]
  rw [hchu] at hwait' ⊢
  exact ⟨v, w, l, rfl, hv, hw, hwait.trans hwait'⟩

theorem refclkStopped_stops {s : State} (hp : s.pins.porN = true) (href : s.pins.refclkOk = true) :
    exec .refclkStopped s = .next (stopChainPort .chd (stopChainPort .chu (pushMsg (raisedMsg 0x0FF 0x52 (monitorAddr 6 0 0xC))
      { s with pins := { s.pins with refclkOk := false, refclkHold := true, pllLocked := false },
               tank := { s.tank with unsync := true, coreRunning := false } }))) := by
  show execRefclkStopped s = _
  unfold execRefclkStopped
  rw [if_neg (by simp [hp]), if_neg (by simp [href])]
  rfl

theorem refclkRestored_locks {s : State} (hp : s.pins.porN = true) (hh : s.pins.refclkHold = true) (hw : s.pins.wrstUntil ≤ s.tank.clockUs) :
    exec .refclkRestored s = .next { s with
      pins := { s.pins with refclkOk := true, refclkHold := false, pllLocked := true },
      tank := { s.tank with coreRunning := s.tank.coreRunning || !s.pins.refclkOk,
                            heartbeatUs := if !s.pins.refclkOk then 0 else s.tank.heartbeatUs } } := by
  show execRefclkRestored s = _
  unfold execRefclkRestored
  rw [if_neg (by simp [hh]), if_neg (by simp [hp, hh])]
  dsimp only
  rw [if_neg (by simp; omega)]

/-- Settles O35: the message is raised first, and the chain ports that then go down displace no message of its class. -/
theorem refclkStopsAndComesBack : Obligations.RefclkStopsAndComesBack := by
  unfold Obligations.RefclkStopsAndComesBack
  intro s hp
  refine ⟨fun href => ?_, fun hh hw => ⟨_, refclkRestored_locks hp hh hw, rfl, rfl, rfl, rfl, rfl⟩⟩
  rw [refclkStopped_stops hp href]
  generalize hu : ({ s with pins := { s.pins with refclkOk := false, refclkHold := true, pllLocked := false },
                            tank := { s.tank with unsync := true, coreRunning := false } } : State) = u
  obtain ⟨v, w, k, hdown, hv, hw, hwait⟩ := stopChainPorts_frame (pushMsg (raisedMsg 0x0FF 0x52 (monitorAddr 6 0 0xC)) u)
  have hstays := pushMsg_stays (by decide) hwait
  obtain ⟨_, _, _, _, hpush⟩ := pushMsg_messages (raisedMsg 0x0FF 0x52 (monitorAddr 6 0 0xC)) u
  rw [hdown, hpush]
  subst hu
  refine ⟨_, rfl, rfl, rfl, hv, hw, rfl, rfl, rfl, fun m hm => ?_⟩
  obtain rfl : m = raisedMsg 0x0FF 0x52 (monitorAddr 6 0 0xC) := hm.trans (raisedMsg_refclk _).symm
  exact hstays

/-! ### Rails (R31, R36) -/

theorem getLsbD_setBit8 (b : Byte) (n : Fin 8) : (setBit8 b n.val).getLsbD n.val = true := by
  simp [setBit8]

theorem getLsbD_clearBit8 (b : Byte) (n : Nat) : (clearBit8 b n).getLsbD n = false := by
  simp [clearBit8]

theorem railCode_le (r : Rail) : railCode r - 1 < 8 := by cases r <;> decide

theorem railBit_setBit8 (b : Byte) (r : Rail) : railBit (setBit8 b (railCode r - 1)) r = true := getLsbD_setBit8 b ⟨_, railCode_le r⟩

/-- What a violation can change: the messages that wait, and the lock latch, which it sets or leaves (R36). -/
def Violates (u t : State) : Prop :=
  ∃ c l, t = { u with churn := c, tank := { u.tank with lockLatch := l } } ∧ (u.tank.lockLatch = 7 → l = 7)

theorem Violates.refl (s : State) : Violates s s := ⟨_, _, rfl, id⟩

theorem Violates.trans {a b c : State} : Violates a b → Violates b c → Violates a c := by
  rintro ⟨_, _, rfl, hab⟩ ⟨_, _, rfl, hbc⟩
  exact ⟨_, _, rfl, hbc ∘ hab⟩

theorem violate_violates (e : SeqEvent) (r : Rail) (s : State) : Violates s (violate e r s) := by
  obtain ⟨_, _, _, _, h⟩ := pushMsg_messages (violationMsg e r) s
  rw [violate_eq, h]
  split
  · exact ⟨_, _, rfl, id⟩
  · exact ⟨_, _, rfl, fun _ => rfl⟩

theorem violate_latches (e : SeqEvent) (r : Rail) {s : State} (hp : s.pins.porN = false) : (violate e r s).tank.lockLatch = 7 := by
  rw [violate_eq]
  simp [hp]

theorem forEach_violate_violates (e : SeqEvent) (l : List Rail) (s : State) : Violates s (forEach l (violate e) s) := by
  unfold forEach
  induction l generalizing s with
  | nil => exact .refl s
  | cons r l ih => exact (violate_violates e r s).trans (ih _)

/-- A rail that starts is noted, with a violation at most (R31, R36). -/
theorem railStarts_violates (r : Rail) (s : State) :
    Violates { s with pins := { s.pins with started := setBit8 s.pins.started (railCode r - 1) } } (railStarts r s) := by
  unfold railStarts
  dsimp only
  split
  · exact .refl _
  · exact violate_violates _ _ _

theorem railStarts_latches {r : Rail} {s : State} (hk : railBit s.pins.up .vddk = true) (hs : railBit s.pins.started r = false)
    (he : earlierUp s.pins.up r = false) (hp : s.pins.porN = false) : (railStarts r s).tank.lockLatch = 7 := by
  unfold railStarts
  dsimp only
  rw [if_neg (by simp [hk, hs, he])]
  exact violate_latches _ _ hp

/-- A rail that comes up is noted, with violations at most (R31, R36). -/
theorem railFull_violates (r : Rail) (s : State) :
    ∃ up at', Violates { s with pins := { s.pins with up := up, coreUpAt := at' } } (railFull r s) ∧ railBit up r = true := by
  unfold railFull
  split
  · next h => exact ⟨_, _, .refl _, h⟩
  · have h := railBit_setBit8 s.pins.up r
    dsimp only
    split
    · exact ⟨_, _, forEach_violate_violates _ _ _, h⟩
    · split
      · split
        · exact ⟨_, _, .refl _, h⟩
        · split
          · exact ⟨_, _, violate_violates _ _ _, h⟩
          · exact ⟨_, _, .refl _, h⟩
      · exact ⟨_, _, .refl _, h⟩

/-- RAIL_UP: the rail has started, and is up where it reaches 90 % of nominal (R31, R36). -/
theorem railUp_rises (r : Rail) (full : Bool) (s : State) :
    ∃ t, exec (.railUp r full) s = .next t ∧ railBit t.pins.started r = true ∧ (full = true → railBit t.pins.up r = true) ∧ t.dram = s.dram ∧
      ((railStarts r s).tank.lockLatch = 7 → t.tank.lockLatch = 7) := by
  have hstarted := railBit_setBit8 s.pins.started r
  obtain ⟨_, _, hs, _⟩ := railStarts_violates r s
  cases full with
  | false =>
    refine ⟨railStarts r s, rfl, ?_, nofun, ?_, id⟩
    · rw [hs]; exact hstarted
    · rw [hs]
  | true =>
    obtain ⟨_, _, ⟨_, _, hf, hl⟩, hup⟩ := railFull_violates r (railStarts r s)
    refine ⟨railFull r (railStarts r s), rfl, ?_, fun _ => ?_, ?_, fun h => ?_⟩
    · rw [hf, hs]; exact hstarted
    · rw [hf]; exact hup
    · rw [hf, hs]
    · rw [hf]; exact hl h

/-- A rail that leaves its window downwards with PWR_OK low goes down, and nothing is reported (R36). -/
theorem supplyOutOfWindow_falls {r : Rail} {ns : Nat} {s : State} (hns : 20 ≤ ns) (hok : s.pins.pwrOk = false)
    (hk : railBit s.pins.up .vddk = true) (hr : r ≠ .vddk) : exec (.supplyOutOfWindow r none false ns) s = .next (railFalls r s) := by
  show execSupplyOutOfWindow r none false ns s = _
  unfold execSupplyOutOfWindow
  simp [supplyOutOfWindow_seen hns hk, hok, hr]

/-! ### PWR_OK falls (R35) -/

section
variable {β : Type} [DecidableEq β] {P : β → Prop} {d : β} {f : β → β}

/-- What holds of the default and of every changed entry holds of every entry of the changed table. -/
theorem mapTable_get (hd : P d) (hf : ∀ v, P (f v)) (t : Table β) (k : Nat) : P (Map.get d k (mapTable d f t)) := by
  have h : ∀ u : Table β, (∀ k, P (Map.get d k u)) → ∀ k, P (Map.get d k (t.foldl (fun u (e : Nat × β) => Map.set d e.1 (f e.2) u) u)) := by
    induction t with
    | nil => exact fun u hu => hu
    | cons e t ih =>
      refine fun u hu => ih _ fun k => ?_
      by_cases hk : k = e.1
      · rw [hk, Map.get_set_same]
        exact hf _
      · rw [Map.get_set_other d d hk]
        exact hu k
  exact h [] (fun _ => hd) k

end

theorem abandonRecal_frame (l : List Nat) (s : State) : ∃ r n, abandonRecal l s = { s with recal := r, lanes := n } := by
  unfold abandonRecal
  dsimp only
  split
  · split
    · exact ⟨_, _, rfl⟩
    · exact ⟨_, s.lanes, rfl⟩
  · exact ⟨_, s.lanes, rfl⟩

/-- The ports idle: every link is down (R53). -/
theorem idlePorts_frame (s : State) :
    ∃ p r n, idlePorts s = { s with ports := p, recal := r, lanes := n } ∧ ∀ q, (Map.get Port.zero q p).up = false := by
  obtain ⟨r, n, h⟩ := abandonRecal_frame (upTo 16) { s with ports := mapTable Port.zero idlePort s.ports }
  exact ⟨_, r, n, h, mapTable_get (P := fun p : Port => p.up = false) rfl (fun _ => rfl) s.ports⟩

/-! Self-refresh. -/

/-- Nothing but the channels, the banks and the refresh floors differs. -/
def Refreshes (u t : State) : Prop := ∃ c b f, t = { u with chans := c, banks := b, thermal := { u.thermal with refreshFloor := f } }

theorem Refreshes.refl (s : State) : Refreshes s s := ⟨_, _, _, rfl⟩

theorem Refreshes.trans {a b c : State} : Refreshes a b → Refreshes b c → Refreshes a c := by
  rintro ⟨_, _, _, rfl⟩ ⟨_, _, _, rfl⟩
  exact ⟨_, _, _, rfl⟩

theorem forEach_setBank (ch : Nat) (f : State → Nat → DBank) (l : List Nat) (s : State) :
    ∃ b, forEach l (fun b t => setBank ch b (f t b) t) s = { s with banks := b } := by
  unfold forEach
  induction l generalizing s with
  | nil => exact ⟨_, rfl⟩
  | cons x l ih => exact ih (setBank ch x (f s x) s)

theorem enterSelfRefresh_refreshes (ch : Nat) (s : State) : Refreshes s (enterSelfRefresh ch s) ∧
    getChan (enterSelfRefresh ch s) ch = { getChan s ch with selfRefresh := true, second := none, colBusy := 0 } ∧
      ∀ c, c ≠ ch → getChan (enterSelfRefresh ch s) c = getChan s c := by
  unfold enterSelfRefresh
  obtain ⟨b, h⟩ := forEach_setBank ch (fun t b => { getBank t ch b with openRow := none, reserved := false }) (upTo 32) s
  dsimp only
  rw [h]
  exact ⟨⟨_, _, _, rfl⟩, getChan_set_same _ _ _, fun c hc => getChan_set_other _ hc _⟩

/-- One step of `sleepAll`: a channel that is initialised goes into self-refresh; another stays as it is (R35). -/
def sleepChan (ch : Nat) (t : State) : State := if (getChan t ch).initialised then enterSelfRefresh ch t else t

/-- The record that `sleepChan` leaves of a channel. -/
def slept (v : Chan) : Chan := if v.initialised then { v with selfRefresh := true, second := none, colBusy := 0 } else v

theorem slept_initialised (v : Chan) : (slept v).initialised = v.initialised := by
  unfold slept
  split <;> rfl

theorem slept_selfRefresh {v : Chan} (h : v.initialised = true) : (slept v).selfRefresh = true := by
  unfold slept
  rw [if_pos h]

theorem sleepChan_refreshes (ch : Nat) (s : State) : Refreshes s (sleepChan ch s) := by
  unfold sleepChan
  split
  · exact (enterSelfRefresh_refreshes ch s).1
  · exact .refl s

theorem getChan_sleepChan_same (ch : Nat) (s : State) : getChan (sleepChan ch s) ch = slept (getChan s ch) := by
  obtain ⟨_, hsame, _⟩ := enterSelfRefresh_refreshes ch s
  unfold sleepChan slept
  split
  · exact hsame
  · rfl

theorem getChan_sleepChan_other {ch c : Nat} (hc : c ≠ ch) (s : State) : getChan (sleepChan ch s) c = getChan s c := by
  obtain ⟨_, _, hother⟩ := enterSelfRefresh_refreshes ch s
  unfold sleepChan
  split
  · exact hother c hc
  · rfl

theorem sleepChans_refreshes (l : List Nat) (s : State) : Refreshes s (forEach l sleepChan s) := by
  unfold forEach
  induction l generalizing s with
  | nil => exact .refl s
  | cons ch l ih => exact (sleepChan_refreshes ch s).trans (ih _)

theorem getChan_sleepChans {l : List Nat} (hl : l.Nodup) (c : Nat) (s : State) :
    getChan (forEach l sleepChan s) c = if c ∈ l then slept (getChan s c) else getChan s c := by
  unfold forEach
  induction l generalizing s with
  | nil => rfl
  | cons ch l ih =>
    obtain ⟨hch, hl⟩ := List.nodup_cons.mp hl
    rw [List.foldl_cons, ih hl]
    by_cases hc : c = ch
    · subst hc
      simp [hch, getChan_sleepChan_same]
    · simp [hc, getChan_sleepChan_other hc]

/-- The path is emptied, and every initialised channel sleeps (R35). -/
theorem sleepAll_frame (s : State) :
    (∃ c b f l e, sleepAll s =
      { s with path := .empty, slow := l, sep := e, chans := c, banks := b, thermal := { s.thermal with refreshFloor := f } }) ∧
      ∀ ch < 64, getChan (sleepAll s) ch = slept (getChan s ch) := by
  generalize hu : ({ s with
    path := .empty, slow := { s.slow with reserve := [] },
    sep := { s.sep with waiting := [], inits := s.sep.inits.map (fun x => { x with heldReqs := [] }),
                        rewrites := s.sep.rewrites.map (fun x => { x with heldReqs := [] }) } } : State) = u
  have hs : sleepAll s = forEach (upTo 64) sleepChan u := hu ▸ rfl
  rw [hs]
  refine ⟨?_, fun ch hch => ?_⟩
  · obtain ⟨c, b, f, h⟩ := sleepChans_refreshes (upTo 64) u
    rw [h, ← hu]
    exact ⟨c, b, f, _, _, rfl⟩
  · have hm : ch ∈ upTo 64 := List.mem_range.mpr hch
    rw [getChan_sleepChans (l := upTo 64) List.nodup_range, if_pos hm, ← hu]
    rfl

/-! Journal entries are recorded and written. -/

/-- Nothing but the journal, the array, the counters and the Churn differs, and no UC or FT message is lost. -/
def Writes (u t : State) : Prop := (∃ j d c k, t = { u with journal := j, dram := d, ctr := c, churn := k }) ∧ Waits u t

theorem Writes.refl (s : State) : Writes s s := ⟨⟨_, _, _, _, rfl⟩, .of_eq rfl rfl⟩

theorem Writes.trans {a b c : State} : Writes a b → Writes b c → Writes a c := by
  rintro ⟨⟨_, _, _, _, rfl⟩, hab⟩ ⟨⟨_, _, _, _, rfl⟩, hbc⟩
  exact ⟨⟨_, _, _, _, rfl⟩, hab.trans hbc⟩

theorem raise_writes (src : Nat) (kind : Byte) (addr : Nat) (s : State) : Writes s (raise src kind addr s) := by
  obtain ⟨_, _, _, _, h⟩ := raise_messages src kind addr s
  exact ⟨⟨_, _, _, _, h⟩, pushMsg_waits _ s⟩

theorem raise_keeps (src : Nat) (kind : Byte) (addr : Nat) (s : State) :
    (raise src kind addr s).journal = s.journal ∧ (raise src kind addr s).dram = s.dram := by
  obtain ⟨_, _, _, _, h⟩ := raise_messages src kind addr s
  rw [h]
  exact ⟨rfl, rfl⟩

theorem setJournal_writes (j : Journal) (s : State) : Writes s { s with journal := j } := ⟨⟨_, _, _, _, rfl⟩, .of_eq rfl rfl⟩

theorem settleJournal_writes (s : State) : Writes s (settleJournal s) := by
  unfold settleJournal
  split
  · exact setJournal_writes _ _
  · exact .refl s

theorem journalEvent_writes (src : Nat) (ty : Byte) (r : Nat) (a : List Byte) (s : State) : Writes s (journalEvent src ty r a s) := by
  unfold journalEvent pushEntry
  dsimp only
  split
  · split
    · exact (setJournal_writes _ _).trans (raise_writes _ _ _ _)
    · exact setJournal_writes _ _
  · exact (setJournal_writes _ _).trans (settleJournal_writes _)

/-- The system input's column commands are counted, which leaves the journal and the array alone (R196, R206). -/
theorem systemBursts_writes (ch n : Nat) (s : State) :
    Writes s (systemBursts ch n s) ∧ (systemBursts ch n s).journal = s.journal ∧ (systemBursts ch n s).dram = s.dram := by
  have hc (c : Counters) : Writes s { s with ctr := c } := ⟨⟨_, _, _, _, rfl⟩, .of_eq rfl rfl⟩
  unfold systemBursts classCount
  dsimp only
  split
  · exact ⟨.refl s, rfl, rfl⟩
  · split
    · exact ⟨(hc _).trans (raise_writes _ _ _ _), raise_keeps _ _ _ _⟩
    · exact ⟨hc _, rfl, rfl⟩

theorem markJournaled_writes (r : BitVec 32) (q : BitVec 64) (s : State) : Writes s (markJournaled r q s) :=
  ⟨⟨_, _, _, _, rfl⟩, .of_eq rfl rfl⟩

theorem writeLine_writes (line : Nat) (bs : List Byte) (s : State) : Writes s (writeLine line bs s) :=
  ⟨⟨_, _, _, _, rfl⟩, .of_eq rfl rfl⟩

theorem writeHead_writes (e : JEntry) (q : BitVec 64) (rest : List JEntry) (s : State) : Writes s (writeHead e q rest s) := by
  have h := ((setJournal_writes { s.journal with queue := rest, written := q + 1 } s).trans
    (writeLine_writes (journalLine q.toNat) (entryBytes e) _)).trans (systemBursts_writes (journalSlot q.toNat).1 1 _).1
  unfold writeHead
  dsimp only
  split
  · exact (h.trans (markJournaled_writes _ _ _)).trans (settleJournal_writes _)
  · exact h.trans (settleJournal_writes _)

theorem journalStep_writes {s t : State} (h : journalStep s = some t) : Writes s t := by
  unfold journalStep at h
  split at h
  · cases h
  · split at h
    · cases h
    · split at h
      · cases h
      · cases h
        exact writeHead_writes _ _ _ _

theorem flushJournal_writes (n : Nat) (s : State) : Writes s (flushJournal n s) := by
  induction n generalizing s with
  | zero => exact .refl s
  | succ n ih =>
    unfold flushJournal
    cases h : journalStep s with
    | none => exact .refl s
    | some u => exact (journalStep_writes h).trans (ih u)

/-! The type 0x03 entry of a device whose journal queue is empty. -/

theorem flushJournal_empty {n : Nat} {s : State} (h : s.journal.queue = []) : flushJournal n s = s := by
  cases n with
  | zero => rfl
  | succ n => simp [flushJournal, journalStep, h]

theorem flushJournal_only {n : Nat} {s u : State} (h : journalStep s = some u) (hu : u.journal.queue = []) : flushJournal (n + 1) s = u := by
  unfold flushJournal
  rw [h]
  exact flushJournal_empty hu

/-- An entry takes the next sequence on a channel that is not retired (R319, R321). -/
theorem settleJournal_single {s : State} {e : JEntry} (hf : s.tank.filled = true) (hq : s.journal.queue = [e]) (he : e.seq = none) :
    settleJournal s = { s with journal := { s.journal with
      queue := [{ e with seq := some (skipRetired s.retired 64 s.journal.nextSeq) }],
      nextSeq := skipRetired s.retired 64 s.journal.nextSeq + 1 } } := by
  unfold settleJournal
  simp [hf, hq, he, numberEntries]

theorem settleJournal_empty {s : State} (h : s.journal.queue = []) : settleJournal s = s := by
  have hn : numberEntries s.retired 256 s.journal.nextSeq s.journal.queue = (s.journal.queue, s.journal.nextSeq) := by
    rw [h]
    rfl
  unfold settleJournal
  rw [hn]
  split <;> rfl

/-- The only entry of the queue reaches its slot (R319 to R321). -/
theorem writeHead_only {e : JEntry} (he : e.faultRecord = none) (q : BitVec 64) (s : State) :
    (writeHead e q [] s).journal.queue = [] ∧ (writeHead e q [] s).journal.written = q + 1 ∧
      lineBytes (writeHead e q [] s) (journalLine q.toNat) 0 64 = padTo 64 (entryBytes e) := by
  generalize hw : writeLine (journalLine q.toNat) (entryBytes e) { s with journal := { s.journal with queue := [], written := q + 1 } } = w
  obtain ⟨_, hj, hd⟩ := systemBursts_writes (journalSlot q.toNat).1 1 w
  have hwj : w.journal = { s.journal with queue := [], written := q + 1 } := by
    rw [← hw]
    rfl
  have heq : writeHead e q [] s = systemBursts (journalSlot q.toNat).1 1 w := by
    unfold writeHead
    rw [hw, he]
    exact settleJournal_empty (by rw [hj, hwj])
  rw [heq, hj, hwj]
  refine ⟨rfl, rfl, ?_⟩
  unfold lineBytes
  rw [hd, ← hw]
  exact lineData_writeLine _ _ _

/-- The part of `execPwrOkFall` that records the power failure, while the rails hold (R35). -/
def recordFailure (rails : Byte) (stable : Bool) (s : State) : State :=
  if stable then flushJournal 512 (journalEvent 0x0FF 0x03 0 [rails] s) else s

theorem recordFailure_writes (rails : Byte) (stable : Bool) (s : State) : Writes s (recordFailure rails stable s) := by
  unfold recordFailure
  split
  · exact (journalEvent_writes _ _ _ _ _).trans (flushJournal_writes _ _)
  · exact .refl s

/-- The type 0x03 entry, with the sequence that it has taken. -/
def failureEntry (rails : Byte) (q : BitVec 64) (s : State) : JEntry :=
  { seq := some q, minute := (stamp s).1, usec := (stamp s).2, source := 0x0FF, etype := 0x03, flags := entryFlags false s, result := 0,
    args := padTo 40 [rails], faultRecord := none }

theorem journalEvent_failure {rails : Byte} {s : State} (hf : s.tank.filled = true) (hq : s.journal.queue = []) :
    journalEvent 0x0FF 0x03 0 [rails] s = { s with journal := { s.journal with
      queue := [failureEntry rails (skipRetired s.retired 64 s.journal.nextSeq) s],
      nextSeq := skipRetired s.retired 64 s.journal.nextSeq + 1 } } := by
  unfold journalEvent pushEntry
  rw [if_neg (by simp [hf]), hq]
  exact settleJournal_single (e := { failureEntry rails 0 s with seq := none }) hf rfl rfl

/-- With nothing before it in the queue, the type 0x03 entry reaches its slot (R35, R321). -/
theorem recordFailure_written {rails : Byte} {s : State} {q : BitVec 64} (hf : s.tank.filled = true) (hq : s.journal.queue = [])
    (hseq : q = skipRetired s.retired 64 s.journal.nextSeq) (hsr : (getChan s (q.toNat % 64)).selfRefresh = false)
    (hm : markedRow s (journalLine q.toNat) = false) :
    (recordFailure rails true s).journal.queue = [] ∧ (recordFailure rails true s).journal.written = q + 1 ∧
      lineBytes (recordFailure rails true s) (journalLine q.toNat) 0 64 = padTo 64 (entryBytes (failureEntry rails q s)) := by
  have hstep : journalStep (journalEvent 0x0FF 0x03 0 [rails] s) =
      some (writeHead (failureEntry rails q s) q [] (journalEvent 0x0FF 0x03 0 [rails] s)) := by
    rw [journalEvent_failure hf hq, ← hseq]
    exact if_neg (by simpa using ⟨hsr, hm⟩)
  have hwritten := writeHead_only (e := failureEntry rails q s) rfl q (journalEvent 0x0FF 0x03 0 [rails] s)
  have hrec : recordFailure rails true s = writeHead (failureEntry rails q s) q [] (journalEvent 0x0FF 0x03 0 [rails] s) := by
    unfold recordFailure
    rw [if_pos rfl]
    exact flushJournal_only (n := 511) hstep hwritten.1
  rw [hrec]
  exact hwritten

/-- The part of `execPwrOkFall` that follows the report of kind 0x50 (R35); `pwrOkFall_quiesces` ties it to `exec`. -/
def quiesced (rails : Byte) (stable : Bool) (s : State) : State := sleepAll (recordFailure rails stable (idlePorts s))

section
variable (rails : Byte) (stable : Bool) (s : State)

theorem quiesced_frame : (quiesced rails stable s).pins = s.pins ∧ (quiesced rails stable s).path = .empty ∧
    (quiesced rails stable s).tank = s.tank ∧ (quiesced rails stable s).keys = s.keys ∧ (quiesced rails stable s).flash = s.flash ∧
      ∀ q, (getPort (quiesced rails stable s) q).up = false := by
  obtain ⟨_, _, _, hidle, hdown⟩ := idlePorts_frame s
  obtain ⟨⟨_, _, _, _, hrec⟩, _⟩ := recordFailure_writes rails stable (idlePorts s)
  obtain ⟨⟨_, _, _, _, _, hsleep⟩, _⟩ := sleepAll_frame (recordFailure rails stable (idlePorts s))
  unfold quiesced getPort
  rw [hsleep, hrec, hidle]
  exact ⟨rfl, rfl, rfl, rfl, rfl, hdown⟩

theorem getChan_quiesced {ch : Nat} (hch : ch < 64) : getChan (quiesced rails stable s) ch = slept (getChan s ch) := by
  obtain ⟨_, _, _, hidle, _⟩ := idlePorts_frame s
  obtain ⟨⟨_, _, _, _, hrec⟩, _⟩ := recordFailure_writes rails stable (idlePorts s)
  obtain ⟨_, hchan⟩ := sleepAll_frame (recordFailure rails stable (idlePorts s))
  unfold quiesced
  rw [hchan ch hch, hrec, hidle]
  rfl

theorem quiesced_waits : Waits s (quiesced rails stable s) := by
  obtain ⟨_, _, _, hidle, _⟩ := idlePorts_frame s
  obtain ⟨_, hwait⟩ := recordFailure_writes rails stable (idlePorts s)
  obtain ⟨⟨_, _, _, _, _, hsleep⟩, _⟩ := sleepAll_frame (recordFailure rails stable (idlePorts s))
  have hbefore : Waits s (idlePorts s) := by
    rw [hidle]
    exact .of_eq rfl rfl
  unfold quiesced
  rw [hsleep]
  exact hbefore.trans hwait

theorem quiesced_stored : (quiesced rails stable s).journal = (recordFailure rails stable (idlePorts s)).journal ∧
    (quiesced rails stable s).dram = (recordFailure rails stable (idlePorts s)).dram := by
  obtain ⟨⟨_, _, _, _, _, hsleep⟩, _⟩ := sleepAll_frame (recordFailure rails stable (idlePorts s))
  unfold quiesced
  rw [hsleep]
  exact ⟨rfl, rfl⟩

end

/-- Rails that do not hold leave the array and the journal as they were (R35). -/
theorem quiesced_unstable (rails : Byte) (s : State) : (quiesced rails false s).dram = s.dram ∧ (quiesced rails false s).journal = s.journal := by
  obtain ⟨hj, hd⟩ := quiesced_stored rails false s
  obtain ⟨_, _, _, hidle, _⟩ := idlePorts_frame s
  rw [hj, hd, show recordFailure rails false (idlePorts s) = idlePorts s from rfl, hidle]
  exact ⟨rfl, rfl⟩

/-- While the rails hold, the type 0x03 entry reaches its slot (R35, R321). -/
theorem quiesced_stable {rails : Byte} {s : State} {q : BitVec 64} (hf : s.tank.filled = true) (hq : s.journal.queue = [])
    (hseq : q = skipRetired s.retired 64 s.journal.nextSeq) (hsr : (getChan s (q.toNat % 64)).selfRefresh = false)
    (hm : markedRow s (journalLine q.toNat) = false) :
    (quiesced rails true s).journal.queue = [] ∧ (quiesced rails true s).journal.written = q + 1 ∧
      lineBytes (quiesced rails true s) (journalLine q.toNat) 0 64 = padTo 64 (entryBytes (failureEntry rails q (idlePorts s))) := by
  obtain ⟨hj, hd⟩ := quiesced_stored rails true s
  obtain ⟨_, _, _, hidle, _⟩ := idlePorts_frame s
  unfold lineBytes
  rw [hj, hd]
  refine recordFailure_written ?_ ?_ ?_ ?_ ?_
  all_goals rw [hidle]
  exacts [hf, hq, hseq, hsr, hm]

/-- PWR_OK low is event 4 of kind 0x50, with rail 0xF (R37). -/
theorem pwrOkFall_quiesces {s : State} (rails : Byte) (stable : Bool) (hok : s.pins.pwrOk = true) (hp : s.pins.porN = true) :
    exec (.pwrOkFall rails stable) s = .next (quiesced rails stable (pushMsg (raisedMsg 0x0FF 0x50 (monitorAddr 4 0 0xF))
      { s with pins := { s.pins with pwrOk := false, powerFail := true } })) := by
  show execPwrOkFall rails stable s = _
  unfold execPwrOkFall
  rw [if_neg (by simp [hok]), if_neg (by simp [hp])]
  rfl

/-- Settles O36: a rail's rise changes the pins and, by violations, the latch; PWR_OK's fall is its message, then `quiesced`, whose steps
touch separate parts of the state. -/
theorem powerComesAndGoes : Obligations.PowerComesAndGoes := by
  unfold Obligations.PowerComesAndGoes
  intro s
  refine ⟨fun r full => ?_, fun r ns hns hok hk hr => ?_, rfl, fun rails stable hok hp => ?_⟩
  · obtain ⟨t, ht, hstarted, hup, hdram, hlock⟩ := railUp_rises r full s
    exact ⟨t, ht, hstarted, hup, hdram, fun hk hs he hp => hlock (railStarts_latches hk hs he hp)⟩
  · exact ⟨_, supplyOutOfWindow_falls hns hok hk hr, getLsbD_clearBit8 _ _, getLsbD_clearBit8 _ _, rfl, rfl, rfl⟩
  · rw [pwrOkFall_quiesces rails stable hok hp]
    generalize hu : pushMsg (raisedMsg 0x0FF 0x50 (monitorAddr 4 0 0xF)) { s with pins := { s.pins with pwrOk := false, powerFail := true } } = u
    have hwait := quiesced_waits rails stable u
    nth_rewrite 1 [← hu] at hwait
    have hmsg := pushMsg_stays (by decide) hwait
    obtain ⟨_, _, _, _, hreport⟩ := hu ▸ pushMsg_messages _ _
    have hchan (ch : Nat) : getChan u ch = getChan s ch := by rw [hreport]; rfl
    obtain ⟨hpins, hpath, htank, hkeys, hflash, hports⟩ := quiesced_frame rails stable u
    refine ⟨_, rfl, hpins.trans (by rw [hreport]), hpath, fun ch hch => ?_, hports, htank.trans (by rw [hreport]),
      hkeys.trans (by rw [hreport]), hflash.trans (by rw [hreport]), fun m hm => ?_, fun hs => ?_, fun q hs hf hq hseq hsr hmark => ?_⟩
    · rw [getChan_quiesced rails stable u hch, slept_initialised, hchan]
      exact ⟨rfl, slept_selfRefresh⟩
    · obtain rfl : m = raisedMsg 0x0FF 0x50 (monitorAddr 4 0 0xF) := hm.trans (raisedMsg_window _).symm
      exact hmsg
    · subst hs
      obtain ⟨hd, hj⟩ := quiesced_unstable rails u
      rw [hd, hj, hreport]
      exact ⟨rfl, rfl⟩
    · subst hs
      obtain ⟨hqueue, hcount, hline⟩ := quiesced_stable (rails := rails) (s := u) (q := q) (by rw [hreport]; exact hf)
        (by rw [hreport]; exact hq) (by rw [hreport]; exact hseq) (by rw [hchan]; exact hsr) (by rw [hreport]; exact hmark)
      exact ⟨hqueue, hcount, failureEntry rails q (idlePorts u), rfl, rfl, rfl, hline⟩

end Sys2Proof.Safety

namespace Sys2Proof.Safety

open Sys2Proof.Machine

/-! ## Every step keeps the stored memories

`Kept cells s` says that the stored memories of `s` are canonical and that no OTP bit set in `cells` is lost in `s`. Below it has one rule per
operation of the model, named after the operation and in the model's order; a rule's proof follows the operation's definition from the outside
inwards (`.ite` at a branch, `.upd` at an update of other fields, `.forEach` at a loop). Only the few writers of the array, the flash and the
OTP (`writeBytes`, `clearUpsets`, `addUpsets`, `putPoison`, `flashProgram`, `flashErase`, `pulse`, and the fill and the cold reset) need more. -/

theorem and_or_absorbed {n : Nat} {a b m : BitVec n} (h : a &&& b = a) : a &&& (b ||| m) = a := by
  rw [BitVec.and_or_distrib_left, h]
  ext i
  simp only [BitVec.getElem_or, BitVec.getElem_and]
  cases a[i] <;> rfl

/-- The stored memories are canonical, and every OTP bit set in `cells` is set. -/
structure Kept (cells : Table (BitVec 39)) (s : State) : Prop where
  stored : Stored s
  otp : OtpKept cells s.otp.cells

/-- `Kept` of the state that an outcome leaves. -/
inductive Keeps (cells : Table (BitVec 39)) : Host.Outcome State Fault Refusal → Prop
  | next {s : State} (h : Kept cells s) : Keeps cells (.next s)
  | fault {r : Fault} : Keeps cells (.fault r)

/-- `Kept` of a state that may be answered. -/
inductive KeptSome (cells : Table (BitVec 39)) : Option State → Prop
  | some {s : State} (h : Kept cells s) : KeptSome cells (some s)
  | none : KeptSome cells none

/-- `Kept` of the state beside an answer. -/
inductive KeptSnd (cells : Table (BitVec 39)) {α : Type} : α × State → Prop
  | mk {x : α} {s : State} (h : Kept cells s) : KeptSnd cells (x, s)

/-- `Kept` of the state that a command's rule leaves. -/
inductive KeptReply (cells : Table (BitVec 39)) : Reply → Prop
  | mk {status : Byte} {payload : List Byte} {s : State} (h : Kept cells s) : KeptReply cells ⟨status, payload, s⟩

/-- `Kept` of the state that a refusal leaves, where there is one. -/
inductive KeptRefusal (cells : Table (BitVec 39)) : Option Reply → Prop
  | some {r : Reply} (h : KeptReply cells r) : KeptRefusal cells (some r)
  | none : KeptRefusal cells none

/-- `Kept` of the state that a write's gate leaves. -/
inductive KeptGate (cells : Table (BitVec 39)) : Gate → Prop
  | go {s : State} (h : Kept cells s) : KeptGate cells (.go s)
  | parked {s : State} (h : Kept cells s) : KeptGate cells (.parked s)
  | blocked : KeptGate cells .blocked

/-- `Kept` of the state that the trial of a bank leaves. -/
inductive KeptTried (cells : Table (BitVec 39)) : Tried → Prop
  | inForce {s : State} (h : Kept cells s) : KeptTried cells (.inForce s)
  | passedOver {s : State} (h : Kept cells s) : KeptTried cells (.passedOver s)
  | refused {s : State} (h : Kept cells s) : KeptTried cells (.refused s)

/-- `Kept` passes through an action that may be chosen. -/
inductive KeptAct (cells : Table (BitVec 39)) : Option (State → State) → Prop
  | some {f : State → State} (h : ∀ t, Kept cells t → Kept cells (f t)) : KeptAct cells (some f)
  | none : KeptAct cells none

section
variable {cells : Table (BitVec 39)} {s t : State} {p : Prop} [Decidable p]

/-! ### Through the states and answers of the model -/

protected theorem Kept.same (h : Kept cells s) (hd : t.dram = s.dram := by rfl) (hf : t.flash = s.flash := by rfl)
    (ho : t.otp.cells = s.otp.cells := by rfl) : Kept cells t :=
  ⟨stored_of_eq h.stored hd hf ho, ho ▸ h.otp⟩

protected theorem Kept.upd {pending free pins tank churn journal otp factory plans chain sel ports lanes recal slow qps qpnPtr qpnFreed trackers
    regions genDrawn held records keys drbg metaCache pageCache misread sep path chans banks retired retiring relief parlour clsCh skim remap
    retirements thermal bist ctr views stats dataSent chainSent} (h : Kept cells s) (ho : otp.cells = s.otp.cells := by rfl) :
    Kept cells { pending, free, pins, tank, churn, journal, otp, factory, plans, chain, sel, ports, lanes, recal, slow, qps, qpnPtr, qpnFreed,
                 trackers, regions, genDrawn, held, records, keys, drbg, metaCache, pageCache, misread, sep, path, chans, banks, retired,
                 retiring, relief, parlour, clsCh, skim, remap, retirements, thermal, bist, ctr, views, stats, dataSent, chainSent,
                 flash := s.flash, dram := s.dram } := h.same rfl rfl ho

protected theorem Kept.ite {a b : State} (ha : Kept cells a) (hb : Kept cells b) : Kept cells (if p then a else b) := by split <;> assumption

protected theorem Keeps.ite {a b : Host.Outcome State Fault Refusal} (ha : Keeps cells a) (hb : Keeps cells b) : Keeps cells (if p then a else b) := by
  split <;> assumption

protected theorem KeptSome.ite {a b : Option State} (ha : KeptSome cells a) (hb : KeptSome cells b) : KeptSome cells (if p then a else b) := by
  split <;> assumption

protected theorem KeptSnd.ite {α : Type} {a b : α × State} (ha : KeptSnd cells a) (hb : KeptSnd cells b) :
    KeptSnd cells (if p then a else b) := by split <;> assumption

protected theorem KeptReply.ite {a b : Reply} (ha : KeptReply cells a) (hb : KeptReply cells b) : KeptReply cells (if p then a else b) := by
  split <;> assumption

protected theorem KeptRefusal.ite {a b : Option Reply} (ha : KeptRefusal cells a) (hb : KeptRefusal cells b) :
    KeptRefusal cells (if p then a else b) := by split <;> assumption

protected theorem KeptGate.ite {a b : Gate} (ha : KeptGate cells a) (hb : KeptGate cells b) : KeptGate cells (if p then a else b) := by
  split <;> assumption

protected theorem KeptTried.ite {a b : Tried} (ha : KeptTried cells a) (hb : KeptTried cells b) : KeptTried cells (if p then a else b) := by
  split <;> assumption

protected theorem KeptAct.ite {a b : Option (State → State)} (ha : KeptAct cells a) (hb : KeptAct cells b) :
    KeptAct cells (if p then a else b) := by split <;> assumption

protected theorem Kept.snd {α : Type} {x : α × State} (h : KeptSnd cells x) : Kept cells x.2 := by
  cases h; assumption

protected theorem Kept.st {r : Reply} (h : KeptReply cells r) : Kept cells r.st := by
  cases h; assumption

theorem KeptSnd.get {α : Type} {x : α} : KeptSnd cells (x, t) → Kept cells t := fun (.mk h) => h

theorem KeptSome.get : KeptSome cells (Option.some t) → Kept cells t := fun (.some h) => h

theorem KeptRefusal.get {r : Reply} : KeptRefusal cells (Option.some r) → KeptReply cells r := fun (.some h) => h

theorem KeptGate.get_go : KeptGate cells (.go t) → Kept cells t := fun (.go h) => h

theorem KeptGate.get_parked : KeptGate cells (.parked t) → Kept cells t := fun (.parked h) => h

theorem KeptTried.get_inForce : KeptTried cells (.inForce t) → Kept cells t := fun (.inForce h) => h

theorem KeptTried.get_passedOver : KeptTried cells (.passedOver t) → Kept cells t := fun (.passedOver h) => h

theorem KeptTried.get_refused : KeptTried cells (.refused t) → Kept cells t := fun (.refused h) => h

protected theorem KeptAct.act {o : Option (State → State)} {f : State → State} (ho : KeptAct cells o) (he : o = Option.some f)
    (h : Kept cells s) : Kept cells (f s) := by
  subst he
  cases ho with
  | some hf => exact hf s h

protected theorem Kept.getD {o : Option State} (ho : KeptSome cells o) (h : Kept cells s) : Kept cells (o.getD s) := by
  cases ho with
  | some ht => exact ht
  | none => exact h

protected theorem KeptSome.map {α : Type} {o : Option α} {f : α → State} (h : ∀ x, Kept cells (f x)) : KeptSome cells (o.map f) := by
  cases o with
  | none => exact .none
  | some x => exact .some (h x)

protected theorem KeptSome.orElse {a : Option State} {f : Unit → Option State} (ha : KeptSome cells a) (hf : KeptSome cells (f ())) :
    KeptSome cells (a.orElse f) := by
  cases ha with
  | some ht => exact .some ht
  | none => exact hf

/-! ### Through lists -/

protected theorem Kept.forEach (h : Kept cells s) {α : Type} {l : List α} {f : α → State → State}
    (hf : ∀ x t, Kept cells t → Kept cells (f x t)) : Kept cells (forEach l f s) :=
  List.foldlRecOn (motive := Kept cells) l _ h fun t ht x _ => hf x t ht

protected theorem Kept.foldl (h : Kept cells s) {α : Type} {l : List α} {f : State → α → State}
    (hf : ∀ t x, Kept cells t → Kept cells (f t x)) : Kept cells (l.foldl f s) :=
  List.foldlRecOn (motive := Kept cells) l f h fun t ht x _ => hf t x ht

protected theorem KeptSnd.foldl {α β : Type} {l : List β} {x : α × State} (h : KeptSnd cells x) {f : α × State → β → α × State}
    (hf : ∀ z y, KeptSnd cells z → KeptSnd cells (f z y)) : KeptSnd cells (l.foldl f x) :=
  List.foldlRecOn (motive := KeptSnd cells) l f h fun z hz y _ => hf z y hz

protected theorem KeptSome.findSome? {α : Type} {l : List α} {f : α → Option State} (h : ∀ x, KeptSome cells (f x)) :
    KeptSome cells (l.findSome? f) := by
  cases he : l.findSome? f with
  | none => exact .none
  | some t =>
    obtain ⟨x, _, hx⟩ := List.exists_of_findSome?_eq_some he
    exact hx ▸ h x

protected theorem KeptAct.findSome? {α : Type} {l : List α} {f : α → Option (State → State)} (h : ∀ x, KeptAct cells (f x)) :
    KeptAct cells (l.findSome? f) := by
  cases he : l.findSome? f with
  | none => exact .none
  | some t =>
    obtain ⟨x, _, hx⟩ := List.exists_of_findSome?_eq_some he
    exact hx ▸ h x

end

section

set_option Elab.async false

variable {cells : Table (BitVec 39)} {s t : State}

/-! ### The operations of Machine/Ops -/

protected theorem Kept.tick (h : Kept cells s) : Kept cells (tick s) := .ite (.upd h) (.ite (.upd h) (.ite (.upd h) (.upd h)))

protected theorem Kept.drawn (h : Kept cells s) : Kept cells (drawn s) := h.same

protected theorem Kept.pushMsg (h : Kept cells s) {m} : Kept cells (pushMsg m s) := .ite (.upd h) (.ite (.upd h) (.ite (.upd h) (.upd h)))

protected theorem Kept.raiseAs (h : Kept cells s) {cls src kind addr} : Kept cells (raiseAs cls src kind addr s) := .pushMsg h

protected theorem Kept.raise (h : Kept cells s) {src kind addr} : Kept cells (raise src kind addr s) := .raiseAs h

protected theorem Kept.raiseDetail (h : Kept cells s) {det src kind addr} : Kept cells (raiseDetail det src kind addr s) := .pushMsg h

protected theorem Kept.raiseLimited (h : Kept cells s) {src kind addr} : Kept cells (raiseLimited src kind addr s) := .ite (.upd (.raise h)) h

protected theorem Kept.tenantCount (h : Kept cells s) {tenant n add} : Kept cells (tenantCount tenant n add s) := .ite (.raise (.upd h)) (.upd h)

protected theorem Kept.portCount (h : Kept cells s) {port i add} : Kept cells (portCount port i add s) := .ite (.raise (.upd h)) (.upd h)

protected theorem Kept.classCount (h : Kept cells s) {ch cls i flag add} : Kept cells (classCount ch cls i flag add s) :=
  .ite h (.ite (.raise (.upd h)) (.upd h))

protected theorem Kept.systemBursts (h : Kept cells s) {ch n} : Kept cells (systemBursts ch n s) := .classCount h

protected theorem Kept.chanCount (h : Kept cells s) {ch n add} : Kept cells (chanCount ch n add s) := .ite (.raise (.upd h)) (.upd h)

protected theorem Kept.headCount (h : Kept cells s) {key add} : Kept cells (headCount key add s) := h.same

protected theorem Kept.chainCount (h : Kept cells s) {off add} : Kept cells (chainCount off add s) := .ite (.raise (.upd h)) (.upd h)

protected theorem Kept.chainPortCount (h : Kept cells s) {p off} : Kept cells (chainPortCount p off s) := .chainCount h

protected theorem Kept.settleJournal (h : Kept cells s) : Kept cells (settleJournal s) := .ite (.upd h) h

protected theorem Kept.pushEntry (h : Kept cells s) {e} : Kept cells (pushEntry e s) :=
  .ite (.ite (.raise (.upd h)) (.upd h)) (.settleJournal (.upd h))

protected theorem Kept.journalEvent (h : Kept cells s) {src ty result args} : Kept cells (journalEvent src ty result args s) := .pushEntry h

/-! ### The operations of Machine/Drbg -/

protected theorem Kept.instantiate (h : Kept cells s) : Kept cells (instantiate s) := h.same

protected theorem Kept.reseed (h : Kept cells s) : Kept cells (reseed s) := h.same

protected theorem KeptSnd.generate (h : Kept cells s) {n} : KeptSnd cells (generate n s) := .mk (.upd (.ite (.reseed h) h))

/-! ### The operations of Machine/ChainOps -/

protected theorem Kept.setCPort (h : Kept cells s) {p v} : Kept cells (setCPort p v s) := by
  unfold setCPort
  split
  · exact .upd h
  · exact .upd h

protected theorem Kept.settleQuiet (h : Kept cells s) {p} : Kept cells (settleQuiet p s) := .ite (.setCPort h) h

protected theorem Kept.emit (h : Kept cells s) {p f} : Kept cells (emit p f s) := .ite h (.upd (.ite h (.chainPortCount (.setCPort h))))

protected theorem Kept.pump (h : Kept cells s) {p n} : Kept cells (pump p n s) := by
  induction n generalizing s with
  | zero => exact h
  | succ n ih =>
    unfold pump
    dsimp only
    split
    · exact .settleQuiet h
    · exact .ite (ih (.emit (.setCPort h))) h

protected theorem KeptSnd.enqueue (h : Kept cells s) {p f off} : KeptSnd cells (enqueue p f off s) :=
  .ite (.mk h) (.ite (.mk (.chainPortCount h)) (.mk (.pump (.chainPortCount (.setCPort h)))))

protected theorem Kept.breakHop (h : Kept cells s) {p unit} : Kept cells (breakHop p unit s) := .ite h (.raise (.setCPort h))

protected theorem Kept.ackFrame (h : Kept cells s) {p f} : Kept cells (ackFrame p f s) := .setCPort (.chainPortCount (.emit h))

protected theorem KeptSnd.receive (h : Kept cells s) {p f} : KeptSnd cells (receive p f s) :=
  .ite (.mk (.ite (.chainPortCount h) (.ackFrame (.chainPortCount h)))) (.ite (.mk (.chainPortCount (.ite (.setCPort h) h))) (.ite (.mk
    (.ackFrame (.chainPortCount (.ite (.setCPort h) h)))) (.ite (.mk (.ackFrame (.chainPortCount (.ite (.setCPort h) h)))) (.mk (.setCPort
    (.chainPortCount (.ite (.setCPort h) h)))))))

protected theorem Kept.answer (h : Kept cells s) {p f status payload hw} : Kept cells (answer p f status payload hw s) :=
  .snd (.enqueue (.ite h (.upd h)))

protected theorem Kept.answerBroken (h : Kept cells s) {p f} : Kept cells (answerBroken p f s) :=
  .ite (.chainPortCount (.snd (.enqueue h))) (.snd (.enqueue h))

protected theorem Kept.answerRepeat (h : Kept cells s) {p r} : Kept cells (answerRepeat p r s) := .snd (.enqueue (.chainCount h))

protected theorem KeptSnd.forwardFrame (h : Kept cells s) {p f} : KeptSnd cells (forwardFrame p f s) :=
  .ite (.mk (.ite (.answerBroken h) (.chainPortCount h))) (.enqueue h)

protected theorem Kept.runRequest (h : Kept cells s) {p f act} (hact : ∀ t, Kept cells t → Kept cells (act t)) :
    Kept cells (runRequest p f act s) := by
  unfold runRequest
  refine .ite h (.ite (.snd (.receive h)) (.ite (.snd (.ite (.forwardFrame (.snd (.receive h))) (.mk (.snd (.receive h))))) ?_))
  extract_lets s1
  have h1 : Kept cells s1 := .ackFrame (.snd (.ite (.forwardFrame (.snd (.receive h))) (.mk (.snd (.receive h)))))
  split
  · exact .answerRepeat h1
  · exact hact _ h1

protected theorem Kept.drawChallenge (h : Kept cells s) : Kept cells (drawChallenge s) := .upd (.snd (.generate h))

protected theorem Kept.journalCommand (h : Kept cells s) {f status resp} : Kept cells (journalCommand f status resp s) := .journalEvent h

protected theorem Kept.commandBody (h : Kept cells s) {p f rule} (hrule : ∀ t, Kept cells t → KeptReply cells (rule t)) :
    Kept cells (commandBody p f rule s) := by
  unfold commandBody
  extract_lets g u r r2
  have hu : Kept cells u := .ite (.drawChallenge h) h
  exact .ite (.answer h) (.ite (.answer hu) (.ite (.answer (.drawn hu)) (.ite (.answer (.drawn hu)) (.ite (.answer (.chainCount hu))
    (.ite (.answer (.st (hrule _ (.journalCommand hu)))) (.answer (.st (hrule _ hu))))))))

protected theorem Kept.runCommand (h : Kept cells s) {code p f rule} (hrule : ∀ t, Kept cells t → KeptReply cells (rule t)) :
    Kept cells (runCommand code p f rule s) :=
  .ite (.runRequest h (fun _ ht => .commandBody ht (fun _ ht' => hrule _ ht'))) h

protected theorem KeptReply.refuse (h : Kept cells s) {n} : KeptReply cells (refuse n s) := .mk h

protected theorem KeptReply.malformed (h : Kept cells s) {o} : KeptReply cells (malformed o s) := .mk h

protected theorem KeptReply.done (h : Kept cells s) {payload} : KeptReply cells (done payload s) := .mk h

protected theorem KeptReply.accepted (h : Kept cells s) {payload} : KeptReply cells (accepted payload s) := .mk h

protected theorem Kept.sendEvent (h : Kept cells s) {kind addr payload hw} : Kept cells (sendEvent kind addr payload hw s) :=
  .snd (.enqueue (.snd (.enqueue (.upd h))))

/-! ### The operations of Machine/Chain -/

protected theorem Kept.measureEye (h : Kept cells s) {p} : Kept cells (measureEye p s) := .drawn (.setCPort h)

protected theorem Keeps.execChainLinkUp (h : Kept cells s) {p} : Keeps cells (execChainLinkUp p s) :=
  .ite (.next h) (.next (.measureEye (.chainPortCount (.setCPort h))))

protected theorem Kept.failFrames (h : Kept cells s) {p l} : Kept cells (failFrames p l s) := .forEach h (fun _ _ ht => .ite (.answerBroken ht) ht)

protected theorem Kept.linkDown (h : Kept cells s) {p} : Kept cells (linkDown p s) := .failFrames (.setCPort (.breakHop h))

protected theorem Keeps.execChainLinkDown (h : Kept cells s) {p} : Keeps cells (execChainLinkDown p s) := .ite (.next (.linkDown h)) (.next h)

protected theorem Keeps.execChainLinkRetry (h : Kept cells s) {p} : Keeps cells (execChainLinkRetry p s) := .ite (.next h) (.next (.setCPort h))

protected theorem Keeps.execChainFrameReject (h : Kept cells s) {p rx} : Keeps cells (execChainFrameReject p rx s) :=
  .ite (.next h) (.ite (.next (.chainPortCount h)) (.ite (.next (.chainPortCount h)) (.ite (.next (.raiseLimited (.chainPortCount h))) (.ite
    (.next (.snd (.receive h))) (.ite (.next (.ackFrame (.chainPortCount (.snd (.receive h))))) (.ite (.next (.ackFrame (.snd (.receive h))))
    (.next h)))))))

protected theorem Keeps.execChainFrameForward (h : Kept cells s) {p f} : Keeps cells (execChainFrameForward p f s) :=
  .ite (.next h) (.ite (.next (.snd (.receive h))) (.ite (.next (.snd (.forwardFrame (.snd (.receive h))))) (.next (.ackFrame (.ite
    (.chainPortCount (.snd (.forwardFrame (.snd (.receive h))))) (.snd (.forwardFrame (.snd (.receive h)))))))))

protected theorem Keeps.execHopAckReceive (h : Kept cells s) {p f} : Keeps cells (execHopAckReceive p f s) :=
  .ite (.next h) (.ite (.next (.snd (.receive h))) (.next (.pump (.setCPort (.snd (.receive h))))))

protected theorem Keeps.execHopResend (h : Kept cells s) {p} : Keeps cells (execHopResend p s) := by
  unfold execHopResend
  extract_lets c
  split
  · exact .next h
  · exact .ite (.next (.pump (.failFrames (.setCPort h)))) (.ite (.next (.chainPortCount (.emit (.setCPort h)))) (.next (.pump (.failFrames
      (.breakHop (.chainPortCount (.setCPort h)))))))

protected theorem Keeps.execEnumerate (h : Kept cells s) {p f} : Keeps cells (execEnumerate p f s) :=
  .ite (.next h) (.ite (.next (.snd (.receive h))) (.ite (.next (.ackFrame (.chainPortCount (.snd (.receive h))))) (.ite (.next (.chainPortCount
    (.snd (.receive h)))) (.next (.ackFrame (.ite (.snd (.enqueue (.upd (.snd (.receive h))))) (.chainPortCount (.upd (.snd (.receive h))))))))))

protected theorem Keeps.execHeadSelfEnumerate (h : Kept cells s) : Keeps cells (execHeadSelfEnumerate s) :=
  .ite (.next h) (.next (.snd (.enqueue (.upd h))))

protected theorem Keeps.execConfirm (h : Kept cells s) {p f} : Keeps cells (execConfirm p f s) :=
  .ite (.next h) (.ite (.next (.snd (.receive h))) (.ite (.next (.ackFrame (.chainPortCount (.snd (.receive h))))) (.ite (.next (.chainPortCount
    (.snd (.receive h)))) (.next (.ackFrame (.ite (.snd (.enqueue (.snd (.receive h)))) (.chainPortCount (.snd (.receive h)))))))))

protected theorem Keeps.execRepeatedResponse (h : Kept cells s) {p f} : Keeps cells (execRepeatedResponse p f s) :=
  .ite (.next (.runRequest h fun _ ht => ht)) (.next h)

protected theorem Keeps.execQuietTurnOff (h : Kept cells s) {p} : Keeps cells (execQuietTurnOff p s) :=
  .ite (.next h) (.next (.ite (.setCPort (.settleQuiet h)) (.settleQuiet h)))

protected theorem Keeps.execKeepalive (h : Kept cells s) {p} : Keeps cells (execKeepalive p s) := .ite (.next (.chainPortCount h)) (.next h)

protected theorem Keeps.execWakeDetect (h : Kept cells s) {p} : Keeps cells (execWakeDetect p s) :=
  .ite (.next (.chainPortCount (.setCPort h))) (.ite (.next (.chainPortCount (.chainPortCount h))) (.next h))

protected theorem Keeps.execFalseWake (h : Kept cells s) {p} : Keeps cells (execFalseWake p s) :=
  .ite (.next (.raiseLimited (.chainPortCount (.setCPort h)))) (.next h)

protected theorem Keeps.execBlockLock (h : Kept cells s) {p} : Keeps cells (execBlockLock p s) := .ite (.next (.measureEye (.setCPort h))) (.next h)

protected theorem Keeps.execPartnerDriverOff (h : Kept cells s) {p} : Keeps cells (execPartnerDriverOff p s) := .ite (.next (.setCPort h)) (.next h)

protected theorem Keeps.execBeacon (h : Kept cells s) : Keeps cells (execBeacon s) := .ite (.next (.sendEvent h)) (.next h)

protected theorem Keeps.execUnknownCommand (h : Kept cells s) {p f} : Keeps cells (execUnknownCommand p f s) :=
  .ite (.next (.runRequest h (fun _ ht => .ite (.answer ht) (.answer ht)))) (.next h)

/-! ### The operations of Machine/Lines -/

protected theorem Kept.clearUpsets (h : Kept cells s) {line} : Kept cells (clearUpsets line s) := by
  obtain ⟨⟨hdata, hupsets, hrest⟩, hkept⟩ := h
  exact ⟨⟨hdata, Map.wf_filter _ hupsets, hrest⟩, hkept⟩

protected theorem Kept.writeBytes (h : Kept cells s) {line o bs} : Kept cells (writeBytes line o bs s) :=
  ⟨stored_writeBytes h.stored line o bs, h.otp⟩

protected theorem Kept.writeLine (h : Kept cells s) {line bs} : Kept cells (writeLine line bs s) := .writeBytes h

protected theorem Kept.dropMisread (h : Kept cells s) {line} : Kept cells (dropMisread line s) := h.same

protected theorem Kept.settleMisread (h : Kept cells s) {line} : Kept cells (settleMisread line s) := by
  unfold settleMisread
  split
  · exact .dropMisread (.writeLine h)
  · exact h

protected theorem Kept.addUpsets (h : Kept cells s) {line es} : Kept cells (addUpsets line es s) := by
  unfold addUpsets
  refine .forEach h fun e t ht => ?_
  obtain ⟨⟨hdata, hupsets, hrest⟩, hkept⟩ := ht
  exact ⟨⟨hdata, Map.wf_modify (d := 0) (k := line * 72 + e.1.val) (f := (· ^^^ e.2)) hupsets, hrest⟩, hkept⟩

protected theorem Kept.setChan (h : Kept cells s) {c v} : Kept cells (setChan c v s) := h.same

protected theorem Kept.putPoison (h : Kept cells s) {line} : Kept cells (putPoison line s) := ⟨stored_putPoison h.stored line, h.otp⟩

protected theorem Kept.countPoison (h : Kept cells s) : Kept cells (countPoison s) := h.same

protected theorem Kept.poisonLine (h : Kept cells s) {line} : Kept cells (poisonLine line s) := .ite (.putPoison h) (.countPoison (.putPoison h))

protected theorem Kept.startRetirement (h : Kept cells s) {ch} : Kept cells (startRetirement ch s) := .ite h (.raise (.upd h))

protected theorem Kept.countBurst (h : Kept cells s) {line d} : Kept cells (countBurst line d s) := by
  unfold countBurst
  extract_lets ch c c1
  split
  · exact .setChan h
  · exact .ite (.startRetirement (.setChan h)) (.setChan h)
  · exact .setChan h

protected theorem KeptSnd.decodeLine (h : Kept cells s) {line path} : KeptSnd cells (decodeLine s line path) := .mk (.countBurst (.drawn h))

protected theorem Kept.countTenantAt (h : Kept cells s) {dma n} : Kept cells (countTenantAt dma n s) := by
  unfold countTenantAt
  split
  · exact .tenantCount h
  · exact h

protected theorem KeptSnd.logCorrection (h : Kept cells s) {addr src lanes nbits erasure} :
    KeptSnd cells (logCorrection addr src lanes nbits erasure s) := by
  unfold logCorrection
  extract_lets now pass a put
  split
  · split
    · exact .mk h
    · exact .mk (.upd h)
  · split
    · exact .mk (.upd h)
    · exact .mk (.headCount h)

protected theorem Kept.noteCorrection (h : Kept cells s) {ch addr src isData lanes nbits erasure} :
    Kept cells (noteCorrection ch addr src isData lanes nbits erasure s) :=
  .ite (.raise (.snd (.logCorrection (.chanCount h)))) (.snd (.logCorrection (.chanCount h)))

protected theorem Kept.earlyScrub (h : Kept cells s) {ch line dma} : Kept cells (earlyScrub ch line dma s) := .ite (.setChan h) (.headCount h)

protected theorem KeptSnd.readSystem (h : Kept cells s) {line detail} : KeptSnd cells (readSystem line detail s) := by
  unfold readSystem
  extract_lets ch d
  split
  · exact .mk (.snd (.decodeLine h))
  · exact .mk (.earlyScrub (.noteCorrection (.snd (.decodeLine h))))
  · exact .mk (.raiseDetail (.chanCount (.snd (.decodeLine h))))

protected theorem KeptSnd.readLines (h : Kept cells s) {detail lose lines} (hlose : ∀ x t, Kept cells t → Kept cells (lose x t)) :
    KeptSnd cells (readLines detail lose lines s) := by
  unfold readLines
  refine .foldl (.mk h) fun acc line ht => ?_
  dsimp only
  split
  · exact .mk (.snd (.readSystem (.snd ht)))
  · exact .mk (hlose _ _ (.snd (.readSystem (.snd ht))))

protected theorem Kept.viewOf (h : Kept cells s) {l} : Kept cells (viewOf l s) := .forEach h (fun _ _ ht => .writeLine ht)

protected theorem Kept.waits (h : Kept cells s) {l} : Kept cells { s with dram := { s.dram with waits := l } } := ⟨h.stored, h.otp⟩

protected theorem Kept.writeSystem (h : Kept cells s) {line o bs} : Kept cells (writeSystem line o bs s) := .ite h.waits (.writeBytes h)

protected theorem Kept.writeMeta (h : Kept cells s) {ch loc minor tag} : Kept cells (writeMeta ch loc minor tag s) := by
  unfold writeMeta
  extract_lets m s1
  have h1 : Kept cells s1 := .writeBytes (.settleMisread h)
  split
  · exact .writeBytes h1
  · exact h1

protected theorem Kept.writeData (h : Kept cells s) {ch loc ct} : Kept cells (writeData ch loc ct s) := by
  unfold writeData
  extract_lets s1
  have h1 : Kept cells s1 := .writeLine h
  split
  · exact .writeLine h1
  · exact h1

protected theorem Kept.putPoisonData (h : Kept cells s) {ch loc} : Kept cells (putPoisonData ch loc s) := by
  unfold putPoisonData
  extract_lets s1
  have h1 : Kept cells s1 := .putPoison h
  split
  · exact .putPoison h1
  · exact h1

protected theorem Kept.poisonNew (h : Kept cells s) {ch loc dma} : Kept cells (poisonNew ch loc dma s) :=
  .ite h (.countTenantAt (.countPoison (.putPoisonData h)))

protected theorem Kept.poisonFound (h : Kept cells s) {ch loc dma} : Kept cells (poisonFound ch loc dma s) :=
  .ite h (.countTenantAt (.countPoison (.putPoisonData h)))

protected theorem Kept.tagMismatch (h : Kept cells s) {stored ch loc dma} : Kept cells (tagMismatch stored ch loc dma s) :=
  .raise (.chanCount (.ite (.poisonFound h) h))

protected theorem Kept.tagFailure (h : Kept cells s) {ch loc dma} : Kept cells (tagFailure ch loc dma s) := .tagMismatch h

protected theorem Kept.writePageWord (h : Kept cells s) {page w} : Kept cells (writePageWord page w s) := .writeBytes (.settleMisread h)

protected theorem Kept.setKey (h : Kept cells s) {k v} : Kept cells (setKey k v s) := h.same

protected theorem Kept.useRoundKeys (h : Kept cells s) {ch keyId} : Kept cells (useRoundKeys ch keyId s) := h.same

protected theorem Kept.dropRoundKeys (h : Kept cells s) {keyId} : Kept cells (dropRoundKeys keyId s) := h.same

protected theorem Kept.storeLine (h : Kept cells s) {ch loc dma keyId major minor plain} :
    Kept cells (storeLine ch loc dma keyId major minor plain s) :=
  .useRoundKeys (.writeMeta (.writeData h))

/-! ### The operations of Machine/Journal -/

protected theorem Kept.markJournaled (h : Kept cells s) {r seq} : Kept cells (markJournaled r seq s) := h.same

protected theorem Kept.invalidateSlot (h : Kept cells s) {q} : Kept cells (invalidateSlot q s) :=
  .ite (.raise (.systemBursts (.writeLine (.upd h)))) (.systemBursts (.writeLine (.upd h)))

protected theorem Kept.renumberJournal (h : Kept cells s) : Kept cells (renumberJournal s) := by
  unfold renumberJournal
  split
  · exact h
  · exact .settleJournal (.upd h)

protected theorem Kept.writeHead (h : Kept cells s) {e q rest} : Kept cells (writeHead e q rest s) := by
  unfold writeHead
  dsimp only
  refine .settleJournal ?_
  split
  · exact .markJournaled (.systemBursts (.writeLine (.upd h)))
  · exact .systemBursts (.writeLine (.upd h))

protected theorem KeptSome.journalStep (h : Kept cells s) : KeptSome cells (journalStep s) := by
  unfold journalStep
  split
  · exact .none
  · split
    · exact .none
    · exact .ite .none (.some (.writeHead h))

protected theorem Keeps.execJournalWrite (h : Kept cells s) : Keeps cells (execJournalWrite s) := .next (.getD (.journalStep h) h)

protected theorem Kept.flushJournal (h : Kept cells s) {n} : Kept cells (flushJournal n s) := by
  induction n generalizing s with
  | zero => exact h
  | succ n ih =>
    have hstep : KeptSome cells (journalStep s) := .journalStep h
    unfold flushJournal
    cases he : journalStep s with
    | none => exact h
    | some t => exact ih (he ▸ hstep).get

/-! ### The operations of Machine/PortOps -/

protected theorem Kept.setPort (h : Kept cells s) {p v} : Kept cells (setPort p v s) := h.same

protected theorem Kept.setLane (h : Kept cells s) {l v} : Kept cells (setLane l v s) := h.same

protected theorem Kept.lateTag (h : Kept cells s) {r} : Kept cells (lateTag r s) := .upd (.tagFailure (.upd h))

protected theorem Kept.transmit (h : Kept cells s) {p prio f} : Kept cells (transmit p prio f s) := by
  unfold transmit
  extract_lets s0 s1 s2
  have h0 : Kept cells s0 := .forEach h (fun _ _ ht => .lateTag ht)
  have h1 : Kept cells s1 := .portCount (.upd h0)
  have h2 : Kept cells s2 := .ite (.portCount h1) h1
  split
  · exact .ite h2 (.tenantCount h2)
  · exact .portCount h2
  · exact .portCount h2
  · exact .portCount h2
  · exact h2

protected theorem Kept.sendFrame (h : Kept cells s) {p prio f} : Kept cells (sendFrame p prio f s) := by
  unfold sendFrame
  extract_lets r
  refine .ite h ?_
  split
  · exact .transmit h
  · exact .ite (.portCount h) (.ite (.setPort h) (.transmit h))

protected theorem Kept.flushPrio (h : Kept cells s) {p prio} : Kept cells (flushPrio p prio s) :=
  .ite h (.forEach (.setPort h) (fun _ _ ht => .transmit ht))

protected theorem Kept.sendControl (h : Kept cells s) {q p f} : Kept cells (sendControl q p f s) := by
  unfold sendControl
  split
  · exact .sendFrame h
  · exact h

protected theorem Kept.announce (h : Kept cells s) {p} : Kept cells (announce p s) := by
  unfold announce
  split
  · exact .ite (.sendFrame (.ite (.sendFrame h) h)) (.ite (.sendFrame h) h)
  · exact h

protected theorem Kept.setQp (h : Kept cells s) {qpn v} : Kept cells (setQp qpn v s) := h.same

protected theorem Kept.keepOrphans (h : Kept cells s) {qpn tenant l} : Kept cells (keepOrphans qpn tenant l s) := h.same

protected theorem Kept.errorQp (h : Kept cells s) {qpn} : Kept cells (errorQp qpn s) := .ite h (.tenantCount (.setQp h))

protected theorem Kept.freeQp (h : Kept cells s) {qpn hold} : Kept cells (freeQp qpn hold s) := h.same

protected theorem Kept.interfaceLost (h : Kept cells s) {q} : Kept cells (interfaceLost q s) :=
  .journalEvent (.forEach h (fun _ _ ht => .freeQp (.errorQp ht)))

protected theorem Kept.changePort (h : Kept cells s) {p f} : Kept cells (changePort p f s) :=
  .ite (.interfaceLost (.ite (.announce (.forEach (.setPort h) (fun _ _ ht => .setPort ht))) (.forEach (.setPort h)
    (fun _ _ ht => .setPort ht)))) (.ite (.announce (.forEach (.setPort h) (fun _ _ ht => .setPort ht))) (.forEach (.setPort h)
    (fun _ _ ht => .setPort ht)))

protected theorem Kept.queueLane (h : Kept cells s) {urgent l} : Kept cells (queueLane urgent l s) := .ite (.ite (.upd h) h) (.ite (.upd h) h)

protected theorem Kept.abandonRecal (h : Kept cells s) {lanes} : Kept cells (abandonRecal lanes s) := by
  unfold abandonRecal
  dsimp only
  split
  · exact .ite (.setLane (.upd (.upd h))) (.upd h)
  · exact .upd h

protected theorem Kept.queueByTemp (h : Kept cells s) : Kept cells (queueByTemp s) := .forEach h (fun _ _ ht => .ite (.queueLane ht) ht)

/-! ### The operations of Machine/MemOps -/

protected theorem Kept.setClassQ (h : Kept cells s) {ch c l} : Kept cells (setClassQ ch c l s) := h.same

protected theorem Kept.setBankQ (h : Kept cells s) {ch b l} : Kept cells (setBankQ ch b l s) := h.same

protected theorem Kept.setInFlight (h : Kept cells s) {ch l} : Kept cells (setInFlight ch l s) := h.same

protected theorem Kept.setInCrypto (h : Kept cells s) {ch l} : Kept cells (setInCrypto ch l s) := h.same

protected theorem Kept.setHalves (h : Kept cells s) {ch l} : Kept cells (setHalves ch l s) := h.same

protected theorem Kept.setArrivedVisits (h : Kept cells s) {ch l} : Kept cells (setArrivedVisits ch l s) := h.same

protected theorem Kept.setCls (h : Kept cells s) {ch c v} : Kept cells (setCls ch c v s) := h.same

protected theorem Kept.setBank (h : Kept cells s) {ch b v} : Kept cells (setBank ch b v s) := h.same

protected theorem Kept.lockLine (h : Kept cells s) {dma} : Kept cells (lockLine dma s) := h.same

protected theorem Kept.unlockLine (h : Kept cells s) {dma} : Kept cells (unlockLine dma s) := h.same

protected theorem Kept.lockVisit (h : Kept cells s) {r} : Kept cells (lockVisit r s) := h.same

protected theorem Kept.unlockVisit (h : Kept cells s) {r} : Kept cells (unlockVisit r s) := h.same

protected theorem Kept.enterClass (h : Kept cells s) {r} : Kept cells (enterClass r s) := .ite (.upd (.setClassQ h)) (.setClassQ h)

protected theorem Kept.writeSettled (h : Kept cells s) {r} : Kept cells (writeSettled r s) := h.same

protected theorem Kept.drainList (h : Kept cells s) {l blocked} : Kept cells (drainList l blocked s) := by
  induction l generalizing blocked s with
  | nil => exact h
  | cons r l ih => exact .ite (ih (.upd h)) (ih (.enterClass h))

protected theorem Kept.drainBacklog (h : Kept cells s) : Kept cells (drainBacklog s) := .drainList (.upd h)

protected theorem Kept.submit (h : Kept cells s) {l} : Kept cells (submit l s) := .drainBacklog (.upd h)

protected theorem Kept.binCount (h : Kept cells s) {ch c bin} : Kept cells (binCount ch c bin s) := .ite h (.ite (.raise (.upd h)) (.upd h))

protected theorem Kept.completeReq (h : Kept cells s) {ch r} : Kept cells (completeReq ch r s) := .binCount (.classCount (.setCls h))

protected theorem Kept.sendRdma (h : Kept cells s) {qpn opcode psn syn payload orig tags} :
    Kept cells (sendRdma qpn opcode psn syn payload orig tags s) := by
  unfold sendRdma
  extract_lets q
  split
  · exact h
  · exact .sendFrame h

protected theorem Kept.sendAck (h : Kept cells s) {qpn} : Kept cells (sendAck qpn s) := .setQp (.sendRdma h)

protected theorem Kept.sendNak (h : Kept cells s) {qpn psn syn} : Kept cells (sendNak qpn psn syn s) := .tenantCount (.setQp (.sendRdma h))

protected theorem Kept.countDone (h : Kept cells s) {qpn waited} : Kept cells (countDone qpn waited s) := h.same

protected theorem Kept.settleOps (h : Kept cells s) {qpn n} : Kept cells (settleOps qpn n s) := by
  induction n generalizing s with
  | zero => exact h
  | succ n ih =>
    unfold settleOps
    dsimp only
    split
    · exact h
    · exact .ite (ih (.sendNak (.setQp h))) (.ite (ih (.setQp h)) h)

protected theorem Kept.settleQp (h : Kept cells s) {qpn} : Kept cells (settleQp qpn s) := .ite (.sendAck (.settleOps h)) (.settleOps h)

protected theorem Kept.dropOps (h : Kept cells s) {qpn keep} : Kept cells (dropOps qpn keep s) := h.same

protected theorem Kept.enterError (h : Kept cells s) {qpn keep} : Kept cells (enterError qpn keep s) := .ite (.dropOps h) (.errorQp (.dropOps h))

protected theorem Kept.changeOp (h : Kept cells s) {r f} : Kept cells (changeOp r f s) := by
  unfold changeOp
  extract_lets q
  split
  · exact .setQp h
  · exact h

protected theorem Kept.linePasses (h : Kept cells s) {r} : Kept cells (linePasses r s) := .changeOp h

protected theorem Kept.endOrphan (h : Kept cells s) {r} : Kept cells (endOrphan r s) := h.same

protected theorem Kept.countApplied (h : Kept cells s) {tenant o} : Kept cells (countApplied tenant o s) :=
  .ite (.tenantCount (.tenantCount (.tenantCount h))) (.tenantCount (.tenantCount h))

protected theorem Kept.orphanLineDone (h : Kept cells s) {r} : Kept cells (orphanLineDone r s) := by
  unfold orphanLineDone
  split
  · exact h
  · exact .ite (.countApplied (.endOrphan h)) (.upd h)

protected theorem Kept.writeLineDone (h : Kept cells s) {r} : Kept cells (writeLineDone r s) := by
  unfold writeLineDone
  split
  · exact .orphanLineDone h
  · exact .ite (.settleQp (.countDone (.countApplied (.changeOp h)))) (.changeOp h)

protected theorem Kept.countRefusal (h : Kept cells s) {r} : Kept cells (countRefusal r s) := by
  unfold countRefusal
  split
  · exact .ite h (.tenantCount h)
  · exact .getD (.map (fun _ => .tenantCount h)) h

protected theorem Kept.failOp (h : Kept cells s) {r} : Kept cells (failOp r s) := by
  unfold failOp
  extract_lets q
  split
  · exact .endOrphan h
  · split
    · exact h
    · exact .ite (.enterError (.setQp h)) (.settleQp (.enterError (.upd (.setQp h))))

protected theorem Kept.freshHold (h : Kept cells s) {hit key} : Kept cells (freshHold hit key s) := .ite h (.upd h)

protected theorem Kept.touchMeta (h : Kept cells s) {ch loc} : Kept cells (touchMeta ch loc s) := .upd (.freshHold h)

protected theorem Kept.touchPage (h : Kept cells s) {page} : Kept cells (touchPage page s) := .upd (.freshHold h)

protected theorem Kept.setRegion (h : Kept cells s) {i v} : Kept cells (setRegion i v s) := h.same

protected theorem Kept.markMoved (h : Kept cells s) {page idx} : Kept cells (markMoved page idx s) := h.same

protected theorem Kept.startRewrite (h : Kept cells s) {page region major moved} : Kept cells (startRewrite page region major moved s) :=
  .tenantCount (.upd h)

protected theorem Kept.putLine (h : Kept cells s) {region dma plain} : Kept cells (putLine region dma plain s) := by
  unfold putLine
  extract_lets home page idx minor k
  split
  · exact .ite (.storeLine h) (.storeLine (.markMoved h))
  · exact .ite (.storeLine h) (.storeLine (.startRewrite h))

protected theorem Kept.formAtomic (h : Kept cells s) {r plain} : Kept cells (formAtomic r plain s) := by
  unfold formAtomic
  extract_lets q v
  split
  · exact .getD (.map (fun _ => .tenantCount (.endOrphan h))) h
  · exact .tenantCount (.setQp h)

protected theorem Kept.autoPrecharge (h : Kept cells s) {ch b} : Kept cells (autoPrecharge ch b s) := by
  unfold autoPrecharge
  extract_lets k
  split
  · exact h
  · exact .ite h (.setBank h)

protected theorem Kept.releaseBank (h : Kept cells s) {ch b wrote} : Kept cells (releaseBank ch b wrote s) :=
  .autoPrecharge (.setBank (.ite (.setChan h) h))

protected theorem Kept.apartFrom (h : Kept cells s) {ch b f} (hf : ∀ t, Kept cells t → Kept cells (f t)) : Kept cells (apartFrom ch b f s) :=
  .setBank (.setChan (hf _ h))

protected theorem Kept.served (h : Kept cells s) {ch c} : Kept cells (served ch c s) := .classCount h

protected theorem Kept.countWork (h : Kept cells s) {ch r} : Kept cells (countWork ch r s) := .classCount h

protected theorem Kept.endCarry (h : Kept cells s) {ch r wrote} : Kept cells (endCarry ch r wrote s) := .releaseBank (.unlockVisit h)

protected theorem Kept.carryWith (h : Kept cells s) {ch r put} (hput : ∀ x0 t, Kept cells t → Kept cells (put x0 t)) :
    Kept cells (carryWith ch r put s) := by
  unfold carryWith
  split
  · exact h
  · exact .ite h (.countWork (.served (hput _ _ (.markMoved h))))

protected theorem Kept.finishCarry (h : Kept cells s) {ch r plain} : Kept cells (finishCarry ch r plain s) :=
  .endCarry (.carryWith h (fun _ _ ht => .storeLine ht))

protected theorem Kept.carryPoisoned (h : Kept cells s) {ch r} : Kept cells (carryPoisoned ch r s) :=
  .endCarry (.carryWith h (fun _ _ ht => .writeMeta ht))

protected theorem Kept.dropReq (h : Kept cells s) {ch r} : Kept cells (dropReq ch r s) :=
  .ite (.carryPoisoned h) (.failOp (.completeReq (.ite (.releaseBank (.ite (.writeSettled (.unlockLine h)) h)) (.ite (.writeSettled
    (.unlockLine h)) h))))

protected theorem Kept.refusePoison (h : Kept cells s) {ch r} : Kept cells (refusePoison ch r s) := .dropReq (.ite h (.countRefusal (.chanCount h)))

protected theorem Kept.refuseUncorrectable (h : Kept cells s) {stored ch loc r} : Kept cells (refuseUncorrectable stored ch loc r s) :=
  .dropReq (.ite (.countRefusal (.raise (.chanCount (.ite (.poisonFound h) h)))) (.raise (.chanCount (.ite (.poisonFound h) h))))

protected theorem Kept.demandCorrection (h : Kept cells s) {ch loc r lanes nb er} : Kept cells (demandCorrection ch loc r lanes nb er s) :=
  .ite (.earlyScrub (.noteCorrection h)) (.noteCorrection h)

protected theorem KeptSnd.decodeHalf (h : Kept cells s) {ch b path} : KeptSnd cells (decodeHalf ch b path s) := by
  unfold decodeHalf
  dsimp only
  split
  · exact .mk (.useRoundKeys (.countBurst (.drawn h)))
  · exact .mk (.useRoundKeys (.demandCorrection (.countBurst (.drawn h))))
  · exact .mk (.refusePoison (.countBurst (.drawn h)))
  · exact .mk (.refuseUncorrectable (.countBurst (.drawn h)))

protected theorem Kept.stageLine (h : Kept cells s) {r plain t} : Kept cells (stageLine r plain t s) := .changeOp h

protected theorem Kept.finishRmw (h : Kept cells s) {ch r plain} : Kept cells (finishRmw ch r plain s) := by
  unfold finishRmw
  extract_lets home w s1 s2 s3
  have h1 : Kept cells s1 := by
    cases hw : w <;> simp only [s1, hw]
    · exact h
    · exact .served (.putLine h)
  have h3 : Kept cells s3 := .completeReq (.releaseBank (.writeSettled (.unlockLine h1)))
  exact .ite (.tenantCount h3) h3

protected theorem Kept.finishHalf (h : Kept cells s) {ch r plain} : Kept cells (finishHalf ch r plain s) := .ite (.finishCarry h) (.finishRmw h)

protected theorem Kept.verifiedHalf (h : Kept cells s) {r plain} : Kept cells (verifiedHalf r plain s) :=
  .ite (.formAtomic h) (.ite h (.writeLineDone h))

protected theorem Kept.initLine (h : Kept cells s) {dma} : Kept cells (initLine dma s) := by
  unfold initLine
  split
  · exact h
  · exact .storeLine (.upd h)

protected theorem Kept.eraseWords (h : Kept cells s) {i line} : Kept cells (eraseWords i line s) :=
  .ite h (.setRegion (.forEach h (fun _ _ ht => .writePageWord ht)))

/-! ### The operations of Machine/Counters -/

protected theorem Kept.changeRekey (h : Kept cells s) {region f} : Kept cells (changeRekey region f s) := h.same

protected theorem Kept.journalRekey (h : Kept cells s) {region page cause} : Kept cells (journalRekey region page cause s) := .journalEvent h

protected theorem Kept.startRekey (h : Kept cells s) {region page cause} : Kept cells (startRekey region page cause s) := by
  unfold startRekey
  extract_lets r
  split
  · exact .ite (.journalRekey (.changeRekey h)) (.ite (.changeRekey h) (.changeRekey h))
  · exact .journalRekey (.raise (.setRegion (.upd h)))

protected theorem Kept.noteDue (h : Kept cells s) {page region} : Kept cells (noteDue page region s) := .ite h (.upd h)

protected theorem Kept.rewriteLost (h : Kept cells s) {page idx region} : Kept cells (rewriteLost page idx region s) := by
  unfold rewriteLost
  extract_lets w
  split
  · exact .ite (.noteDue h) h
  · exact .ite h (.ite (.startRewrite h) (.noteDue h))

protected theorem Kept.loseEntry (h : Kept cells s) {ch kind loc} : Kept cells (loseEntry ch kind loc s) := by
  unfold loseEntry
  extract_lets dma s1
  have h1 : Kept cells s1 := .raise (.chanCount (.poisonNew h))
  split
  · exact .rewriteLost h1
  · exact h1

protected theorem Kept.loseMeta (h : Kept cells s) {ch line kind} : Kept cells (loseMeta ch line kind s) :=
  .forEach (.raise (.chanCount (.writeLine h))) (fun _ _ ht => .loseEntry ht)

protected theorem Kept.losePage (h : Kept cells s) {page} : Kept cells (losePage page s) := by
  unfold losePage
  split
  · exact .startRekey (.forEach h (fun _ _ ht => .poisonNew ht))
  · exact .writePageWord h

protected theorem Kept.losePageWords (h : Kept cells s) {ch sl} : Kept cells (losePageWords ch sl s) :=
  .forEach (.writeLine h) (fun _ _ ht => .losePage ht)

protected theorem Kept.counterCorrection (h : Kept cells s) {r line lanes nb er} : Kept cells (counterCorrection r line lanes nb er s) :=
  .ite (.noteCorrection h) (.earlyScrub (.noteCorrection h))

protected theorem Kept.holdDecoded (h : Kept cells s) {key line data} : Kept cells (holdDecoded key line data s) :=
  .ite (.ite (.dropMisread h) h) (.upd (.ite (.dropMisread h) h))

protected theorem KeptSnd.decodeMeta (h : Kept cells s) {ch r es} : KeptSnd cells (decodeMeta ch r es s) := by
  unfold decodeMeta
  extract_lets loc line d
  split
  · exact .mk (.holdDecoded (.snd (.decodeLine (.addUpsets h))))
  · exact .mk (.counterCorrection (.holdDecoded (.snd (.decodeLine (.addUpsets h)))))
  · exact .mk (.loseMeta (.snd (.decodeLine (.addUpsets h))))

protected theorem Kept.fetchMeta (h : Kept cells s) {ch r} : Kept cells (fetchMeta ch r s) := .ite (.touchMeta h) (.snd (.decodeMeta (.touchMeta h)))

protected theorem KeptSnd.readPageWord (h : Kept cells s) {r es path} : KeptSnd cells (readPageWord r es path s) := by
  unfold readPageWord
  extract_lets page w line key d
  have hd : Kept cells d.2 := .snd (.decodeLine (.addUpsets (.systemBursts h)))
  refine .ite (.mk (.touchPage h)) ?_
  split
  · exact .mk (.holdDecoded (.touchPage hd))
  · exact .mk (.counterCorrection (.holdDecoded (.touchPage hd)))
  · exact .mk (.losePageWords (.raise (.chanCount hd)))

protected theorem Kept.finishWrite (h : Kept cells s) {ch r} : Kept cells (finishWrite ch r s) := .completeReq (.writeSettled (.served (.putLine h)))

protected theorem Kept.applyLine (h : Kept cells s) {ch r passed} : Kept cells (applyLine ch r passed s) := by
  unfold applyLine
  extract_lets s0 s1 d
  have h0 : Kept cells s0 := .fetchMeta h
  have h1 : Kept cells s1 := .served (.ite h0 (.linePasses h0))
  have hd : Kept cells d.2 := .snd (.decodeHalf h1)
  refine .ite (.finishWrite (.ite h0 (.writeLineDone (.linePasses h0)))) (.ite h ?_)
  split
  · exact hd
  · exact .ite (.finishRmw (.verifiedHalf hd)) (.dropReq (.countRefusal (.tagFailure hd)))

protected theorem Kept.applyWhole (h : Kept cells s) {ch r passed} : Kept cells (applyWhole ch r passed s) :=
  .ite (.failOp (.completeReq (.writeSettled (.unlockLine h)))) (.apartFrom h (fun _ ht => .applyLine ht))

/-! ### The operations of Machine/Engine -/

protected theorem Kept.setParlour (h : Kept cells s) {ch v} : Kept cells (setParlour ch v s) := h.same

protected theorem KeptSnd.choosePick (h : Kept cells s) {ch ok} : KeptSnd cells (choosePick s ch ok) := by
  unfold choosePick
  split
  · exact .mk h
  · split
    · exact .mk h
    · exact .mk (.setChan h)

protected theorem Kept.noteColumn (h : Kept cells s) {ch b write} : Kept cells (noteColumn ch b write s) := h.same

protected theorem Kept.lastColumn (h : Kept cells s) {ch b e} : Kept cells (lastColumn ch b e s) := by
  unfold lastColumn
  extract_lets r
  split
  · exact .autoPrecharge (.systemBursts (.setArrivedVisits h))
  · exact .autoPrecharge (.finishWrite h)
  · exact .autoPrecharge (.countWork (.served (.initLine h)))
  · exact .autoPrecharge (.countWork (.served (.unlockVisit (.eraseWords h))))
  · exact .autoPrecharge (.systemBursts (.setInFlight h))
  · exact .ite (.setBank (.served (.setInFlight h))) (.autoPrecharge (.served (.setInFlight h)))

protected theorem Kept.firstColumn (h : Kept cells s) {ch b i e} : Kept cells (firstColumn ch b i e s) :=
  .ite (.noteColumn (.setBankQ (.snd (.decodeMeta h)))) (.ite (.setChan (.noteColumn (.setBankQ h))) (.lastColumn (.noteColumn (.setBankQ h))))

protected theorem KeptSnd.columnCommand (h : Kept cells s) {ch} : KeptSnd cells (columnCommand ch s) := by
  have hpick : KeptSnd cells (choosePick s ch (columnEligible s ch)) := .choosePick h
  unfold columnCommand
  refine .ite (.mk (.setChan h)) ?_
  split
  · exact .mk (.lastColumn (.noteColumn (.setChan h)))
  · split
    · next he => exact .mk (.firstColumn (he ▸ hpick).get)
    · next he => exact .mk (he ▸ hpick).get

protected theorem Kept.activate (h : Kept cells s) {ch b row} : Kept cells (activate ch b row s) := h.same

protected theorem Kept.sampleRow (h : Kept cells s) {ch b row} : Kept cells (sampleRow ch b row s) := .ite (.setBank (.setChan h)) (.setChan h)

protected theorem Kept.issueRefresh (h : Kept cells s) {ch b} : Kept cells (issueRefresh ch b s) := h.same

protected theorem Kept.issueNeighbour (h : Kept cells s) {ch b} : Kept cells (issueNeighbour ch b s) := h.same

protected theorem Kept.precharge (h : Kept cells s) {ch b} : Kept cells (precharge ch b s) := h.same

protected theorem KeptAct.idleCommand {s : State} {ch b} : KeptAct cells (idleCommand s ch b) := by
  unfold idleCommand
  refine .ite .none ?_
  split
  · exact .ite (.some fun _ ht => .precharge ht) .none
  · exact .ite .none (.ite (.ite (.some fun _ ht => .issueNeighbour ht) .none) (.ite (.some fun _ ht => .issueRefresh ht) .none))

protected theorem KeptAct.forcedCommand {s : State} {ch b} : KeptAct cells (forcedCommand s ch b) := by
  unfold forcedCommand
  refine .ite .none ?_
  split
  · exact .ite (.some fun _ ht => .precharge ht) .none
  · exact .ite .none (.ite (.some fun _ ht => .issueRefresh ht) (.ite (.some fun _ ht => .issueNeighbour ht) .none))

protected theorem Kept.rowCommand (h : Kept cells s) {ch} : Kept cells (rowCommand ch s) := by
  have hpick : KeptSnd cells (choosePick s ch (rowEligible s ch)) := .choosePick h
  unfold rowCommand
  split
  · next hf => exact (KeptAct.findSome? fun _ => .forcedCommand).act hf h
  · split
    · next he =>
      rw [he] at hpick
      split
      · exact .precharge (.snd hpick)
      · exact .sampleRow (.activate (.snd hpick))
    · next he =>
      rw [he] at hpick
      split
      · next hf => exact (KeptAct.findSome? fun _ => .idleCommand).act hf (.snd hpick)
      · split
        · exact .precharge (.snd hpick)
        · exact .snd hpick

protected theorem Keeps.execRefreshInterval (h : Kept cells s) {ch bank} : Keeps cells (execRefreshInterval ch bank s) :=
  .ite (.next h) (.ite (.next (.raiseLimited (.setBank h))) (.next (.setBank h)))

protected theorem Keeps.execNeighbourRefreshDeadline (h : Kept cells s) {ch bank} : Keeps cells (execNeighbourRefreshDeadline ch bank s) :=
  .ite (.next h) (.next (.raiseLimited (.setBank h)))

protected theorem Keeps.execExpressRowTimeout (h : Kept cells s) {ch bank} : Keeps cells (execExpressRowTimeout ch bank s) :=
  .ite (.next (.precharge h)) (.next h)

protected theorem Kept.seedSampler (h : Kept cells s) {ch} : Kept cells (seedSampler ch s) := .setChan (.snd (.generate h))

protected theorem Keeps.execRowDisturbReseed (h : Kept cells s) {ch} : Keeps cells (execRowDisturbReseed ch s) :=
  .ite (.next h) (.next (.seedSampler h))

/-! ### The operations of Machine/Heat -/

protected theorem Kept.setLayer (h : Kept cells s) {i v} : Kept cells (setLayer i v s) := h.same

protected theorem Kept.changeStep (h : Kept cells s) {i step} : Kept cells (changeStep i step s) := .ite h (.raise (.setLayer h))

protected theorem Kept.changeBase (h : Kept cells s) {st} : Kept cells (changeBase st s) := .ite h (.raise (.upd h))

protected theorem Kept.declareFailed (h : Kept cells s) {i code} : Kept cells (declareFailed i code s) := .ite h (.raise (.setLayer h))

protected theorem Kept.updateDisagree (h : Kept cells s) {i} : Kept cells (updateDisagree i s) := by
  unfold updateDisagree
  extract_lets y
  refine .ite h ?_
  split
  · exact h
  · exact .ite (.ite (.setLayer h) (.setLayer h)) (.ite (.raise (.setLayer h)) h)

protected theorem Kept.updateLayer (h : Kept cells s) {models acts i} : Kept cells (updateLayer models acts i s) :=
  .changeStep (.updateDisagree (.setLayer (.ite (.declareFailed h) h)))

protected theorem Kept.checkShutdown (h : Kept cells s) : Kept cells (checkShutdown s) := .ite h (.ite (.raise (.upd h)) (.raise (.upd h)))

protected theorem Kept.holdBands (h : Kept cells s) : Kept cells (holdBands s) := h.same

protected theorem Keeps.execThermalSample (h : Kept cells s) {base layers} : Keeps cells (execThermalSample base layers s) :=
  .ite (.next h) (.next (.queueByTemp (.holdBands (.checkShutdown (.upd (.forEach (.changeBase (.upd (.forEach (.upd h)
    (fun _ _ ht => .setLayer ht)))) (fun _ _ ht => .updateLayer ht)))))))

protected theorem Keeps.execThresholdRelease (h : Kept cells s) {dom} : Keeps cells (execThresholdRelease dom s) := by
  unfold execThresholdRelease
  refine .ite (.next h) ?_
  split
  · exact .next (.changeStep (.setLayer h))
  · exact .next (.changeBase h)

protected theorem Keeps.execRetentionFloorUpdate (h : Kept cells s) : Keeps cells (execRetentionFloorUpdate s) :=
  .next (.forEach h (fun _ _ ht => .setLayer ht))

protected theorem Keeps.execSensorInvalid (h : Kept cells s) {sensor} : Keeps cells (execSensorInvalid sensor s) := by
  unfold execSensorInvalid
  refine .ite (.next h) ?_
  split
  · exact .next (.upd h)
  · exact .next (.ite (.declareFailed (.setLayer h)) (.setLayer h))

protected theorem Keeps.execSensorsDeclaredFailed (h : Kept cells s) {layer} : Keeps cells (execSensorsDeclaredFailed layer s) :=
  .ite (.next (.declareFailed h)) (.next h)

/-! ### The operations of Machine/Parlour -/

protected theorem Kept.journalCut (h : Kept cells s) {ch action band cut} : Kept cells (journalCut ch action band cut s) := .journalEvent h

protected theorem Kept.applyCut (h : Kept cells s) {ch band prior cut} : Kept cells (applyCut ch band prior cut s) :=
  .ite (.journalCut h) (.raise (.journalCut h))

protected theorem Kept.turnCalendar (h : Kept cells s) {ch p} : Kept cells (turnCalendar ch p s) :=
  .setParlour (.forEach (.forEach (.ite (.forEach h (fun _ _ ht => .journalCut ht)) h) (fun _ _ ht => .journalCut ht)) (fun _ _ ht => .applyCut ht))

protected theorem Kept.setLatency (h : Kept cells s) {ch c e} : Kept cells (setLatency ch c e s) := h.same

protected theorem Kept.ageLatency (h : Kept cells s) {ch c} : Kept cells (ageLatency ch c s) := by
  unfold ageLatency
  split
  · exact .ite (.setLatency h) h
  · exact h

protected theorem Kept.countLevel (h : Kept cells s) {ch c} : Kept cells (countLevel ch c s) := .ite (.classCount h) h

protected theorem Kept.runTurn (h : Kept cells s) {ch} : Kept cells (runTurn ch s) := by
  unfold runTurn
  dsimp only
  refine .forEach ?_ (fun _ _ ht => .countLevel (.ageLatency ht))
  split
  · exact .turnCalendar (.setChan h)
  · exact .setChan h

protected theorem Keeps.execCalendarTurn (h : Kept cells s) {ch} : Keeps cells (execCalendarTurn ch s) := .ite (.next (.runTurn h)) (.next h)

protected theorem Kept.nextOpportunity (h : Kept cells s) {ch} : Kept cells (nextOpportunity ch s) := .ite (.classCount (.setChan h)) (.setChan h)

protected theorem Keeps.execBurstOpportunity (h : Kept cells s) {ch} : Keeps cells (execBurstOpportunity ch s) :=
  .ite (.next h) (.next (.nextOpportunity (.ite (.rowCommand (.snd (.columnCommand (.ite (.runTurn h) h)))) (.classCount (.rowCommand (.snd
    (.columnCommand (.ite (.runTurn h) h))))))))

protected theorem Keeps.execLatencyUpdate (h : Kept cells s) {ch cls} : Keeps cells (execLatencyUpdate ch cls s) :=
  .ite (.next h) (.next (.setLatency (.setCls h)))

protected theorem Kept.startLatency (h : Kept cells s) : Kept cells (startLatency s) := by
  unfold startLatency
  refine .forEach h (fun _ _ ht => ?_)
  refine .forEach ht (fun _ _ ht' => ?_)
  split
  · exact .setLatency ht'
  · exact .setCls ht'

/-! ### The operations of Machine/Memory -/

protected theorem Kept.parkOp (h : Kept cells s) {r} : Kept cells (parkOp r s) := .changeOp h

protected theorem Kept.parkInit (h : Kept cells s) {page r} : Kept cells (parkInit page r s) := .lockLine (.parkOp (.ite (.upd h) (.upd h)))

protected theorem Kept.parkRewrite (h : Kept cells s) {page r} : Kept cells (parkRewrite page r s) := .parkOp (.upd h)

protected theorem Kept.parkMove (h : Kept cells s) {r} : Kept cells (parkMove r s) := .parkOp (.upd h)

protected theorem KeptGate.gateWrite (h : Kept cells s) {ch r} : KeptGate cells (gateWrite ch r s) := by
  unfold gateWrite
  extract_lets page w n minor
  refine .ite ?_ ?_
  · exact .ite (.parked (.parkInit h)) .blocked
  · refine .ite .blocked ?_
    split
    · exact .ite .blocked (.ite (.go h) (.ite (.parked (.parkRewrite h)) .blocked))
    · exact .ite (.parked (.parkMove h)) (.ite (.go h) (.ite .blocked (.go (.startRewrite h))))

protected theorem Kept.popClass (h : Kept cells s) {ch c rest} : Kept cells (popClass ch c rest s) := .drainBacklog (.setClassQ h)

protected theorem Kept.outstand (h : Kept cells s) {ch c} : Kept cells (outstand ch c s) := h.same

protected theorem Kept.takeBank (h : Kept cells s) {ch b r} : Kept cells (takeBank ch b r s) := by
  unfold takeBank
  extract_lets loc looks s1 s2 s3
  have h1 : Kept cells s1 := .setBankQ h
  have h2 : Kept cells s2 := .ite (.touchMeta h1) h1
  have h3 : Kept cells s3 := .ite (.linePasses h2) h2
  exact .ite (.lockLine h3) (.ite (.writeLineDone h3) h3)

protected theorem KeptSome.passPoint (h : Kept cells s) {ch c r rest} : KeptSome cells (passPoint ch c r rest s) := by
  have hgate : KeptGate cells (if isWrite r.kind then gateWrite ch r s else .go s) := .ite (.gateWrite h) (.go h)
  unfold passPoint
  refine .ite (.some (.completeReq (.stageLine (.outstand (.popClass h))))) ?_
  split
  · exact .none
  · next he => exact .some (.outstand (.popClass (he ▸ hgate).get_parked))
  · next he => exact .ite (.some (.takeBank (.outstand (.popClass (he ▸ hgate).get_go)))) .none

protected theorem KeptSome.tryHead (h : Kept cells s) {ch wordUpsets wordPath c} : KeptSome cells (tryHead ch wordUpsets wordPath c s) := by
  unfold tryHead
  split
  · exact .none
  · exact .ite (.some (.failOp (.writeSettled (.popClass h)))) (.ite .none (.ite (.some (.snd (.readPageWord h))) (.passPoint (.snd
      (.readPageWord h)))))

protected theorem KeptSome.passClient (h : Kept cells s) {ch wordUpsets wordPath} : KeptSome cells (passClient ch wordUpsets wordPath s) :=
  .findSome? (fun _ => .tryHead h)

protected theorem KeptSome.tryHeld (h : Kept cells s) {ch r} : KeptSome cells (tryHeld ch r s) := by
  unfold tryHeld
  dsimp only
  refine .ite (.some (.failOp (.completeReq (.writeSettled (.upd h))))) ?_
  refine .ite .none ?_
  split
  · next t he =>
      have ht := (he ▸ .gateWrite (.upd h) : KeptGate cells (.go t)).get_go
      exact .ite (.some (.takeBank ht)) .none
  · next t he =>
      have ht := (he ▸ .gateWrite (.upd h) : KeptGate cells (.parked t)).get_parked
      exact .ite (.some ht) .none
  · exact .none

protected theorem KeptSome.passHeld (h : Kept cells s) {ch} : KeptSome cells (passHeld ch s) := .findSome? (fun _ => .tryHeld h)

protected theorem Kept.takeOwn (h : Kept cells s) {ch known r} : Kept cells (takeOwn ch known r s) := .ite (.setBankQ h) (.lockVisit (.setBankQ h))

protected theorem Kept.passOwn (h : Kept cells s) {ch r} : Kept cells (passOwn ch r s) := .ite (.touchMeta (.takeOwn h)) (.takeOwn h)

protected theorem KeptSome.passVisit (h : Kept cells s) {ch} : KeptSome cells (passVisit ch s) := by
  unfold passVisit
  extract_lets c
  split
  · exact .none
  · exact .ite .none (.some (.takeOwn (.setChan h)))

protected theorem Kept.noteWaiting (h : Kept cells s) {ch} : Kept cells (noteWaiting ch s) := by
  unfold noteWaiting
  refine .forEach h (fun _ _ ht => ?_)
  split
  · exact ht
  · refine .ite ht ?_
    split
    · exact .parkOp ht
    · exact ht

protected theorem KeptSome.passRest (h : Kept cells s) {ch wordUpsets wordPath} : KeptSome cells (passRest ch wordUpsets wordPath s) :=
  .orElse (.ite (.passVisit h) .none) (.orElse (.passClient h) (.orElse (.map (fun _ => .passOwn h)) (.passVisit h)))

protected theorem Keeps.execOrderingPointPass (h : Kept cells s) {ch wordUpsets wordPath} :
    Keeps cells (execOrderingPointPass ch wordUpsets wordPath s) := by
  unfold execOrderingPointPass
  extract_lets u
  have hu : Kept cells u := .noteWaiting h
  split
  · next t he =>
      have ht := (he ▸ .passHeld hu : KeptSome cells (some t)).get
      exact .next ht
  · split
    · exact .next (.passOwn hu)
    · exact .next (.getD (.passRest hu) hu)

protected theorem KeptSnd.burstMeta (h : Kept cells s) {ch b es} : KeptSnd cells (burstMeta ch b es s) := by
  unfold burstMeta
  extract_lets loc d
  have hd : Kept cells d.2 := .snd (.decodeMeta h)
  refine .ite (.mk h) ?_
  split
  · exact .mk hd
  · exact .mk hd

protected theorem KeptSnd.copyMeta (h : Kept cells s) {ch loc es} : KeptSnd cells (copyMeta ch loc es s) := by
  unfold copyMeta
  extract_lets line d
  split
  · exact .mk (.snd (.decodeLine (.addUpsets h)))
  · exact .mk (.noteCorrection (.snd (.decodeLine (.addUpsets h))))
  · exact .mk (.loseMeta (.snd (.decodeLine (.addUpsets h))))

protected theorem Kept.copyUnitLine (h : Kept cells s) {ch u i j path es} : Kept cells (copyUnitLine ch u i j path es s) := by
  unfold copyUnitLine
  extract_lets loc m u' dma d sp put
  have hd : Kept cells d.2 := .snd (.decodeLine (.snd (.copyMeta h)))
  have hput {t : State} (ht : Kept cells t) : Kept cells (put t) := .systemBursts (.writeBytes (.upd ht))
  split
  · exact hput (.writeLine hd)
  · exact hput (.writeLine (.noteCorrection hd))
  · exact hput (.putPoison hd)
  · exact hput (.putPoison (.raise (.chanCount (.poisonFound hd))))

protected theorem Kept.copyLine (h : Kept cells s) {ch r path es} : Kept cells (copyLine ch r path es s) := by
  unfold copyLine
  extract_lets loc t
  have ht : Kept cells t := .unlockVisit h
  split
  · exact .ite (.copyUnitLine ht) ht
  · exact ht

protected theorem Keeps.execLineDecode (h : Kept cells s) {ch upsets path metaUpsets} : Keeps cells (execLineDecode ch upsets path metaUpsets s) := by
  unfold execLineDecode
  split
  · exact .next h
  · extract_lets r s1 m
    have h1 : Kept cells s1 := .addUpsets (.setInFlight h)
    have hm : Kept cells m.2 := .snd (.burstMeta h1)
    refine .ite (.next h) (.ite (.next (.copyLine h1)) ?_)
    split
    · exact .next (.ite (.endCarry hm) (.refusePoison hm))
    · extract_lets d
      have hd : Kept cells d.2 := .snd (.decodeHalf hm)
      split
      · exact .next hd
      · extract_lets s2 s3
        have h2 : Kept cells s2 := .setInCrypto hd
        have h3 : Kept cells s3 := .completeReq h2
        exact .ite (.next (.ite (.stageLine h3) h3)) (.next h2)

protected theorem Kept.setTag (h : Kept cells s) {r t} : Kept cells (setTag r t s) := .upd (.changeOp h)

protected theorem Keeps.execTagCheck (h : Kept cells s) {ch} : Keeps cells (execTagCheck ch s) := by
  unfold execTagCheck
  split
  · exact .next h
  · extract_lets r loc s1
    have h1 : Kept cells s1 := .setInCrypto h
    refine .ite (.next h) (.ite (.next h1) (.ite ?_ ?_))
    · exact .ite (.next (.ite (.setTag h1) (.stageLine h1))) (.next (.verifiedHalf (.setHalves h1)))
    · exact .ite (.next (.ite (.setTag (.tagMismatch h1)) (.failOp (.tagMismatch h1))))
        (.next (.dropReq (.ite (.tagMismatch h1) (.countRefusal (.tagMismatch h1)))))

protected theorem Keeps.execWriteHalf (h : Kept cells s) {ch} : Keeps cells (execWriteHalf ch s) := by
  unfold execWriteHalf
  extract_lets c
  split
  · exact .next h
  · exact .ite (.next (.ite (.runTurn h) h)) (.next (.finishHalf (.setHalves (.setChan (.ite (.runTurn h) h)))))

protected theorem Kept.regionWork (h : Kept cells s) {region dma} : Kept cells (regionWork region dma s) := by
  unfold regionWork
  exact .classCount (.served h)

protected theorem Kept.zeroLines (h : Kept cells s) {x} : Kept cells (zeroLines x s) :=
  .forEach h (fun _ _ ht => .ite ht (.regionWork (.initLine ht)))

protected theorem Kept.settleTrigger (h : Kept cells s) {r} : Kept cells (settleTrigger r s) := by
  unfold settleTrigger
  extract_lets ch s1 s2
  have h1 : Kept cells s1 := .linePasses (.writeSettled (.unlockLine h))
  have h2 : Kept cells s2 := .ite (.formAtomic h1) (.writeLineDone h1)
  exact .ite (.failOp (.completeReq h1)) (.completeReq (.ite (.tenantCount h2) h2))

protected theorem Kept.startDue (h : Kept cells s) : Kept cells (startDue s) :=
  .forEach h (fun _ _ ht => .ite ht (.ite (.upd ht) (.startRewrite (.upd ht))))

protected theorem Kept.retryOne (h : Kept cells s) {r} : Kept cells (retryOne r s) := by
  unfold retryOne
  extract_lets ch again
  refine .ite (.upd h) ?_
  split
  · next t he =>
      have ht := (he ▸ .gateWrite h : KeptGate cells (.go t)).get_go
      exact .applyWhole ht
  · next t he =>
      have ht := (he ▸ .gateWrite h : KeptGate cells (.parked t)).get_parked
      exact ht
  · exact .upd h

protected theorem Kept.retryWaiting (h : Kept cells s) : Kept cells (retryWaiting s) := .forEach (.upd h) (fun _ _ ht => .retryOne ht)

protected theorem Kept.endInit (h : Kept cells s) {x} : Kept cells (endInit x s) := by
  unfold endInit
  dsimp only
  split
  · exact .upd h
  · exact .startDue (.settleTrigger (.forEach (.writePageWord (.upd (.upd h))) (fun _ _ ht => .unlockLine ht)))

protected theorem Kept.finishInit (h : Kept cells s) {page} : Kept cells (finishInit page s) := by
  unfold finishInit
  split
  · exact h
  · exact .retryWaiting (.endInit (.zeroLines h))

protected theorem Keeps.execPageInitComplete (h : Kept cells s) {page} : Keeps cells (execPageInitComplete page s) := by
  unfold execPageInitComplete
  refine .ite .fault ?_
  split
  · exact .next h
  · exact .ite (.next (.endInit h)) (.next h)

protected theorem Kept.useDecoded (h : Kept cells s) {line data} : Kept cells (useDecoded line data s) := .ite h (.writeLine h)

protected theorem Kept.carryMeta (h : Kept cells s) {dma} : Kept cells (carryMeta dma s) := by
  unfold carryMeta
  extract_lets home line d
  split
  · exact .useDecoded (.snd (.decodeLine h))
  · exact .noteCorrection (.useDecoded (.snd (.decodeLine h)))
  · exact .loseMeta (.snd (.decodeLine h))

protected theorem Kept.carryLine (h : Kept cells s) {dma old new} : Kept cells (carryLine dma old new s) := by
  unfold carryLine
  extract_lets u home d m lost move
  have hd : Kept cells d.2 := .snd (.decodeLine (.carryMeta h))
  have hlost {t : State} (ht : Kept cells t) : Kept cells (lost t) := .writeMeta ht
  have hmove {ct : List Byte} {t : State} (ht : Kept cells t) : Kept cells (move ct t) :=
    .ite (.storeLine (.useRoundKeys ht)) (hlost (.tagFailure ht))
  split
  · exact hmove hd
  · exact hmove (.noteCorrection hd)
  · exact hlost hd
  · exact hlost (.raise (.chanCount (.poisonFound hd)))

protected theorem Kept.carryPage (h : Kept cells s) {x} : Kept cells (carryPage x s) :=
  .forEach h (fun _ _ ht => .ite ht (.regionWork (.markMoved (.carryLine ht))))

protected theorem Kept.dropRewrite (h : Kept cells s) {page} : Kept cells (dropRewrite page s) := h.same

protected theorem Kept.endRewrite (h : Kept cells s) {x} : Kept cells (endRewrite x s) :=
  .startDue (.ite (.startRekey (.dropRewrite (.writePageWord h))) (.dropRewrite (.writePageWord h)))

protected theorem Kept.finishRewrite (h : Kept cells s) {page} : Kept cells (finishRewrite page s) := by
  unfold finishRewrite
  split
  · exact h
  · exact .ite h (.retryWaiting (.endRewrite (.carryPage h)))

protected theorem Keeps.execPageRewriteComplete (h : Kept cells s) {page} : Keeps cells (execPageRewriteComplete page s) := by
  unfold execPageRewriteComplete
  refine .ite .fault ?_
  split
  · exact .next h
  · exact .ite (.next (.endRewrite h)) (.next h)

/-! ### The operations of Machine/Leases -/

protected theorem Kept.freeKey (h : Kept cells s) {k} : Kept cells (freeKey k s) := h.same

protected theorem Kept.rebuildRecs (h : Kept cells s) {i} : Kept cells (rebuildRecs i s) :=
  .forEach (.writeLine h) (fun _ _ ht => .ite (.writeBytes ht) (.upd ht))

protected theorem KeptSnd.readRec (h : Kept cells s) {i} : KeptSnd cells (readRec i s) := .mk (.snd (.readLines h (fun _ _ ht => .rebuildRecs ht)))

protected theorem Kept.putRec (h : Kept cells s) {i e} : Kept cells (putRec i e s) := .systemBursts (.writeSystem (.snd (.readRec h)))

protected theorem Kept.saveLease (h : Kept cells s) {i} : Kept cells (saveLease i s) := .putRec h

protected theorem Kept.firstGen (h : Kept cells s) {i} : Kept cells (firstGen i s) := .ite h (.putRec (.upd (.snd (.generate h))))

protected theorem Kept.loadEntry (h : Kept cells s) {i} : Kept cells (loadEntry i s) := by
  unfold loadEntry
  split
  · exact .setRegion h
  · exact .ite (.setRegion (.snd (.readRec (.firstGen h)))) (.saveLease (.setRegion (.snd (.readRec (.firstGen h)))))

protected theorem Kept.holdStart (h : Kept cells s) {i byErase} : Kept cells (holdStart i byErase s) := h.same

protected theorem Kept.dropHold (h : Kept cells s) {i} : Kept cells (dropHold i s) := h.same

protected theorem Kept.beginLease (h : Kept cells s) {i slot} : Kept cells (beginLease i slot s) :=
  .journalEvent (.tenantCount (.upd (.saveLease (.setRegion (.dropHold h)))))

protected theorem Kept.drawn_of_drawKey (h : Kept cells s) {region st k} (hd : drawKey region st s = some (k, t)) : Kept cells t := by
  unfold drawKey at hd
  split at hd
  · cases hd
  · split at hd
    · cases hd
    · cases hd
      exact .setKey (.snd (.generate h))

protected theorem Kept.startLease (h : Kept cells s) {i} : Kept cells (startLease i s) := by
  unfold startLease
  refine .ite h (.ite (.holdStart h) ?_)
  split
  · exact .holdStart h
  · next hd => exact .beginLease (h.drawn_of_drawKey hd)

protected theorem Kept.dropChain (h : Kept cells s) {i id} : Kept cells (dropChain i id s) := by
  unfold dropChain
  split
  · exact .upd h
  · exact .upd h

protected theorem Kept.endLease (h : Kept cells s) {i m cause} : Kept cells (endLease i m cause s) :=
  .ite (.upd (.dropChain (.setRegion (.tenantCount h)))) (.setRegion (.tenantCount h))

protected theorem Kept.continueLease (h : Kept cells s) {i} : Kept cells (continueLease i s) := by
  unfold continueLease
  extract_lets r
  split
  · exact h
  · exact .journalEvent (.saveLease (.setRegion h))

protected theorem Kept.journalRekeyEnd (h : Kept cells s) {k tenant result} : Kept cells (journalRekeyEnd k tenant result s) := .journalEvent h

protected theorem Kept.abandonWork (h : Kept cells s) {i} : Kept cells (abandonWork i s) := by
  unfold abandonWork
  extract_lets s1
  have h1 : Kept cells s1 := by
    dsimp only [s1]
    split
    · exact .journalRekeyEnd h
    · exact h
  exact .upd h1

protected theorem Keeps.execEraseDrainComplete (h : Kept cells s) {region} : Keeps cells (execEraseDrainComplete region s) :=
  .ite (.next h) (.next (.setRegion (.abandonWork h)))

protected theorem Kept.finishErase (h : Kept cells s) {i} : Kept cells (finishErase i s) :=
  .journalEvent (.ite (.saveLease (.setRegion (.forEach h (fun _ _ ht => .freeKey ht)))) (.loadEntry (.saveLease (.setRegion (.forEach h
    (fun _ _ ht => .freeKey ht))))))

protected theorem Keeps.execCryptoEraseComplete (h : Kept cells s) {region} : Keeps cells (execCryptoEraseComplete region s) :=
  .ite (.next (.finishErase h)) (.next h)

/-! ### The operations of Machine/PlanParse -/

protected theorem Kept.flashProgram (h : Kept cells s) {o bs} : Kept cells (flashProgram o bs s) := ⟨stored_flashProgram h.stored o bs, h.otp⟩

protected theorem Kept.flashErase (h : Kept cells s) {o n} : Kept cells (flashErase o n s) := ⟨stored_flashErase h.stored o n, h.otp⟩

/-! ### The operations of Machine/Adopt -/

protected theorem Kept.putBS (h : Kept cells s) {k v} : Kept cells (putBS k v s) := by
  unfold putBS
  split
  · exact .upd h
  · exact .upd h

protected theorem Kept.setBS (h : Kept cells s) {k st reason det} : Kept cells (setBS k st reason det s) := .putBS h

protected theorem Kept.programArm (h : Kept cells s) {k w} : Kept cells (programArm k w s) := .flashProgram h

protected theorem Kept.killMagic (h : Kept cells s) {k} : Kept cells (killMagic k s) := .flashProgram h

protected theorem Kept.dropPreparation (h : Kept cells s) : Kept cells (dropPreparation s) := h.same

protected theorem Kept.setLast (h : Kept cells s) {r} : Kept cells (setLast r s) := h.same

protected theorem Kept.closeStaging (h : Kept cells s) : Kept cells (closeStaging s) := h.same

protected theorem Kept.raiseOwn (h : Kept cells s) {cls src kind addr} : Kept cells (raiseOwn cls src kind addr s) := .pushMsg h

protected theorem Kept.journalRefusal (h : Kept cells s) {k place reason det} : Kept cells (journalRefusal k place reason det s) := .journalEvent h

protected theorem Kept.refuseBank (h : Kept cells s) {k place reason det} : Kept cells (refuseBank k place reason det s) :=
  .journalRefusal (.setLast (.ite (.dropPreparation (.setBS (.programArm h))) (.setBS (.programArm h))))

protected theorem Kept.refuseCompat (h : Kept cells s) {k place c} : Kept cells (refuseCompat k place c s) := .refuseBank (.raise h)

protected theorem Kept.refuseAdmission (h : Kept cells s) {k place ch c} : Kept cells (refuseAdmission k place ch c s) := .refuseBank (.raise h)

protected theorem Kept.prepareBank (h : Kept cells s) {k} : Kept cells (prepareBank k s) := by
  unfold prepareBank
  split
  · exact .refuseBank (.raiseOwn (.drawn h))
  · split
    · exact .refuseCompat h
    · split
      · exact .refuseAdmission h
      · exact .upd h

protected theorem Keeps.execAdoptionPrepared (h : Kept cells s) : Keeps cells (execAdoptionPrepared s) := by
  unfold execAdoptionPrepared
  split
  · exact .next (.prepareBank h)
  · exact .next h

protected theorem Kept.adoptQp (h : Kept cells s) {p qpn} : Kept cells (adoptQp p qpn s) := by
  unfold adoptQp
  extract_lets n q
  split
  · exact .setQp h
  · exact .ite (.setQp (.enterError h)) h

protected theorem Kept.adoptClasses (h : Kept cells s) {old} : Kept cells (adoptClasses old s) := by
  unfold adoptClasses
  extract_lets target
  refine .forEach h (fun _ _ ht => ?_)
  refine .forEach ht (fun _ _ ht' => ?_)
  split
  · exact .setLatency ht'
  · exact .setCls ht'

protected theorem Kept.dueCalendars (h : Kept cells s) : Kept cells (dueCalendars s) := .forEach h (fun _ _ ht => .setParlour ht)

protected theorem Kept.keepRecord (h : Kept cells s) {i} : Kept cells (keepRecord i s) := .ite (.snd (.readRec h)) (.putRec (.snd (.readRec h)))

protected theorem Kept.adoptRegion (h : Kept cells s) {i} : Kept cells (adoptRegion i s) := by
  unfold adoptRegion
  extract_lets r
  refine .ite h ?_
  split
  · exact .setRegion h
  · split
    · exact .keepRecord (.setRegion h)
    · exact .setRegion h

protected theorem Kept.reseat (h : Kept cells s) {i} : Kept cells (reseat i s) := by
  unfold reseat
  extract_lets e s g
  have hs : Kept cells s := .snd (.readRec h)
  split
  · exact hs
  · exact .keepRecord (.setRegion hs)

protected theorem Kept.recallRegion (h : Kept cells s) {i} : Kept cells (recallRegion i s) := .ite (.reseat h) h

protected theorem Kept.keepRevokes (h : Kept cells s) : Kept cells (keepRevokes s) := h.same

protected theorem Kept.adoptPlan (h : Kept cells s) {k p m} : Kept cells (adoptPlan k p m s) := by
  unfold adoptPlan
  extract_lets u old _ s1 s2 s3 s4 s5 o s6
  have hu : Kept cells u := .keepRevokes h
  have h1 : Kept cells s1 := .upd hu
  have h2 : Kept cells s2 := .forEach h1 fun _ _ ht => .adoptQp ht
  have h3 : Kept cells s3 := .dueCalendars (.adoptClasses h2)
  have h4 : Kept cells s4 := .forEach h3 fun _ _ ht => .adoptRegion ht
  have h5 : Kept cells s5 := .forEach h4 fun _ _ ht => .ite ht (.loadEntry ht)
  have h6 : Kept cells s6 := .ite (.setBS h5) h5
  exact .journalEvent (.setLast (.setBS h6))

protected theorem Kept.adoptAtBoundary (h : Kept cells s) {m} : Kept cells (adoptAtBoundary m s) := by
  unfold adoptAtBoundary
  split
  · exact h
  · refine .ite h ?_
    extract_lets was s1
    have h1 : Kept cells s1 := .ite h (.prepareBank h)
    split
    · exact h1
    · split
      · exact .refuseCompat h1
      · split
        · exact .refuseAdmission h1
        · exact .adoptPlan h1

protected theorem Kept.beginPreparation (h : Kept cells s) {m} : Kept cells (beginPreparation m s) := by
  unfold beginPreparation
  split
  · exact h
  · exact .ite (.upd h) h

protected theorem Keeps.execRegionTableRewrite (h : Kept cells s) : Keeps cells (execRegionTableRewrite s) :=
  .ite (.next h) (.next (.forEach (.upd h) (fun _ _ ht => .ite ht (.loadEntry ht))))

protected theorem KeptRefusal.stagePrefix (h : Kept cells s) {f n} : KeptRefusal cells (stagePrefix f n s) :=
  .ite (.some (.malformed h)) (.ite (.some (.malformed h)) (.ite (.some (.malformed h)) .none))

protected theorem KeptReply.stageOpenRule (h : Kept cells s) {f} : KeptReply cells (stageOpenRule f s) := by
  unfold stageOpenRule
  extract_lets k n
  split
  · next he => exact (he ▸ KeptRefusal.stagePrefix h).get
  · exact .ite (.malformed h) (.ite (.refuse h) (.ite (.refuse h) (.ite (.refuse h) (.done (.upd (.setBS (.killMagic (.ite (.dropPreparation
      (.journalEvent h)) h))))))))

protected theorem Keeps.execStageOpen (h : Kept cells s) {p f} : Keeps cells (execStageOpen p f s) :=
  .ite (.next h) (.next (.runCommand h (fun _ ht => .stageOpenRule ht)))

protected theorem Keeps.execSectorEraseComplete (h : Kept cells s) : Keeps cells (execSectorEraseComplete s) := by
  unfold execSectorEraseComplete
  split
  · exact .next h
  · exact .ite (.next h) (.next (.upd (.flashErase h)))

protected theorem KeptSnd.stagingWrite (h : Kept cells s) {k o bs} : KeptSnd cells (stagingWrite k o bs s) :=
  .ite (.mk h) (.ite (.mk h) (.mk (.upd h)))

protected theorem Kept.stagingBody (h : Kept cells s) {p f k o} : Kept cells (stagingBody p f k o s) :=
  .ite (.answer h) (.ite (.answer h) (.ite (.answer h) (.ite (.answer (.drawn (.snd (.stagingWrite h)))) (.answer (.snd (.stagingWrite h))))))

protected theorem Keeps.execStagingWrite (h : Kept cells s) {p f} : Keeps cells (execStagingWrite p f s) := by
  unfold execStagingWrite
  split
  · exact .ite (.next (.runRequest h (fun _ ht => .stagingBody ht))) (.next h)
  · exact .next h

protected theorem Kept.programPage (h : Kept cells s) {k n} : Kept cells (programPage k n s) := .flashProgram (.upd h)

protected theorem Keeps.execPageProgramComplete (h : Kept cells s) : Keeps cells (execPageProgramComplete s) := by
  unfold execPageProgramComplete
  split
  · exact .next h
  · exact .ite (.next h) (.next (.programPage h))

protected theorem KeptReply.stageCommitRule (h : Kept cells s) {f} : KeptReply cells (stageCommitRule f s) := by
  unfold stageCommitRule
  split
  · next he => exact (he ▸ KeptRefusal.stagePrefix h).get
  · exact .ite (.malformed h) (.ite (.refuse h) (.ite (.refuse h) (.accepted (.upd h))))

protected theorem Keeps.execStageCommit (h : Kept cells s) {p f} : Keeps cells (execStageCommit p f s) :=
  .ite (.next (.runCommand h (fun _ ht => .stageCommitRule ht))) (.next h)

protected theorem Kept.journalStaging (h : Kept cells s) {k op reason det} : Kept cells (journalStaging k op reason det s) := .journalEvent h

protected theorem Keeps.execStageCommitEnd (h : Kept cells s) : Keeps cells (execStageCommitEnd s) := by
  unfold execStageCommitEnd
  split
  · exact .next h
  · exact .ite (.next h) (.next (.journalStaging (.setLast (.closeStaging (.ite (.setBS (.drawn (.programPage h))) (.setBS (.killMagic (.drawn
      (.programPage h)))))))))

protected theorem KeptReply.stageAbortRule (h : Kept cells s) {f} : KeptReply cells (stageAbortRule f s) := by
  unfold stageAbortRule
  extract_lets k
  split
  · next he => exact (he ▸ KeptRefusal.stagePrefix h).get
  · exact .ite (.malformed h) (.ite (.refuse h) (.done (.journalStaging (.setBS (.killMagic (.closeStaging h))))))

protected theorem Keeps.execStageAbort (h : Kept cells s) {p f} : Keeps cells (execStageAbort p f s) :=
  .ite (.next (.runCommand h (fun _ ht => .stageAbortRule ht))) (.next h)

protected theorem KeptReply.adoptCancelRule (h : Kept cells s) {f} : KeptReply cells (adoptCancelRule f s) := by
  unfold adoptCancelRule
  extract_lets k
  split
  · next he => exact (he ▸ KeptRefusal.stagePrefix h).get
  · exact .ite (.refuse h) (.ite (.refuse h) (.done (.upd (.setBS (.programArm (.dropPreparation h))))))

protected theorem Keeps.execAdoptCancel (h : Kept cells s) {p f} : Keeps cells (execAdoptCancel p f s) :=
  .ite (.next (.runCommand h (fun _ ht => .adoptCancelRule ht))) (.next h)

protected theorem KeptReply.adoptArm (h : Kept cells s) {k} : KeptReply cells (adoptArm k s) :=
  .ite (.refuse h) (.ite (.refuse h) (.ite (.done (.setLast (.setBS (.programArm h)))) (.ite (.refuse (.setLast h)) (.ite (.refuse h) (.done
    (.setLast (.setBS (.programArm h))))))))

protected theorem Kept.relevel (h : Kept cells s) : Kept cells (relevel s) := .forEach h (fun _ _ ht => .forEach ht (fun _ _ ht' => .setCls ht'))

protected theorem Kept.reloadGood (h : Kept cells s) {item} : Kept cells (reloadGood item s) := by
  unfold reloadGood
  dsimp only
  split
  · exact .ite (.reseat (.upd h)) (.loadEntry (.upd h))
  · exact .relevel (.upd h)
  · exact .relevel (.upd h)

protected theorem Kept.reloadBad (h : Kept cells s) {item k} : Kept cells (reloadBad item k s) := by
  unfold reloadBad
  dsimp only
  split
  · exact .ite (.endLease (.journalEvent (.upd (.raiseOwn (.putBS h))))) (.journalEvent (.upd (.raiseOwn (.putBS h))))
  · exact .relevel (.journalEvent (.upd (.raiseOwn (.putBS h))))
  · exact .relevel (.journalEvent (.upd (.raiseOwn (.putBS h))))

protected theorem Kept.reloadItem (h : Kept cells s) {item} : Kept cells (reloadItem item s) := by
  unfold reloadItem
  split
  · exact h
  · exact .ite (.reloadGood h) (.reloadBad h)

protected theorem Keeps.execSectionReload (h : Kept cells s) {item} : Keeps cells (execSectionReload item s) := .next (.reloadItem h)

/-! ### The operations of Machine/Rekey -/

protected theorem Keeps.execKeyDraw (h : Kept cells s) {region} : Keeps cells (execKeyDraw region s) := by
  unfold execKeyDraw
  dsimp only
  split
  · exact .next h
  · refine .ite (.next h) ?_
    split
    · exact .next h
    · next hd => exact .next (.saveLease (.setRegion (.changeRekey (h.drawn_of_drawKey hd))))

protected theorem Kept.writeMoved (h : Kept cells s) {i page fresh} : Kept cells (writeMoved i page fresh s) :=
  .setRegion (.changeRekey (.writePageWord h))

protected theorem Kept.endMove (h : Kept cells s) {x} : Kept cells (endMove x s) := .startDue (.writeMoved (.dropRewrite h))

protected theorem Kept.beginMove (h : Kept cells s) {i page lost} : Kept cells (beginMove i page lost s) := .ite (.writeMoved h) (.upd h)

protected theorem Kept.finishMove (h : Kept cells s) {x} : Kept cells (finishMove x s) := .ite h (.retryWaiting (.endMove (.carryPage h)))

protected theorem Kept.maybeFlush (h : Kept cells s) {i} : Kept cells (maybeFlush i s) := by
  unfold maybeFlush
  extract_lets r
  split
  · exact h
  · exact .ite (.setKey (.changeRekey h)) h

protected theorem Keeps.execPageMove (h : Kept cells s) {region page} : Keeps cells (execPageMove region page s) := by
  unfold execPageMove
  extract_lets i
  refine .ite .fault ?_
  split
  · exact .next h
  · split
    · exact .ite (.next (.maybeFlush (.endMove h))) (.next h)
    · split
      · exact .ite (.next (.maybeFlush (.beginMove h))) (.next h)
      · exact .next h

protected theorem Kept.endMoves (h : Kept cells s) {i} : Kept cells (endMoves i s) := .forEach h (fun _ _ ht => .endMove ht)

protected theorem Kept.sweepPage (h : Kept cells s) {i k} : Kept cells (sweepPage i k s) :=
  .ite (.changeRekey h) (.ite h (.beginMove (.changeRekey h)))

protected theorem Keeps.execRekeySweepStep (h : Kept cells s) {region} : Keeps cells (execRekeySweepStep region s) := by
  unfold execRekeySweepStep
  extract_lets i s
  have hs : Kept cells s := .endMoves h
  split
  · exact .next hs
  · exact .ite (.next hs) (.ite (.next (.maybeFlush hs)) (.next (.maybeFlush (.sweepPage hs))))

protected theorem Kept.swapKeys (h : Kept cells s) {i k} : Kept cells (swapKeys i k s) :=
  .journalRekeyEnd (.upd (.saveLease (.setRegion (.setKey (.freeKey h)))))

protected theorem Keeps.execKeyRetirement (h : Kept cells s) {region} : Keeps cells (execKeyRetirement region s) := by
  unfold execKeyRetirement
  extract_lets i
  split
  · exact .next h
  · exact .ite (.next h) (.next (.forEach (.swapKeys h) (fun _ _ ht => .startRekey ht)))

protected theorem Keeps.execDrbgReseed (h : Kept cells s) : Keeps cells (execDrbgReseed s) := .ite (.next (.reseed h)) (.next h)

protected theorem Kept.takeSample (h : Kept cells s) {x} : Kept cells (takeSample x s) := .ite (.upd h) (.upd h)

protected theorem Keeps.execEntropySample (h : Kept cells s) {x later} : Keeps cells (execEntropySample x later s) :=
  .ite (.next h) (.next (List.foldlRecOn (motive := Kept cells) _ _ h fun _ ht _ _ => .takeSample ht))

protected theorem Keeps.execEntropyFailure (h : Kept cells s) : Keeps cells (execEntropyFailure s) := .ite (.next (.raise (.upd h))) (.next h)

/-! ### The operations of Machine/CeLog -/

protected theorem Kept.rewriteCe (h : Kept cells s) {i} : Kept cells (rewriteCe i s) := .writeSystem h

protected theorem Kept.copyCeLog (h : Kept cells s) : Kept cells (copyCeLog s) := .ite (.forEach h (fun _ _ ht => .rewriteCe ht)) h

protected theorem Kept.setCe (h : Kept cells s) {i e} : Kept cells (setCe i e s) := h.same

protected theorem Kept.restoreCe (h : Kept cells s) {i} : Kept cells (restoreCe i s) := by
  unfold restoreCe
  dsimp only
  split
  · exact h
  · split
    · exact .setCe (.snd (.readSystem h))
    · exact .rewriteCe (.setCe (.snd (.readSystem h)))

/-! ### The operations of Machine/Upkeep -/

protected theorem Kept.failLane (h : Kept cells s) {ch l} : Kept cells (failLane ch l s) := by
  unfold failLane
  extract_lets c0 c c1
  refine .ite h ?_
  split
  · exact .raise (.setChan h)
  · exact .ite (.startRetirement (.setChan h)) (.setChan h)

protected theorem Keeps.execLaneErrorWindow (h : Kept cells s) {ch} : Keeps cells (execLaneErrorWindow ch s) :=
  .ite (.next h) (.next (.forEach (.setChan h) (fun _ _ ht => .failLane ht)))

protected theorem Kept.writeRemapLine (h : Kept cells s) {ch i} : Kept cells (writeRemapLine ch i s) := .writeSystem h

protected theorem Kept.rebuildLeases (h : Kept cells s) {ch sl} : Kept cells (rebuildLeases ch sl s) :=
  .forEach (.rebuildRecs h) (fun _ _ ht => .reloadItem ht)

protected theorem Kept.loseServed (h : Kept cells s) {ch sl} : Kept cells (loseServed ch sl s) :=
  .ite (.losePageWords h) (.ite (.rebuildLeases h) (.ite (.writeRemapLine h) (.rewriteCe h)))

protected theorem Kept.journalRetired (h : Kept cells s) {r} : Kept cells (journalRetired r s) := .journalEvent h

protected theorem Kept.endRetirements (h : Kept cells s) : Kept cells (endRetirements s) := .forEach (.upd h) (fun _ _ ht => .journalRetired ht)

protected theorem Kept.leaveChannel (h : Kept cells s) {ch r} : Kept cells (leaveChannel ch r s) :=
  .renumberJournal (.endRetirements (.upd (.setParlour (.setChan h))))

protected theorem KeptSnd.copyReliefLine {acc : List Nat × State} (h : KeptSnd cells acc) {ch r line} :
    KeptSnd cells (copyReliefLine ch r line acc) := by
  unfold copyReliefLine
  extract_lets u sl d
  have hd : Kept cells d.2 := .snd (.decodeLine (.snd h))
  split
  · exact .mk (.writeLine hd)
  · exact .mk (.writeLine (.noteCorrection hd))
  · exact .mk (.raise (.chanCount hd))

protected theorem Kept.reliefCopy (h : Kept cells s) {ch r} : Kept cells (reliefCopy ch r s) := by
  unfold reliefCopy
  extract_lets n c s1
  have hc : KeptSnd cells c := .foldl (.mk (.systemBursts (.systemBursts h))) fun _ _ ht => .copyReliefLine ht
  exact .journalEvent (.forEach (.leaveChannel (.snd hc)) fun _ _ ht => .loseServed ht)

protected theorem Keeps.execReliefCopyComplete (h : Kept cells s) {ch} : Keeps cells (execReliefCopyComplete ch s) := by
  unfold execReliefCopyComplete
  refine .ite (.next h) ?_
  split
  · exact .next (.reliefCopy h)
  · exact .next h

protected theorem Kept.issueSteps (h : Kept cells s) {n} : Kept cells (issueSteps n s) := by
  induction n generalizing s with
  | zero => exact .upd h
  | succ n ih =>
    unfold issueSteps
    dsimp only
    refine .ite (.upd h) (ih (.upd ?_))
    split
    · exact .setChan h
    · exact h

protected theorem Keeps.execSkimmerStep (h : Kept cells s) : Keeps cells (execSkimmerStep s) := .ite (.next (.issueSteps h)) (.next h)

protected theorem Kept.loseJournalLine (h : Kept cells s) {ch sl} : Kept cells (loseJournalLine ch sl s) := .ite (.invalidateSlot h) (.writeLine h)

protected theorem Kept.loseRecordLine (h : Kept cells s) {ch sl} : Kept cells (loseRecordLine ch sl s) := .writeLine h

protected theorem Kept.loseRing (h : Kept cells s) {line} : Kept cells (loseRing line s) := .ite (.loseRecordLine h) (.loseJournalLine h)

protected theorem Kept.loseSystem (h : Kept cells s) {ch line} : Kept cells (loseSystem ch line s) := by
  unfold loseSystem
  extract_lets sl s
  have hs : Kept cells s := .raiseDetail (.chanCount h)
  refine .ite (.loseServed hs) ?_
  refine .ite (.loseRecordLine hs) ?_
  refine .ite (.loseJournalLine hs) ?_
  refine .ite (.poisonLine hs) ?_
  split
  · exact .loseServed hs
  · exact .writeLine hs

protected theorem Kept.countVisit (h : Kept cells s) {ch d} : Kept cells (countVisit ch d s) := h.same

protected theorem Kept.visitLine (h : Kept cells s) {ch line dma path} : Kept cells (visitLine ch line dma path s) := by
  unfold visitLine
  extract_lets d u
  have hu : Kept cells u := .countVisit (.snd (.decodeLine h))
  split
  · exact hu
  · exact hu
  · exact .noteCorrection (.systemBursts (.writeLine hu))
  · split
    · exact .raise (.chanCount (.poisonFound (.systemBursts hu)))
    · exact .ite (.loseMeta (.systemBursts hu)) (.loseSystem (.systemBursts hu))

protected theorem Keeps.execSkimmerVisit (h : Kept cells s) {ch upsets path} : Keeps cells (execSkimmerVisit ch upsets path s) := by
  unfold execSkimmerVisit
  split
  · exact .next h
  · exact .next (.visitLine (.addUpsets (.unlockVisit (.setArrivedVisits h))))

protected theorem Kept.setRemap (h : Kept cells s) {ch i e} : Kept cells (setRemap ch i e s) := .writeRemapLine (.upd h)

protected theorem Kept.startPage (h : Kept cells s) {page units skipped} : Kept cells (startPage page units skipped s) :=
  .upd (.forEach h (fun _ _ ht => .setRemap ht))

protected theorem Kept.retireCe (h : Kept cells s) {ch u} : Kept cells (retireCe ch u s) := h.same

protected theorem Kept.commitUnit (h : Kept cells s) {ch u i page} : Kept cells (commitUnit ch u i page s) := by
  unfold commitUnit
  dsimp only
  refine .retireCe (.setRemap ?_)
  split
  · exact .setRemap h
  · exact h

protected theorem Kept.endCopy (h : Kept cells s) {ch u i r} : Kept cells (endCopy ch u i r s) := .endRetirements (.upd (.commitUnit h))

protected theorem Keeps.execUnitCopy (h : Kept cells s) {ch u} : Keeps cells (execUnitCopy ch u s) := by
  unfold execUnitCopy
  refine .ite .fault ?_
  split
  · exact .next h
  · exact .ite (.next (.endCopy h)) (.next h)

/-! ### The operations of Machine/Drain -/

protected theorem Kept.idlePorts (h : Kept cells s) : Kept cells (idlePorts s) := .abandonRecal (.upd h)

protected theorem Kept.dropReads (h : Kept cells s) {ch} : Kept cells (dropReads ch s) :=
  .setArrivedVisits (.forEach (.setChan h) (fun _ _ ht => .unlockVisit ht))

protected theorem Kept.stopTraffic (h : Kept cells s) : Kept cells (stopTraffic s) := .idlePorts (.upd (.forEach h (fun _ _ ht => .dropReads ht)))

protected theorem Kept.enterSelfRefresh (h : Kept cells s) {ch} : Kept cells (enterSelfRefresh ch s) :=
  .upd (.setChan (.forEach h (fun _ _ ht => .setBank ht)))

protected theorem Kept.warmDrain (h : Kept cells s) {cause} : Kept cells (warmDrain cause s) := .upd (.stopTraffic h)

protected theorem Kept.endStopDrain (h : Kept cells s) : Kept cells (endStopDrain s) := by
  unfold endStopDrain
  split
  · exact h
  · exact .ite (.warmDrain (.upd h)) (.upd h)

protected theorem Kept.stopDrain (h : Kept cells s) : Kept cells (stopDrain s) := by
  unfold stopDrain
  exact .ite (.endStopDrain (.upd (.stopTraffic h))) (.upd (.stopTraffic h))

protected theorem Kept.finishHalves (h : Kept cells s) {ch} : Kept cells (finishHalves ch s) := .forEach (.setHalves h) (fun _ _ ht => .finishHalf ht)

protected theorem Kept.finishChecked (h : Kept cells s) {ch e} : Kept cells (finishChecked ch e s) :=
  .ite (.finishHalf (.verifiedHalf h)) (.ite (.dropReq (.tagFailure h)) (.dropReq (.countRefusal (.tagFailure h))))

protected theorem Kept.finishCrypto (h : Kept cells s) {ch} : Kept cells (finishCrypto ch s) :=
  .forEach (.setInCrypto h) (fun _ _ ht => .finishChecked ht)

protected theorem Kept.carryWhole (h : Kept cells s) {ch r} : Kept cells (carryWhole ch r s) := by
  unfold carryWhole
  split
  · exact h
  · exact .ite h (.countWork (.served (.markMoved (.carryLine h))))

protected theorem Kept.finishPassed (h : Kept cells s) {ch r} : Kept cells (finishPassed ch r s) := by
  unfold finishPassed
  split
  · exact .carryWhole (.unlockVisit h)
  · exact .countWork (.served (.initLine h))
  · exact .countWork (.served (.unlockVisit (.eraseWords h)))
  · exact .systemBursts (.copyLine h)
  · exact .applyWhole h

protected theorem Kept.finishEngine (h : Kept cells s) {ch} : Kept cells (finishEngine ch s) :=
  .forEach (.forEach (.setInFlight (.setChan h)) (fun _ _ ht => .setBankQ ht)) (fun _ _ ht => .finishPassed ht)

protected theorem Kept.finishPage (h : Kept cells s) {page} : Kept cells (finishPage page s) := by
  unfold finishPage
  refine .ite h ?_
  refine .ite (.finishInit h) ?_
  split
  · exact .ite (.maybeFlush (.finishMove h)) (.finishRewrite h)
  · split
    · refine .ite (.maybeFlush ?_) (.retryWaiting h)
      split
      · exact .finishMove (.beginMove h)
      · exact .retryWaiting (.beginMove h)
    · exact .retryWaiting h

protected theorem Kept.finishPages (h : Kept cells s) {ch} : Kept cells (finishPages ch s) := .forEach h (fun _ _ ht => .finishPage (.finishPage ht))

protected theorem Kept.makeRoom (h : Kept cells s) : Kept cells (makeRoom s) := by
  unfold makeRoom
  split
  · exact .finishPage h
  · exact .finishPage h
  · exact h

protected theorem Kept.drainWrite (h : Kept cells s) {ch r} : Kept cells (drainWrite ch r s) := by
  unfold drainWrite
  extract_lets page stay pass w
  have hstay {t : State} (ht : Kept cells t) : Kept cells (stay t) := .setClassQ ht
  have hpass {t : State} (ht : Kept cells t) : KeptSome cells (pass t) := by
    have hgate : KeptGate cells (gateWrite ch r t) := .gateWrite ht
    dsimp only [pass]
    split
    · next he => exact .some (.applyWhole (he ▸ hgate).get_go)
    · next he => exact .some (.finishPage (.finishPage (he ▸ hgate).get_parked))
    · exact .none
  have hw : Kept cells w.2 := .snd (.readPageWord h)
  refine .ite (.failOp (.writeSettled h)) (.ite (hstay h) (.ite (hstay hw) ?_))
  split
  · next he => exact (he ▸ hpass hw).get
  · exact .getD (hpass (.makeRoom (.finishPage hw))) (hstay hw)

protected theorem Kept.finishQueues (h : Kept cells s) {ch} : Kept cells (finishQueues ch s) :=
  .forEach (.forEach h (fun _ _ ht => .setClassQ ht)) (fun _ _ ht => .drainWrite ht)

protected theorem Kept.finishChannel (h : Kept cells s) {ch} : Kept cells (finishChannel ch s) :=
  .finishQueues (.finishPages (.finishEngine (.finishCrypto (.finishHalves h))))

protected theorem Kept.acknowledge (h : Kept cells s) {ch d} : Kept cells (acknowledge ch d s) :=
  .ite (.endStopDrain (.enterSelfRefresh (.upd h))) (.enterSelfRefresh (.upd h))

protected theorem Keeps.execChannelSelfRefreshAck (h : Kept cells s) {ch} : Keeps cells (execChannelSelfRefreshAck ch s) := by
  unfold execChannelSelfRefreshAck
  split
  · exact .next h
  · exact .ite (.next h) (.ite (.next (.finishChannel h)) (.next (.acknowledge (.finishChannel h))))

protected theorem Kept.tearSystem (h : Kept cells s) {ch} : Kept cells (tearSystem ch s) := by
  unfold tearSystem
  extract_lets torn
  refine .ite (.drawn h) ?_
  split
  · exact .ite (.upd (.upd (.drawn h))) (.getD (.map (fun _ => .upd (.drawn h))) (.drawn h))
  · exact .getD (.map (fun _ => .upd (.drawn h))) (.drawn h)

protected theorem Kept.forceChannel (h : Kept cells s) {ch} : Kept cells (forceChannel ch s) := .upd (.enterSelfRefresh (.tearSystem h))

protected theorem Kept.forceChannels (h : Kept cells s) {d} : Kept cells (forceChannels d s) := .upd (.forEach h (fun _ _ ht => .forceChannel ht))

protected theorem Keeps.execDrainTimeout (h : Kept cells s) : Keeps cells (execDrainTimeout s) := by
  unfold execDrainTimeout
  split
  · exact .next h
  · exact .ite (.next h) (.ite (.next (.endStopDrain (.forceChannels h))) (.next (.upd (.forceChannels h))))

protected theorem Kept.wrstRecognised (h : Kept cells s) : Kept cells (wrstRecognised s) := by
  unfold wrstRecognised
  extract_lets p
  split
  · exact .ite (.upd h) h
  · exact .ite (.warmDrain h) h

protected theorem Keeps.execWrstNFall (h : Kept cells s) {lowNs} : Keeps cells (execWrstNFall lowNs s) :=
  .ite (.next h) (.ite (.ite (.next h) (.next (.ite (.wrstRecognised (.drawn h)) (.drawn h)))) (.next (.ite (.upd h) (.wrstRecognised (.upd h)))))

protected theorem Kept.ownReset (h : Kept cells s) : Kept cells (ownReset s) := .ite (.warmDrain h) h

protected theorem Kept.endColdStart (h : Kept cells s) : Kept cells (endColdStart s) := .ite (.warmDrain h) h

protected theorem KeptReply.warmResetRule (h : Kept cells s) {f} : KeptReply cells (warmResetRule f s) := .ite (.malformed h) (.done (.upd h))

protected theorem Keeps.execWarmReset (h : Kept cells s) {p f} : Keeps cells (execWarmReset p f s) :=
  .next (.runCommand h (fun _ ht => .warmResetRule ht))

protected theorem Keeps.execDrainBegin (h : Kept cells s) : Keeps cells (execDrainBegin s) := .ite (.next (.warmDrain h)) (.next h)

protected theorem Kept.enterStop (h : Kept cells s) : Kept cells (enterStop s) := by
  unfold enterStop
  dsimp only
  split
  · exact .ite (.upd (.upd h)) (.upd h)
  · exact .ite (.upd h) (.stopDrain (.upd (.upd h)))

protected theorem Kept.enterLock (h : Kept cells s) : Kept cells (enterLock s) :=
  .upd (.idlePorts (.forEach h (fun _ _ ht => .ite (.enterSelfRefresh ht) ht)))

/-! ### The operations of Machine/Bist -/

protected theorem Kept.setBist (h : Kept cells s) {ch v} : Kept cells (setBist ch v s) := h.same

protected theorem Kept.countFailure (h : Kept cells s) {ch repaired} : Kept cells (countFailure ch repaired s) := by
  unfold countFailure
  extract_lets b b1 s1
  have h1 : Kept cells s1 := .upd h
  split
  · exact .setBist h1
  · exact h1

protected theorem Kept.reportElement (h : Kept cells s) {ch src addr repaired} : Kept cells (reportElement ch src addr repaired s) :=
  .raise (.countFailure h)

protected theorem Kept.saveLine (h : Kept cells s) {ch k bank row j} : Kept cells (saveLine ch k bank row j s) := by
  unfold saveLine
  extract_lets slot d
  split
  · exact .writeLine (.snd (.decodeLine h))
  · exact .writeLine (.snd (.decodeLine h))
  · exact .putPoison (.snd (.decodeLine h))

protected theorem Kept.saveRows (h : Kept cells s) {ch form rows} : Kept cells (saveRows ch form rows s) :=
  .ite h (.systemBursts (.forEach h (fun _ _ ht => .forEach ht (fun _ _ ht' => .saveLine ht'))))

protected theorem Kept.restoreLine (h : Kept cells s) {ch k bank row j} : Kept cells (restoreLine ch k bank row j s) := by
  unfold restoreLine
  extract_lets d
  split
  · exact .writeLine (.snd (.decodeLine h))
  · exact .writeLine (.snd (.decodeLine h))
  · exact .putPoison (.snd (.decodeLine h))

protected theorem Kept.refillLine (h : Kept cells s) {line} : Kept cells (refillLine line s) := .writeLine h

protected theorem Kept.restoreRows (h : Kept cells s) {ch m} : Kept cells (restoreRows ch m s) :=
  .ite (.systemBursts (.forEach h (fun _ _ ht => .forEach ht (fun _ _ ht' => .refillLine ht')))) (.systemBursts (.forEach h
    (fun _ _ ht => .forEach ht (fun _ _ ht' => .restoreLine ht'))))

protected theorem Kept.writeWaiting (h : Kept cells s) {ch} : Kept cells (writeWaiting ch s) :=
  .forEach h.waits fun _ _ ht => .writeBytes ht

protected theorem Kept.endMarker (h : Kept cells s) {ch} : Kept cells (endMarker ch s) := by
  unfold endMarker
  split
  · exact h
  · exact .writeWaiting (.setBist (.restoreRows h))

protected theorem Kept.abortIf (h : Kept cells s) {p} : Kept cells (abortIf p s) := by
  unfold abortIf
  refine .forEach h (fun _ _ ht => ?_)
  split
  · exact .ite (.endMarker ht) ht
  · exact ht

protected theorem Kept.abortForLeases (h : Kept cells s) : Kept cells (abortForLeases s) := .ite h (.abortIf h)

protected theorem Kept.abortForSpare (h : Kept cells s) {ch i} : Kept cells (abortForSpare ch i s) := .abortIf h

protected theorem KeptSnd.repairCol {acc : List BistFail × State} (h : KeptSnd cells acc) {ch bank g} :
    KeptSnd cells (repairCol ch bank g acc) := by
  unfold repairCol
  split
  · exact .mk (.reportElement (.setBist (.snd h)))
  · exact h

protected theorem KeptSnd.repairRow {acc : List BistFail × State} (h : KeptSnd cells acc) {ch bank row} :
    KeptSnd cells (repairRow ch bank row acc) := by
  unfold repairRow
  dsimp only
  split
  · exact h
  · split
    · exact .mk (.reportElement (.setBist (.snd h)))
    · split
      · exact .repairCol h
      · exact .mk (.reportElement (.snd h))

protected theorem KeptSnd.repairBank {acc : List BistFail × State} (h : KeptSnd cells acc) {ch fails bank} :
    KeptSnd cells (repairBank ch fails bank acc) :=
  .mk (.snd (.foldl (.foldl (.mk (.snd h)) fun _ _ ht => .repairCol ht) fun _ _ ht => .repairRow ht))

protected theorem Kept.judgeBatch (h : Kept cells s) {ch fails still} : Kept cells (judgeBatch ch fails still s) := by
  unfold judgeBatch
  extract_lets a repaired bad first t
  have ha : KeptSnd cells a := .foldl (.mk h) fun _ _ ht => .repairBank ht
  exact .forEach (.systemBursts (.snd ha)) fun _ _ ht => .reportElement ht

protected theorem Kept.marchRow (h : Kept cells s) {ch x} : Kept cells (marchRow ch x s) := .forEach h (fun _ _ ht => .writeLine ht)

protected theorem Kept.markDone (h : Kept cells s) {ch} : Kept cells (markDone ch s) := h.same

protected theorem Kept.beginBatch (h : Kept cells s) {ch} : Kept cells (beginBatch ch s) :=
  .ite (.markDone (.setBist h)) (.ite h (.saveRows (.setBist h)))

protected theorem Kept.setBatchPhase (h : Kept cells s) {ch m p} : Kept cells (setBatchPhase ch m p s) := h.same

protected theorem Kept.nextPhase (h : Kept cells s) {ch m fails still} : Kept cells (nextPhase ch m fails still s) := by
  unfold nextPhase
  extract_lets own
  split
  · exact .systemBursts (.forEach (.setBatchPhase h) (fun _ _ ht => .marchRow ht))
  · exact .setBatchPhase (.judgeBatch h)
  · exact .upd (.endMarker h)

protected theorem Kept.lanePath (h : Kept cells s) {ch p} : Kept cells (lanePath ch p s) := by
  unfold lanePath
  extract_lets c bad
  refine .ite ?_ ?_
  · split
    · exact .ite h (.reportElement (.failLane h))
    · exact .reportElement (.setChan h)
  · exact .ite h (.ite (.ite h (.reportElement (.failLane h))) (.reportElement (.startRetirement h)))

protected theorem Kept.laneTest (h : Kept cells s) {ch items} : Kept cells (laneTest ch items s) :=
  .markDone (.forEach h (fun _ _ ht => .lanePath ht))

protected theorem Kept.sramTest (h : Kept cells s) {items} : Kept cells (sramTest items s) :=
  .forEach (.forEach h (fun _ _ ht => .reportElement ht)) (fun _ _ ht => .markDone ht)

protected theorem Kept.serdesTest (h : Kept cells s) {n items} : Kept cells (serdesTest n items s) := .markDone (.ite (.reportElement h) h)

protected theorem Keeps.execBistBatch (h : Kept cells s) {ch fails stillFailing badItems} :
    Keeps cells (execBistBatch ch fails stillFailing badItems s) := by
  unfold execBistBatch
  extract_lets n
  refine .ite (.next h) ?_
  refine .ite ?_ ?_
  · split
    · exact .next (.nextPhase h)
    · exact .next (.beginBatch h)
  · exact .ite (.next (.laneTest h)) (.ite (.next (.sramTest h)) (.next (.serdesTest h)))

protected theorem Kept.journalBist (h : Kept cells s) : Kept cells (journalBist s) := .journalEvent h

protected theorem Kept.endTest (h : Kept cells s) {st} : Kept cells (endTest st s) :=
  .ite (.ownReset (.journalBist (.upd h))) (.ite (.forEach (.journalBist (.upd h)) (fun _ _ ht => .setPort ht)) (.journalBist (.upd h)))

protected theorem Keeps.execBistEnd (h : Kept cells s) : Keeps cells (execBistEnd s) := .ite (.next h) (.next (.endTest h))

protected theorem KeptRefusal.bistPrefix (h : Kept cells s) {f} : KeptRefusal cells (bistPrefix f s) :=
  .ite (.some (.malformed h)) (.ite (.some (.malformed h)) (.ite (.some (.malformed h)) .none))

protected theorem Kept.startTest (h : Kept cells s) {test mask} : Kept cells (startTest test mask s) :=
  .ite (.forEach (.upd h) (fun _ _ ht => .changePort (.abandonRecal ht))) (.upd h)

protected theorem KeptReply.bistStartRule (h : Kept cells s) {f} : KeptReply cells (bistStartRule f s) := by
  unfold bistStartRule
  extract_lets test mask
  split
  · next he => exact (he ▸ KeptRefusal.bistPrefix h).get
  · exact .ite (.mk (.drawn h)) (.ite (.refuse h) (.ite (.refuse h) (.accepted (.startTest h))))

protected theorem Keeps.execBistStart (h : Kept cells s) {p f} : Keeps cells (execBistStart p f s) :=
  .ite (.next h) (.next (.runCommand h (fun _ ht => .bistStartRule ht)))

protected theorem Kept.endMarkers (h : Kept cells s) : Kept cells (endMarkers s) := .forEach h (fun _ _ ht => .endMarker ht)

protected theorem KeptReply.bistAbortRule (h : Kept cells s) {f} : KeptReply cells (bistAbortRule f s) := by
  unfold bistAbortRule
  split
  · next he => exact (he ▸ KeptRefusal.bistPrefix h).get
  · exact .accepted (.ite (.endTest (.endMarkers h)) h)

protected theorem Keeps.execBistAbort (h : Kept cells s) {p f} : Keeps cells (execBistAbort p f s) :=
  .ite (.next (.runCommand h (fun _ ht => .bistAbortRule ht))) (.next h)

/-! ### The operations of Machine/Round -/

protected theorem Kept.countSlabs (h : Kept cells s) {c} : Kept cells (countSlabs c s) := .forEach h (fun _ _ ht => .ite (.tenantCount ht) ht)

protected theorem Kept.swapBuffers (h : Kept cells s) : Kept cells (swapBuffers s) := h.same

protected theorem Kept.closeRun (h : Kept cells s) : Kept cells (closeRun s) := .ite h (.upd h)

protected theorem Kept.putRecord (h : Kept cells s) {minute tenant span stepped ended v} :
    Kept cells (putRecord minute tenant span stepped ended v s) :=
  .upd (.systemBursts (.writeSystem h))

protected theorem Kept.writeRun (h : Kept cells s) {r} : Kept cells (writeRun r s) := .forEach h (fun _ _ ht => .putRecord ht)

protected theorem Kept.writeRecords (h : Kept cells s) : Kept cells (writeRecords s) :=
  .upd (.forEach (.forEach (.ite (.journalEvent h) h) (fun _ _ ht => .writeRun ht)) (fun _ _ ht => .putRecord ht))

protected theorem Kept.endStep (h : Kept cells s) {m i} : Kept cells (endStep m i s) :=
  .ite (.endLease (.ite h (.ite (.ite (.endLease h) (.dropHold (.dropChain h))) (.saveLease (.setRegion (.dropChain h)))))) (.ite h (.ite (.ite
    (.endLease h) (.dropHold (.dropChain h))) (.saveLease (.setRegion (.dropChain h)))))

protected theorem Kept.lapseRevoke (h : Kept cells s) {id} : Kept cells (lapseRevoke id s) := by
  unfold lapseRevoke
  split
  · exact .dropChain h
  · exact .upd h

protected theorem Kept.lapseRevokes (h : Kept cells s) {m} : Kept cells (lapseRevokes m s) := .upd (.forEach h (fun _ _ ht => .lapseRevoke ht))

protected theorem Kept.continueStep (h : Kept cells s) {m i} : Kept cells (continueStep m i s) := .ite (.continueLease h) h

protected theorem Kept.startStep (h : Kept cells s) {m p} : Kept cells (startStep m p s) :=
  .ite h (.ite (.ite (.holdStart h) h) (.startLease (.loadEntry h)))

protected theorem Kept.showNext (h : Kept cells s) {m i} : Kept cells (showNext m i s) := .ite (.loadEntry h) h

protected theorem Kept.noteActive (h : Kept cells s) : Kept cells (noteActive s) := h.same

protected theorem Kept.pruneHeld (h : Kept cells s) {m} : Kept cells (pruneHeld m s) := h.same

protected theorem Kept.boundary (h : Kept cells s) {m} : Kept cells (boundary m s) := by
  unfold boundary
  exact .beginPreparation (.noteActive (.pruneHeld (.forEach (.forEach (.forEach (.lapseRevokes (.forEach (.adoptAtBoundary (.swapBuffers
      (.countSlabs (.upd (.closeRun h))))) (fun _ _ ht => .endStep ht))) (fun _ _ ht => .continueStep ht)) (fun _ _ ht => .startStep ht))
      (fun _ _ ht => .showNext ht))))

protected theorem Kept.runBoundaries (h : Kept cells s) {n} : Kept cells (runBoundaries n s) := by
  induction n generalizing s with
  | zero => exact h
  | succ n ih => exact .ite h (ih (.boundary h))

protected theorem Kept.settleBoundaries (h : Kept cells s) : Kept cells (settleBoundaries s) :=
  .ite (.writeRecords (.runBoundaries h)) (.runBoundaries h)

protected theorem Kept.settleRound (h : Kept cells s) : Kept cells (settleRound s) := .ite (.settleBoundaries h) h

protected theorem Keeps.execMinuteBoundary (h : Kept cells s) : Keeps cells (execMinuteBoundary s) :=
  .ite (.next h) (.next (.copyCeLog (.abortForLeases (.settleRound (.upd h)))))

protected theorem Keeps.execHeldLeaseStart (h : Kept cells s) {region} : Keeps cells (execHeldLeaseStart region s) := by
  unfold execHeldLeaseStart
  extract_lets i
  refine .ite (.next h) ?_
  split
  · exact .next (.settleRound (.dropHold h))
  · exact .next (.settleRound (.startLease (.loadEntry h)))

protected theorem Kept.anchorFirst (h : Kept cells s) {m us auto} : Kept cells (anchorFirst m us auto s) := h.same

protected theorem Kept.stepForward (h : Kept cells s) {us} : Kept cells (stepForward us s) := .settleRound (.upd h)

protected theorem KeptReply.anchorRule (h : Kept cells s) {f} : KeptReply cells (anchorRule f s) :=
  .ite (.malformed h) (.ite (.ite (.done (.anchorFirst (.upd h))) (.done (.upd h))) (.ite (.done (.stepForward (.upd h))) (.ite (.done (.upd
    (.upd h))) (.refuse h))))

protected theorem Keeps.execAnchor (h : Kept cells s) {p f} : Keeps cells (execAnchor p f s) := .next (.runCommand h (fun _ ht => .anchorRule ht))

protected theorem KeptReply.trimRule (h : Kept cells s) {f} : KeptReply cells (trimRule f s) := by
  unfold trimRule
  extract_lets d us
  refine .ite (.malformed h) ?_
  refine .ite ?_ (.done ?_)
  · split
    · exact .refuse h
    · exact .done (.upd h)
  · exact .ite (.stepForward h) (.upd h)

protected theorem Keeps.execTrim (h : Kept cells s) {p f} : Keeps cells (execTrim p f s) := .next (.runCommand h (fun _ ht => .trimRule ht))

protected theorem KeptReply.revokeRule (h : Kept cells s) {f} : KeptReply cells (revokeRule f s) :=
  .ite (.malformed h) (.ite (.refuse h) (.ite (.refuse h) (.ite (.refuse h) (.ite (.refuse h) (.ite (.refuse h) (.done (.tenantCount (.saveLease
    (.setRegion (.upd h))))))))))

protected theorem Keeps.execRevokeLease (h : Kept cells s) {p f} : Keeps cells (execRevokeLease p f s) :=
  .next (.runCommand h (fun _ ht => .revokeRule ht))

/-! ### The operations of Machine/Faults -/

protected theorem Kept.dropMessage (h : Kept cells s) {m} : Kept cells (dropMessage m s) := by
  unfold dropMessage
  extract_lets c left
  split
  · exact .upd h
  · exact .upd h

protected theorem Kept.putFaultRecord (h : Kept cells s) {r} : Kept cells (putFaultRecord r s) := .ite (.upd h) (.upd h)

protected theorem KeptSnd.sendRecordEvent (h : Kept cells s) {r} : KeptSnd cells (sendRecordEvent r s) :=
  .ite (.mk h) (.ite (.mk (.chainCount h)) (.mk (.sendEvent (.upd h))))

protected theorem Kept.setCause (h : Kept cells s) {r} : Kept cells (setCause r s) := h.same

protected theorem Kept.takeStop (h : Kept cells s) {r} : Kept cells (takeStop r s) := .upd (.enterStop (.ite (.setCause h) h))

protected theorem Kept.takeLock (h : Kept cells s) {r} : Kept cells (takeLock r s) := .enterLock (.ite h (.setCause h))

protected theorem Kept.takeMessage (h : Kept cells s) {m} : Kept cells (takeMessage m s) := by
  unfold takeMessage
  extract_lets s0 e _ r s1 s2
  have h1 : Kept cells s1 := .putFaultRecord (.snd (.sendRecordEvent (.dropMessage h)))
  have h2 : Kept cells s2 := .ite (.pushEntry h1) h1
  exact .ite (.takeStop h2) (.ite (.takeLock h2) h2)

protected theorem Kept.takeNext (h : Kept cells s) : Kept cells (takeNext s) := by
  unfold takeNext
  split
  · exact .takeMessage h
  · exact h

protected theorem Keeps.execFaultMessage (h : Kept cells s) : Keeps cells (execFaultMessage s) := .ite (.next (.takeNext h)) (.next h)

protected theorem Kept.takeWaiting (h : Kept cells s) {phase n} : Kept cells (takeWaiting phase n s) := by
  induction n generalizing s with
  | zero => exact h
  | succ n ih => exact .ite (ih (.takeNext h)) h

protected theorem Kept.settleChurn (h : Kept cells s) : Kept cells (settleChurn s) := .takeWaiting h

protected theorem Kept.churnLock (h : Kept cells s) {c pointersOk} : Kept cells (churnLock c pointersOk s) :=
  .ite (.enterLock (.setCause (.putFaultRecord h))) (.enterLock (.upd (.setCause h)))

protected theorem Keeps.execChurnFault (h : Kept cells s) {cause pointersOk} : Keeps cells (execChurnFault cause pointersOk s) :=
  .ite (.next (.churnLock h)) (.next h)

protected theorem Keeps.execHandshakeTimeout (h : Kept cells s) {sender receiver} : Keeps cells (execHandshakeTimeout sender receiver s) :=
  .ite (.next (.raise h)) (.next h)

protected theorem Keeps.execHeartbeat (h : Kept cells s) : Keeps cells (execHeartbeat s) := .ite (.next (.upd h)) (.next h)

protected theorem Keeps.execWatchdogExpiry (h : Kept cells s) : Keeps cells (execWatchdogExpiry s) := .ite (.next (.raise (.upd h))) (.next h)

/-! ### The operations of Machine/Supplies -/

protected theorem Kept.violate (h : Kept cells s) {e r} : Kept cells (violate e r s) := .ite (.raise h) (.upd (.raise h))

protected theorem Keeps.execSupplySequenceViolation (h : Kept cells s) {event rail} : Keeps cells (execSupplySequenceViolation event rail s) :=
  .next (.ite (.violate h) h)

protected theorem Kept.railFalls (h : Kept cells s) {r} : Kept cells (railFalls r s) := h.same

protected theorem Keeps.execSupplyOutOfWindow (h : Kept cells s) {rail layer high ns} : Keeps cells (execSupplyOutOfWindow rail layer high ns s) := by
  unfold execSupplyOutOfWindow
  extract_lets a
  refine .ite (.next h) ?_
  split
  · exact .ite (.next (.raise h)) (.next h)
  · exact .ite (.next (.raise h)) (.ite (.next h) (.next (.railFalls h)))

protected theorem Kept.railStarts (h : Kept cells s) {r} : Kept cells (railStarts r s) := .ite (.upd h) (.violate (.upd h))

protected theorem Kept.railFull (h : Kept cells s) {r} : Kept cells (railFull r s) :=
  .ite h (.ite (.forEach (.upd h) (fun _ _ ht => .violate ht)) (.ite (.ite (.upd (.upd h)) (.ite (.violate (.upd h)) (.upd h))) (.upd h)))

protected theorem Keeps.execRailUp (h : Kept cells s) {rail full} : Keeps cells (execRailUp rail full s) :=
  .next (.ite (.railFull (.railStarts h)) (.railStarts h))

protected theorem Keeps.execPwrOkRise (h : Kept cells s) : Keeps cells (execPwrOkRise s) := .next (.upd h)

protected theorem Kept.sleepAll (h : Kept cells s) : Kept cells (sleepAll s) := .forEach (.upd h) (fun _ _ ht => .ite (.enterSelfRefresh ht) ht)

protected theorem Keeps.execPwrOkFall (h : Kept cells s) {railsIn stable} : Keeps cells (execPwrOkFall railsIn stable s) :=
  .ite (.next h) (.ite (.next (.upd h)) (.next (.sleepAll (.ite (.flushJournal (.journalEvent (.idlePorts (.raise (.upd h))))) (.idlePorts
    (.raise (.upd h)))))))

protected theorem Kept.stopChainPort (h : Kept cells s) {p} : Kept cells (stopChainPort p s) := .ite h (.setCPort (.breakHop h))

protected theorem Keeps.execRefclkStopped (h : Kept cells s) : Keeps cells (execRefclkStopped s) :=
  .ite (.next (.upd h)) (.ite (.next h) (.next (.stopChainPort (.stopChainPort (.raise (.upd h))))))

protected theorem Keeps.execRefclkOffFrequency (h : Kept cells s) : Keeps cells (execRefclkOffFrequency s) := .ite (.next h) (.next (.raise (.upd h)))

protected theorem Keeps.execRefclkRestored (h : Kept cells s) : Keeps cells (execRefclkRestored s) :=
  .ite (.next h) (.ite (.next (.upd h)) (.next (.ite (.wrstRecognised (.upd h)) (.upd h))))

protected theorem Kept.coldReset (h : Kept cells s) : Kept cells (coldReset s) := by
  obtain ⟨⟨_, _, _, hflash, hotp⟩, hkept⟩ := h
  exact ⟨⟨rfl, rfl, .nil, hflash, hotp⟩, hkept⟩

protected theorem Kept.porFalls (h : Kept cells s) : Kept cells (porFalls s) := .ite (.upd h) (.coldReset (.upd h))

protected theorem Keeps.execPorNFall (h : Kept cells s) {lowUs} : Keeps cells (execPorNFall lowUs s) :=
  .ite (.next h) (.ite (.next (.ite (.porFalls (.drawn h)) (.drawn h))) (.next (.porFalls h)))

protected theorem Kept.drawPointer (h : Kept cells s) : Kept cells (drawPointer s) := .upd (.snd (.generate h))

protected theorem Kept.startDraws (h : Kept cells s) : Kept cells (startDraws s) := h.same

protected theorem Kept.porRises (h : Kept cells s) {head} : Kept cells (porRises head s) :=
  .ite (.upd (.upd (.coldReset (.upd h)))) (.startDraws (.upd (.coldReset (.upd h))))

protected theorem Keeps.execPorNRise (h : Kept cells s) {head} : Keeps cells (execPorNRise head s) :=
  .ite (.next h) (.ite (.next (.upd h)) (.next (.porRises h)))

protected theorem Keeps.execIslandPllLock (h : Kept cells s) : Keeps cells (execIslandPllLock s) := .ite (.next h) (.next (.upd h))

protected theorem Keeps.execSupplyRemoval (h : Kept cells s) : Keeps cells (execSupplyRemoval s) := .next (.upd (.coldReset (.upd h)))

/-! ### The operations of Machine/Start -/

protected theorem Kept.setPhase (h : Kept cells s) {p halt} : Kept cells (setPhase p halt s) := h.same

protected theorem Kept.sleepChannels (h : Kept cells s) : Kept cells (sleepChannels s) := .forEach h (fun _ _ ht => .ite (.enterSelfRefresh ht) ht)

protected theorem Kept.haltStart (h : Kept cells s) {p halt} : Kept cells (haltStart p halt s) :=
  .endColdStart (.setPhase (.ite (.sleepChannels h) h))

protected theorem Kept.reportOtp (h : Kept cells s) : Kept cells (reportOtp s) :=
  .forEach (.forEach h (fun _ _ ht => .raise ht)) (fun _ _ ht => .ite (.raise ht) ht)

protected theorem Kept.reportFuses (h : Kept cells s) : Kept cells (reportFuses s) := .ite (.raise h) (.ite (.raise h) h)

protected theorem Kept.readOtp (h : Kept cells s) {weak} : Kept cells (readOtp weak s) := .reportFuses (.reportOtp (.upd (.upd h)))

protected theorem Keeps.execOtpMarginRead (h : Kept cells s) {weak} : Keeps cells (execOtpMarginRead weak s) := by
  unfold execOtpMarginRead
  refine .ite (.next h) ?_
  extract_lets s1
  have h1 : Kept cells s1 := .readOtp h
  split
  · exact .next (.haltStart h1)
  · exact .next (.setPhase h1)

protected theorem Kept.retireAtStart (h : Kept cells s) {ch} : Kept cells (retireAtStart ch s) := .leaveChannel (.startRetirement h)

protected theorem Kept.badPath (h : Kept cells s) {ch p} : Kept cells (badPath ch p s) := by
  unfold badPath
  refine .ite h ?_
  refine .ite ?_ ?_
  · exact .ite h (.ite (.retireAtStart (.failLane h)) (.failLane h))
  · refine .ite ?_ (.retireAtStart h)
    extract_lets c
    split
    · exact .ite (.retireAtStart (.failLane h)) (.failLane h)
    · exact .setChan h

protected theorem Kept.loadRepairs (h : Kept cells s) : Kept cells (loadRepairs s) := h.same

protected theorem Kept.repairLane (h : Kept cells s) {e} : Kept cells (repairLane e s) := .ite h (.forEach (.setChan h) (fun _ _ ht => .failLane ht))

protected theorem Kept.initLayers (h : Kept cells s) {bad} : Kept cells (initLayers bad s) :=
  .forEach (.forEach (.forEach (.loadRepairs (.upd (.forEach h (fun _ _ ht => .seedSampler (.setChan ht))))) (fun _ _ ht => .repairLane ht))
    (fun _ _ ht => .badPath ht)) (fun _ _ ht => .badPath ht)

protected theorem Keeps.execLayerInitialisation (h : Kept cells s) {badPaths} : Keeps cells (execLayerInitialisation badPaths s) :=
  .ite (.next h) (.next (.initLayers h))

protected theorem Kept.loadFactory (h : Kept cells s) : Kept cells (loadFactory s) := h.same

protected theorem Keeps.execFactoryAreaCheck (h : Kept cells s) : Keeps cells (execFactoryAreaCheck s) :=
  .ite (.next h) (.ite (.next (.setPhase (.loadFactory h))) (.next (.haltStart (.raise h))))

protected theorem Kept.emptyArray (h : Kept cells s) : Kept cells { s with dram := { data := [], poison := [], upsets := [], waits := [] } } := by
  obtain ⟨⟨_, _, _, hflash, hotp⟩, hkept⟩ := h
  exact ⟨⟨rfl, rfl, .nil, hflash, hotp⟩, hkept⟩

protected theorem Kept.fillMemory (h : Kept cells s) : Kept cells (fillMemory s) := by
  have hd : Kept cells (generate 64 s).2 := .snd (.generate h)
  exact .settleJournal (hd.emptyArray.same)

protected theorem Keeps.execMemoryFill (h : Kept cells s) : Keeps cells (execMemoryFill s) := .ite (.next h) (.next (.setPhase (.fillMemory h)))

protected theorem Kept.failedBank (h : Kept cells s) {k e} : Kept cells (failedBank k e s) := .setBS h

protected theorem Kept.invalidBank (h : Kept cells s) {k e otherOk} : Kept cells (invalidBank k e otherOk s) := .raiseAs (.failedBank h)

protected theorem Kept.validBank (h : Kept cells s) {k} : Kept cells (validBank k s) := .ite (.setBS h) (.ite (.setBS h) (.setBS h))

protected theorem Kept.checkAtStart (h : Kept cells s) {k} : Kept cells (checkAtStart k s) := by
  unfold checkAtStart
  refine .ite h ?_
  split
  · exact .invalidBank h
  · exact .validBank h

protected theorem Kept.takeHeld (h : Kept cells s) : Kept cells (takeHeld s) := by
  unfold takeHeld
  split
  · exact .ite h (.anchorFirst h)
  · exact h

protected theorem Keeps.execPlanBankCheck (h : Kept cells s) : Keeps cells (execPlanBankCheck s) :=
  .ite (.next h) (.ite (.next (.setPhase (.takeHeld (.checkAtStart (.checkAtStart h))))) (.next (.haltStart (.checkAtStart (.checkAtStart h)))))

protected theorem Kept.beginTraining (h : Kept cells s) : Kept cells (beginTraining s) :=
  .forEach (.forEach h (fun _ _ ht => .setPort ht)) (fun _ _ ht => .ite (.setLane ht) ht)

protected theorem Kept.loadPlan (h : Kept cells s) {k p} : Kept cells (loadPlan k p s) :=
  .startLatency (.dueCalendars (.journalEvent (.setBS (.upd h))))

protected theorem Kept.loadRegions (h : Kept cells s) : Kept cells (loadRegions s) := .forEach h (fun _ _ ht => .ite ht (.loadEntry ht))

protected theorem Kept.autoAnchor (h : Kept cells s) {k p} : Kept cells (autoAnchor k p s) := .ite h (.journalEvent (.anchorFirst h))

protected theorem Kept.enterPlan (h : Kept cells s) {k p} : Kept cells (enterPlan k p s) :=
  .setPhase (.beginTraining (.forEach (.loadRegions (.loadPlan (.upd (.autoAnchor h)))) (fun _ _ ht => .ite (.startLease ht) ht)))

protected theorem Kept.checkLate (h : Kept cells s) {k} : Kept cells (checkLate k s) := by
  unfold checkLate
  extract_lets st
  refine .ite h ?_
  split
  · exact .invalidBank h
  · exact h

protected theorem KeptTried.tryBank (h : Kept cells s) {k} : KeptTried cells (tryBank k s) := by
  unfold tryBank
  split
  · exact .passedOver h
  · extract_lets now
    refine .ite (.passedOver (.setBS h)) ?_
    split
    · exact .refused (.refuseCompat h)
    · split
      · exact .refused (.refuseAdmission h)
      · exact .inForce (.enterPlan h)

protected theorem Kept.tryBanks (h : Kept cells s) {l failed} : Kept cells (tryBanks l failed s) := by
  induction l generalizing failed s with
  | nil => exact .haltStart (.upd h)
  | cons k l ih =>
    have hk : KeptTried cells (tryBank k s) := .tryBank h
    unfold tryBanks
    cases he : tryBank k s <;> rw [he] at hk
    · exact hk.get_inForce
    · exact ih hk.get_passedOver
    · exact ih hk.get_refused

protected theorem Kept.selectPlan (h : Kept cells s) : Kept cells (selectPlan s) := .tryBanks (.checkLate (.checkLate h))

protected theorem Keeps.execPlanSelection (h : Kept cells s) : Keeps cells (execPlanSelection s) :=
  .ite (.next h) (.ite (.next (.ite (.setPhase (.takeHeld h)) (.takeHeld h))) (.ite (.next (.selectPlan h)) (.next h)))

protected theorem Keeps.execServiceOpen (h : Kept cells s) : Keeps cells (execServiceOpen s) :=
  .ite (.next h) (.next (.endColdStart (.forEach (.setPhase h) (fun _ _ ht => .announce ht))))

/-! ### The operations of Machine/WarmStart -/

protected theorem Kept.invalidate (h : Kept cells s) : Kept cells (invalidate s) := h.same

protected theorem Kept.restartModels (h : Kept cells s) : Kept cells (restartModels s) := h.same

protected theorem Kept.leaveDrain (h : Kept cells s) : Kept cells (leaveDrain s) := .startDraws (.restartModels (.invalidate (.upd h)))

protected theorem Kept.leaveHot (h : Kept cells s) : Kept cells (leaveHot s) := h.same

protected theorem Kept.wakeChannel (h : Kept cells s) {ch} : Kept cells (wakeChannel ch s) := .seedSampler (.setChan h)

protected theorem Kept.wakeBanks (h : Kept cells s) {ch} : Kept cells (wakeBanks ch s) := .forEach h (fun _ _ ht => .setBank ht)

protected theorem Kept.wakeChannels (h : Kept cells s) : Kept cells (wakeChannels s) :=
  .upd (.forEach h (fun _ _ ht => .ite (.wakeBanks (.wakeChannel ht)) ht))

protected theorem Kept.backToStop (h : Kept cells s) : Kept cells (backToStop s) := h.same

protected theorem Kept.restoreMarkers (h : Kept cells s) : Kept cells (restoreMarkers s) := .upd (.endMarkers h)

protected theorem Kept.finishInits (h : Kept cells s) : Kept cells (finishInits s) := .forEach h (fun _ _ ht => .finishInit ht)

protected theorem Kept.tearLine (h : Kept cells s) {e} : Kept cells (tearLine e s) := .raise (.poisonNew h)

protected theorem Kept.tearMeta (h : Kept cells s) {dma} : Kept cells (tearMeta dma s) := .forEach h (fun _ _ ht => .poisonNew ht)

protected theorem Kept.tearRing (h : Kept cells s) {line} : Kept cells (tearRing line s) := .loseRing (.raiseDetail h)

protected theorem Kept.tearLines (h : Kept cells s) : Kept cells (tearLines s) :=
  .upd (.forEach (.forEach (.forEach h (fun _ _ ht => .tearLine ht)) (fun _ _ ht => .tearMeta ht)) (fun _ _ ht => .tearRing ht))

protected theorem Kept.reloadRemapLine (h : Kept cells s) {x} : Kept cells (reloadRemapLine x s) := by
  unfold reloadRemapLine
  extract_lets line d take
  split
  · exact .upd (.snd (.readSystem h))
  · exact .writeRemapLine (.snd (.readSystem h))

protected theorem Kept.reloadRemap (h : Kept cells s) : Kept cells (reloadRemap s) := .forEach h (fun _ _ ht => .reloadRemapLine ht)

protected theorem Kept.journalWarm (h : Kept cells s) : Kept cells (journalWarm s) :=
  .upd (.ite (.pushEntry (.settleChurn (.tearLines (.forEach (.finishInits (.reloadRemap (.restoreMarkers h))) (fun _ _ ht => .pushEntry ht)))))
    (.settleChurn (.tearLines (.forEach (.finishInits (.reloadRemap (.restoreMarkers h))) (fun _ _ ht => .pushEntry ht)))))

protected theorem Kept.keepCuts (h : Kept cells s) : Kept cells (keepCuts s) := .forEach h (fun _ _ ht => .ite ht (.setParlour ht))

protected theorem Kept.endAllLeases (h : Kept cells s) : Kept cells (endAllLeases s) :=
  .ite h (.forEach (.upd h) (fun _ _ ht => .ite (.endLease ht) ht))

protected theorem Kept.reloadPlan (h : Kept cells s) {k p} : Kept cells (reloadPlan k p s) := by
  unfold reloadPlan
  extract_lets s1 s2 s3 _ s4
  have h2 : Kept cells s2 := .loadRegions (.forEach (.loadPlan (.keepCuts (.keepRevokes h))) fun _ _ ht => .recallRegion ht)
  have h3 : Kept cells s3 := .settleBoundaries (.endAllLeases h2)
  have h4 : Kept cells s4 := .upd h3
  exact .setPhase (.beginTraining h4)

protected theorem KeptSnd.readRecords (h : Kept cells s) : KeptSnd cells (readRecords s) := by
  unfold readRecords
  exact .foldl (.mk h) fun _ _ hz => .mk (.snd (.readLines (.snd hz) fun _ _ ht => .rebuildRecs ht))

protected theorem KeptTried.tryReload (h : Kept cells s) {k} : KeptTried cells (tryReload k s) := by
  unfold tryReload
  dsimp only
  split
  · exact .passedOver (.drawn (.invalidBank h))
  · refine .ite (.passedOver (.setBS h)) ?_
    split
    · exact .refused (.refuseCompat (.snd (.readRecords h)))
    · split
      · exact .refused (.refuseAdmission (.snd (.readRecords h)))
      · exact .inForce (.reloadPlan (.snd (.readRecords h)))

protected theorem Kept.tryReloads (h : Kept cells s) {l failed} : Kept cells (tryReloads l failed s) := by
  induction l generalizing failed s with
  | nil => exact .haltStart (.upd h)
  | cons k l ih =>
    have hk : KeptTried cells (tryReload k s) := .tryReload h
    unfold tryReloads
    cases he : tryReload k s <;> rw [he] at hk
    · exact hk.get_inForce
    · exact ih hk.get_passedOver
    · exact ih hk.get_refused

protected theorem Kept.checkAtWarm (h : Kept cells s) {k} : Kept cells (checkAtWarm k s) := by
  unfold checkAtWarm
  refine .ite h ?_
  split
  · exact .ite (.invalidBank h) (.failedBank h)
  · extract_lets t
    have ht : Kept cells t := .validBank h
    refine .ite ht ?_
    split
    · exact .failedBank ht
    · exact ht

protected theorem Kept.selectWarm (h : Kept cells s) : Kept cells (selectWarm s) :=
  .ite (.haltStart (.checkAtWarm (.checkAtWarm h))) (.ite (.setPhase (.takeHeld (.checkAtWarm (.checkAtWarm h)))) (.tryReloads (.checkAtWarm
    (.checkAtWarm h))))

protected theorem Kept.wakeUp (h : Kept cells s) : Kept cells (wakeUp s) := by
  unfold wakeUp
  extract_lets s0 s1 s2
  have h1 : Kept cells s1 := .forEach (.loadRepairs (.loadFactory h)) fun _ _ ht => .repairLane ht
  have h2 : Kept cells s2 := .journalWarm (.wakeChannels (.leaveHot h1))
  exact .ite (.backToStop h1) (.ite (.selectWarm h2) h2)

protected theorem Kept.startUnfilled (h : Kept cells s) : Kept cells (startUnfilled s) := h.coldReset.same

protected theorem Kept.beginWarm (h : Kept cells s) {weak} : Kept cells (beginWarm weak s) := by
  unfold beginWarm
  extract_lets s1
  have h1 : Kept cells s1 := .readOtp (.leaveDrain h)
  split
  · exact .haltStart (.leaveHot h1)
  · exact .ite h1 (.startUnfilled h1)

protected theorem Kept.goOnWarm (h : Kept cells s) : Kept cells (goOnWarm s) := .ite (.wakeUp h) (.haltStart (.leaveHot (.raise h)))

protected theorem Keeps.execWarmStart (h : Kept cells s) {weak} : Keeps cells (execWarmStart weak s) := by
  unfold execWarmStart
  refine .ite (.next h) ?_
  split
  · exact .ite (.next (.goOnWarm h)) (.next h)
  · exact .ite (.next h) (.ite (.next (.upd h)) (.next (.beginWarm h)))

/-! ### The operations of Machine/Commands -/

protected theorem Kept.resumeStart (h : Kept cells s) {k} : Kept cells (resumeStart k s) :=
  .ite (.selectWarm (.setPhase (.ite (.wakeChannels (.upd h)) (.upd h)))) (.setPhase (.ite (.wakeChannels (.upd h)) (.upd h)))

protected theorem KeptReply.adoptRule (h : Kept cells s) {f} : KeptReply cells (adoptRule f s) := by
  unfold adoptRule
  split
  · next he => exact (he ▸ KeptRefusal.stagePrefix h).get
  · exact .ite (.mk (.resumeStart (.st (.adoptArm h)))) (.adoptArm h)

protected theorem Keeps.execAdopt (h : Kept cells s) {p f} : Keeps cells (execAdopt p f s) :=
  .ite (.next h) (.next (.runCommand h (fun _ ht => .adoptRule ht)))

protected theorem KeptReply.retireRule (h : Kept cells s) {f} : KeptReply cells (retireRule f s) := by
  unfold retireRule
  extract_lets page
  split
  · exact .refuse h
  · exact .accepted (.endRetirements (.startPage (.forEach h (fun _ _ ht => .abortForSpare ht))))

protected theorem Keeps.execRetirePage (h : Kept cells s) {p f} : Keeps cells (execRetirePage p f s) :=
  .next (.runCommand h (fun _ ht => .retireRule ht))

protected theorem KeptRefusal.quiescePrefix (h : Kept cells s) {f} : KeptRefusal cells (quiescePrefix f s) :=
  .ite (.some (.malformed h)) (.ite (.some (.malformed h)) (.ite (.some (.malformed h)) (.ite (.some (.refuse h)) .none)))

protected theorem KeptReply.quiesceRule (h : Kept cells s) {f} : KeptReply cells (quiesceRule f s) := by
  unfold quiesceRule
  extract_lets p
  split
  · next he => exact (he ▸ KeptRefusal.quiescePrefix h).get
  · exact .ite (.accepted h) (.ite (.refuse h) (.accepted (.abandonRecal (.setPort h))))

protected theorem Keeps.execQuiescePort (h : Kept cells s) {p f} : Keeps cells (execQuiescePort p f s) :=
  .ite (.next h) (.next (.runCommand h (fun _ ht => .quiesceRule ht)))

protected theorem KeptReply.resumeRule (h : Kept cells s) {f} : KeptReply cells (resumeRule f s) := by
  unfold resumeRule
  split
  · next he => exact (he ▸ KeptRefusal.quiescePrefix h).get
  · exact .accepted (.changePort h)

protected theorem Keeps.execQuiescePortResume (h : Kept cells s) {p f} : Keeps cells (execQuiescePortResume p f s) :=
  .ite (.next (.runCommand h (fun _ ht => .resumeRule ht))) (.next h)

protected theorem KeptRefusal.snapshotPrefix (h : Kept cells s) {f} : KeptRefusal cells (snapshotPrefix f s) :=
  .ite (.some (.malformed h)) (.ite (.some (.malformed h)) (.ite (.some (.malformed h)) (.ite (.some (.malformed h)) (.ite (.some
    (.malformed h)) .none))))

protected theorem Kept.takeView (h : Kept cells s) {first count g} : Kept cells (takeView first count g s) := h.same

protected theorem Kept.clearGroup (h : Kept cells s) {first count g} : Kept cells (clearGroup first count g s) := by
  unfold clearGroup
  extract_lets c m
  split
  · exact .upd h
  · exact .upd h
  · exact .upd h
  · exact .upd h
  · exact .upd h
  · exact .upd h

protected theorem KeptReply.snapshotRule (h : Kept cells s) {clear f} : KeptReply cells (snapshotRule clear f s) := by
  unfold snapshotRule
  extract_lets first count
  split
  · next he => exact (he ▸ KeptRefusal.snapshotPrefix h).get
  · exact .done (.ite (.forEach (.forEach h (fun _ _ ht => .takeView ht)) (fun _ _ ht => .clearGroup ht)) (.forEach h (fun _ _ ht => .takeView ht)))

protected theorem KeptReply.releaseRule (h : Kept cells s) {f} : KeptReply cells (releaseRule f s) := by
  unfold releaseRule
  split
  · next he => exact (he ▸ KeptRefusal.snapshotPrefix h).get
  · exact .done (.upd h)

protected theorem Keeps.execSnapshotTake (h : Kept cells s) {p f} : Keeps cells (execSnapshotTake p f s) :=
  .ite (.next h) (.next (.runCommand h (fun _ ht => .snapshotRule ht)))

protected theorem Keeps.execSnapshotTakeClear (h : Kept cells s) {p f} : Keeps cells (execSnapshotTakeClear p f s) :=
  .ite (.next (.runCommand h (fun _ ht => .snapshotRule ht))) (.next h)

protected theorem Keeps.execSnapshotRelease (h : Kept cells s) {p f} : Keeps cells (execSnapshotRelease p f s) :=
  .ite (.next (.runCommand h (fun _ ht => .releaseRule ht))) (.next h)

protected theorem Keeps.execSnapshotExpiry (h : Kept cells s) {group} : Keeps cells (execSnapshotExpiry group s) := .next (.upd h)

/-! ### The operations of Machine/Ports -/

protected theorem Kept.takeBuffer (h : Kept cells s) {p prio len} : Kept cells (takeBuffer p prio len s) :=
  .ite (.ite (.portCount h) (.ite (.sendFrame (.setPort h)) (.setPort h))) (.ite (.portCount h) (.setPort h))

protected theorem Kept.takeSlow (h : Kept cells s) {p f} : Kept cells (takeSlow p f s) :=
  .ite (.portCount h) (.ite (.portCount (.portCount (.upd h))) (.ite (.portCount (.portCount (.upd h))) (.ite (.portCount (.upd h)) (.upd
    (.portCount (.upd h))))))

protected theorem Keeps.execDataFrameReceive (h : Kept cells s) {port f} : Keeps cells (execDataFrameReceive port f s) := by
  unfold execDataFrameReceive
  split
  · exact .next h
  · refine .ite (.next h) ?_
    extract_lets p s1
    have h1 : Kept cells s1 := .portCount (.portCount (.portCount (.portCount h)))
    split
    · exact .next (.portCount h1)
    · exact .ite (.next h1) (.ite (.next (.takeBuffer (.portCount h1))) (.next (.takeSlow (.portCount h1))))

protected theorem Keeps.execPfcReceive (h : Kept cells s) {port enable quanta} : Keeps cells (execPfcReceive port enable quanta s) :=
  .ite (.next h) (.next (.forEach (.portCount h) (fun _ _ ht => .ite ht (.ite (.setPort ht) (.flushPrio (.setPort ht))))))

protected theorem Keeps.execPfcPauseExpiry (h : Kept cells s) {port prio} : Keeps cells (execPfcPauseExpiry port prio s) :=
  .next (.flushPrio (.setPort h))

protected theorem Keeps.execPfcWatchdog (h : Kept cells s) {port prio} : Keeps cells (execPfcWatchdog port prio s) :=
  .ite (.next h) (.next (.portCount (.setPort h)))

protected theorem Keeps.execPfcXoffRepeat (h : Kept cells s) {port prio} : Keeps cells (execPfcXoffRepeat port prio s) :=
  .ite (.next (.sendFrame h)) (.next h)

protected theorem Keeps.execPfcXon (h : Kept cells s) {port prio freed} : Keeps cells (execPfcXon port prio freed s) :=
  .ite (.next (.sendFrame (.setPort h))) (.next (.setPort h))

protected theorem Kept.takeReserve (h : Kept cells s) {q} : Kept cells (takeReserve q s) := by
  unfold takeReserve
  split
  · exact .upd h
  · exact h

protected theorem Kept.slowPath (h : Kept cells s) {p act} (hact : ∀ t, Kept cells t → Kept cells (act t)) : Kept cells (slowPath p act s) :=
  .ite h (.ite (hact _ (.takeReserve h)) (.takeReserve h))

protected theorem Keeps.execArpRequest (h : Kept cells s) {port q} : Keeps cells (execArpRequest port q s) := by
  unfold execArpRequest
  refine .next (.slowPath h (fun _ ht => ?_))
  split
  · exact .ite (.sendControl ht) ht
  · exact ht

protected theorem Keeps.execNeighbourSolicitation (h : Kept cells s) {port q} : Keeps cells (execNeighbourSolicitation port q s) := by
  unfold execNeighbourSolicitation
  refine .next (.slowPath h (fun _ ht => ?_))
  split
  · exact .ite (.sendControl ht) ht
  · exact ht

protected theorem Kept.answerEcho (h : Kept cells s) {p e} : Kept cells (answerEcho p e s) := .ite (.sendControl (.upd h)) h

protected theorem Keeps.execEchoRequest (h : Kept cells s) {port e} : Keeps cells (execEchoRequest port e s) :=
  .next (.slowPath h (fun _ ht => .answerEcho ht))

protected theorem Keeps.execSlowPathToken (h : Kept cells s) : Keeps cells (execSlowPathToken s) := .next (.upd h)

protected theorem Kept.trainLanes (h : Kept cells s) {p sets} : Kept cells (trainLanes p sets s) := .forEach h (fun _ _ ht => .setLane ht)

protected theorem Keeps.execLinkTrainingComplete (h : Kept cells s) {port up sets} : Keeps cells (execLinkTrainingComplete port up sets s) :=
  .ite (.next h) (.ite (.next (.changePort (.trainLanes h))) (.next (.ite (.raise (.setPort h)) (.setPort h))))

protected theorem Keeps.execLaneQualitySample (h : Kept cells s) {lane m} : Keeps cells (execLaneQualitySample lane m s) := .next (.setLane h)

protected theorem Keeps.execLaneSnrLow (h : Kept cells s) {lane} : Keeps cells (execLaneSnrLow lane s) :=
  .ite (.next h) (.next (.queueLane (.raise (.setLane h))))

protected theorem Keeps.execFecThreshold (h : Kept cells s) {port} : Keeps cells (execFecThreshold port s) :=
  .ite (.next h) (.next (.raiseLimited (.changePort h)))

protected theorem Keeps.execPortDown (h : Kept cells s) {port} : Keeps cells (execPortDown port s) :=
  .ite (.next h) (.next (.changePort (.raise (.portCount (.abandonRecal h)))))

protected theorem Keeps.execPortJoinSet (h : Kept cells s) {port} : Keeps cells (execPortJoinSet port s) :=
  .ite (.next h) (.next (.ite (.journalEvent (.changePort h)) (.changePort h)))

protected theorem Keeps.execPortRetrain (h : Kept cells s) {port} : Keeps cells (execPortRetrain port s) := .ite (.next (.setPort h)) (.next h)

protected theorem Keeps.execRecalStart (h : Kept cells s) : Keeps cells (execRecalStart s) := by
  unfold execRecalStart
  refine .ite (.next h) ?_
  split
  · exact .next h
  · exact .next (.setLane (.upd h))

protected theorem Keeps.execRecalDecision (h : Kept cells s) {candidate current set} : Keeps cells (execRecalDecision candidate current set s) := by
  unfold execRecalDecision
  split
  · exact .next h
  · exact .ite (.next (.raise (.setLane (.upd h)))) (.ite (.next (.portCount (.setLane (.upd h)))) (.next (.setLane (.upd h))))

protected theorem Keeps.execRecalRetry (h : Kept cells s) {lane} : Keeps cells (execRecalRetry lane s) := .next (.ite (.queueLane h) h)

protected theorem Keeps.execQuiesceDrainEnd (h : Kept cells s) {port} : Keeps cells (execQuiesceDrainEnd port s) :=
  .ite (.next (.setPort h)) (.next h)

/-! ### The operations of Machine/Transport -/

protected theorem Kept.establish (h : Kept cells s) {qpn} : Kept cells (establish qpn s) := .journalEvent (.tenantCount (.setQp h))

protected theorem Kept.freeQpCause (h : Kept cells s) {qpn cause} : Kept cells (freeQpCause qpn cause s) :=
  .ite (.journalEvent (.freeQp h)) (.freeQp h)

protected theorem Kept.noteCe (h : Kept cells s) {k} : Kept cells (noteCe k s) := by
  unfold noteCe
  refine .ite h ?_
  extract_lets q s1 recent
  have h1 : Kept cells s1 := .portCount h
  split
  · exact .ite h1 (.tenantCount (.sendFrame (.setQp h1)))
  · exact h1

protected theorem KeptSnd.admitPacket (h : Kept cells s) {k} : KeptSnd cells (admitPacket k s) :=
  .ite (.mk (.portCount h)) (.ite (.mk (.portCount h)) (.ite (.mk (.portCount h)) (.ite (.mk (.portCount h)) (.ite (.mk h) (.ite (.mk
    (.portCount h)) (.ite (.mk (.portCount h)) (.mk (.noteCe (.ite (.establish h) h)))))))))

protected theorem Kept.insertOp (h : Kept cells s) {qpn o} : Kept cells (insertOp qpn o s) := h.same

protected theorem Kept.queueNak (h : Kept cells s) {qpn psn syn fatal} : Kept cells (queueNak qpn psn syn fatal s) :=
  .settleQp (.ite (.enterError (.insertOp h)) (.insertOp h))

protected theorem Kept.takeSlot (h : Kept cells s) {qpn o} : Kept cells (takeSlot qpn o s) := .upd (.setQp (.insertOp h))

protected theorem Kept.releaseSlot (h : Kept cells s) {qpn o} : Kept cells (releaseSlot qpn o s) := .ite (.upd (.setQp h)) (.setQp h)

protected theorem Kept.executeRead (h : Kept cells s) {k region dma len dup msg} : Kept cells (executeRead k region dma len dup msg s) :=
  .submit (.takeSlot (.tenantCount h))

protected theorem Kept.executeWrite (h : Kept cells s) {k region dma last} : Kept cells (executeWrite k region dma last s) :=
  .ite (.settleQp (.countDone (.countApplied (.insertOp h)))) (.submit (.insertOp h))

protected theorem Kept.executeAtomic (h : Kept cells s) {k add region dma} : Kept cells (executeAtomic k add region dma s) := .submit (.takeSlot h)

protected theorem Kept.executeRequest (h : Kept cells s) {o k dup msg} : Kept cells (executeRequest o k dup msg s) := by
  unfold executeRequest
  extract_lets q region dma
  split
  · exact .executeRead h
  · exact .executeAtomic h
  · exact .executeAtomic h
  · exact .executeWrite h

protected theorem Kept.takeExpected (h : Kept cells s) {o k} : Kept cells (takeExpected o k s) := by
  unfold takeExpected
  dsimp only
  split
  · exact .queueNak (.setQp h)
  · exact .ite (.portCount h) (.setQp (.executeRequest (.setQp h)))

protected theorem Kept.takeAhead (h : Kept cells s) {k} : Kept cells (takeAhead k s) := .ite h (.queueNak (.setQp h))

protected theorem Kept.takeBack (h : Kept cells s) {qpn o} : Kept cells (takeBack qpn o s) := h.same

protected theorem Kept.abandonRead (h : Kept cells s) {qpn o} : Kept cells (abandonRead qpn o s) := h.same

protected theorem Kept.duplicateWrite (h : Kept cells s) {k} : Kept cells (duplicateWrite k s) := .settleQp (.countDone (.insertOp h))

protected theorem Kept.takeDuplicate (h : Kept cells s) {o k} : Kept cells (takeDuplicate o k s) := by
  unfold takeDuplicate
  dsimp only
  split
  · exact .tenantCount (.insertOp (.tenantCount h))
  · split
    · exact .queueNak (.tenantCount h)
    · refine .ite (.tenantCount h) ?_
      refine .ite (.queueNak (.tenantCount h)) ?_
      refine .ite (.duplicateWrite (.tenantCount h)) ?_
      split
      · exact .executeRequest (.abandonRead (.tenantCount h))
      · exact .ite (.executeRequest (.tenantCount h)) (.portCount (.tenantCount h))

protected theorem Kept.takeRequest (h : Kept cells s) {o k} : Kept cells (takeRequest o k s) := by
  unfold takeRequest
  refine .ite h (.ite (.snd (.admitPacket h)) ?_)
  split
  · exact .takeExpected (.snd (.admitPacket h))
  · exact .takeAhead (.snd (.admitPacket h))
  · exact .takeDuplicate (.snd (.admitPacket h))

protected theorem Keeps.execRdmaReadRequest (h : Kept cells s) {k} : Keeps cells (execRdmaReadRequest k s) := .next (.takeRequest h)

protected theorem Keeps.execRdmaWriteFirst (h : Kept cells s) {k} : Keeps cells (execRdmaWriteFirst k s) := .next (.takeRequest h)

protected theorem Keeps.execRdmaWriteMiddle (h : Kept cells s) {k} : Keeps cells (execRdmaWriteMiddle k s) := .next (.takeRequest h)

protected theorem Keeps.execRdmaWriteLast (h : Kept cells s) {k} : Keeps cells (execRdmaWriteLast k s) := .next (.takeRequest h)

protected theorem Keeps.execRdmaWriteOnly (h : Kept cells s) {k} : Keeps cells (execRdmaWriteOnly k s) := .next (.takeRequest h)

protected theorem Keeps.execCmpSwap (h : Kept cells s) {k} : Keeps cells (execCmpSwap k s) := .next (.takeRequest h)

protected theorem Keeps.execFetchAdd (h : Kept cells s) {k} : Keeps cells (execFetchAdd k s) := .next (.takeRequest h)

protected theorem Keeps.execUnsupportedOpcode (h : Kept cells s) {k} : Keeps cells (execUnsupportedOpcode k s) := by
  unfold execUnsupportedOpcode
  refine .ite (.next h) (.ite (.next (.snd (.admitPacket h))) ?_)
  split
  · exact .next (.takeAhead (.snd (.admitPacket h)))
  · exact .next (.queueNak (.setQp (.snd (.admitPacket h))))
  · exact .next (.queueNak (.tenantCount (.snd (.admitPacket h))))

protected theorem Kept.sendRead (h : Kept cells s) {qpn o lines} : Kept cells (sendRead qpn o lines s) :=
  .ite (.settleQp (.releaseSlot (.sendRdma (.setQp h)))) (.sendRdma (.setQp h))

protected theorem Kept.nakRead (h : Kept cells s) {qpn o} : Kept cells (nakRead qpn o s) := .settleQp (.sendNak (.releaseSlot h))

protected theorem Kept.sendAtomic (h : Kept cells s) {qpn o v} : Kept cells (sendAtomic qpn o v s) := .settleQp (.releaseSlot (.sendRdma (.setQp h)))

protected theorem Keeps.execResponseSend (h : Kept cells s) {qpn} : Keeps cells (execResponseSend qpn s) := by
  unfold execResponseSend
  extract_lets q
  split
  · exact .next h
  · split
    · refine .ite (.next (.nakRead h)) ?_
      split
      · exact .next (.sendRead h)
      · exact .next h
    · split
      · exact .next (.sendAtomic h)
      · exact .next h
    · exact .next (.settleQp h)

protected theorem Keeps.execAckDeadline (h : Kept cells s) {qpn} : Keeps cells (execAckDeadline qpn s) := .ite (.next (.sendAck h)) (.next h)

protected theorem Keeps.execCnpReceive (h : Kept cells s) {k} : Keeps cells (execCnpReceive k s) :=
  .ite (.next h) (.ite (.next (.snd (.admitPacket h))) (.ite (.next (.portCount (.snd (.admitPacket h)))) (.next (.setQp (.portCount (.snd
    (.admitPacket h)))))))

protected theorem Keeps.execRpAlphaDecay (h : Kept cells s) {qpn} : Keeps cells (execRpAlphaDecay qpn s) := .ite (.next (.setQp h)) (.next h)

protected theorem Keeps.execRpIncrease (h : Kept cells s) {qpn} : Keeps cells (execRpIncrease qpn s) := .ite (.next (.setQp h)) (.next h)

/-! ### The operations of Machine/Connect -/

protected theorem Kept.discardMad (h : Kept cells s) {m} : Kept cells (discardMad m s) := .portCount h

protected theorem Kept.takeMad (h : Kept cells s) {m act} (hact : ∀ t, Kept cells t → Kept cells (act t)) : Kept cells (takeMad m act s) :=
  .slowPath h (fun _ ht => .ite (.portCount ht) (.ite (hact _ ht) (.discardMad ht)))

protected theorem Kept.takeLater (h : Kept cells s) {m act} (hact : ∀ t, Kept cells t → Kept cells (act t)) : Kept cells (takeLater m act s) :=
  .takeMad h (fun _ ht => .ite (hact _ ht) (.discardMad ht))

protected theorem Kept.answerMad (h : Kept cells s) {m attr reason localComm remoteComm qpn priv} :
    Kept cells (answerMad m attr reason localComm remoteComm qpn priv s) :=
  .sendControl h

protected theorem Kept.rejectReq (h : Kept cells s) {m reason} : Kept cells (rejectReq m reason s) := .answerMad h

protected theorem Kept.sendRep (h : Kept cells s) {qpn} : Kept cells (sendRep qpn s) := .sendControl h

protected theorem Kept.refuseReq (h : Kept cells s) {m r} : Kept cells (refuseReq m r s) := by
  unfold refuseReq
  extract_lets s1
  have h1 : Kept cells s1 := .rejectReq h
  split
  · exact .tenantCount h1
  · exact h1

protected theorem Kept.acceptReq (h : Kept cells s) {t n m} : Kept cells (acceptReq t n m s) := .sendRep (.setQp (.drawn (.upd h)))

protected theorem Kept.takeReq (h : Kept cells s) {m} : Kept cells (takeReq m s) := by
  unfold takeReq
  refine .ite (.rejectReq h) ?_
  split
  · exact .ite (.sendRep h) (.rejectReq h)
  · split
    · exact .refuseReq h
    · split
      · exact .acceptReq h
      · exact .refuseReq h
      · exact h

protected theorem Keeps.execCmReq (h : Kept cells s) {m} : Keeps cells (execCmReq m s) := .next (.takeMad h (fun _ ht => .takeReq ht))

protected theorem Kept.takeRtu (h : Kept cells s) {m} : Kept cells (takeRtu m s) := by
  unfold takeRtu
  split
  · exact .ite (.establish h) h
  · exact h

protected theorem Keeps.execCmRtu (h : Kept cells s) {m} : Keeps cells (execCmRtu m s) := .next (.takeLater h (fun _ ht => .takeRtu ht))

protected theorem Kept.takeRej (h : Kept cells s) {m} : Kept cells (takeRej m s) := by
  unfold takeRej
  split
  · exact .ite (.freeQp h) h
  · exact h

protected theorem Keeps.execCmRejReceive (h : Kept cells s) {m} : Keeps cells (execCmRejReceive m s) := .next (.takeLater h (fun _ ht => .takeRej ht))

protected theorem Kept.disconnect (h : Kept cells s) {qpn} : Kept cells (disconnect qpn s) :=
  .settleQp (.forEach (.keepOrphans (.upd (.setQp (.upd h)))) (fun _ _ ht => .writeSettled ht))

protected theorem Kept.takeDreq (h : Kept cells s) {m} : Kept cells (takeDreq m s) := by
  unfold takeDreq
  extract_lets drep
  split
  · exact .sendControl h
  · exact .ite (.freeQpCause (.tenantCount (.sendControl h))) (.disconnect (.sendControl h))

protected theorem Keeps.execCmDreq (h : Kept cells s) {m} : Keeps cells (execCmDreq m s) := .next (.takeLater h (fun _ ht => .takeDreq ht))

protected theorem Keeps.execDisconnectComplete (h : Kept cells s) {qpn} : Keeps cells (execDisconnectComplete qpn s) :=
  .ite (.next h) (.next (.freeQpCause (.tenantCount (.ite (.sendAck h) h))))

protected theorem Keeps.execRepTimeout (h : Kept cells s) {qpn} : Keeps cells (execRepTimeout qpn s) :=
  .ite (.next h) (.ite (.next (.sendRep (.setQp h))) (.next (.freeQp (.tenantCount (.sendControl h)))))

protected theorem Keeps.execQpErrorTimeout (h : Kept cells s) {qpn} : Keeps cells (execQpErrorTimeout qpn s) :=
  .ite (.next (.freeQpCause h)) (.next h)

/-! ### The operations of Machine/Otp -/

protected theorem Kept.noteSupplies (h : Kept cells s) {vddio vprog} : Kept cells (noteSupplies vddio vprog s) := h.same

protected theorem Kept.otpNow (h : Kept cells s) : Kept cells (otpNow s) := h.same

protected theorem Kept.startProgram (h : Kept cells s) {w d} : Kept cells (startProgram w d s) := h.same

protected theorem KeptReply.otpRule (h : Kept cells s) {vddio vprog f} : KeptReply cells (otpRule vddio vprog f s) := by
  unfold otpRule
  extract_lets w d
  refine .ite (.malformed h) ?_
  refine .ite (.malformed h) ?_
  split
  · exact .refuse h
  · exact .ite (.accepted (.startProgram (.noteSupplies h))) (.mk (.raise (.noteSupplies h)))

protected theorem Keeps.execOtpProgram (h : Kept cells s) {p f vddio vprog} : Keeps cells (execOtpProgram p f vddio vprog s) :=
  .next (.runCommand h (fun _ ht => .otpRule ht))

protected theorem Kept.endAdvance (h : Kept cells s) {target} : Kept cells (endAdvance target s) :=
  .ite (.ownReset (.upd (.ite (.journalEvent h) h))) (.upd (.ite (.journalEvent h) h))

protected theorem Kept.nextAdvance (h : Kept cells s) : Kept cells (nextAdvance s) := by
  unfold nextAdvance
  split
  · exact h
  · exact .startProgram (.upd h)
  · exact .endAdvance h

protected theorem Kept.endProgram (h : Kept cells s) {normal low high} : Kept cells (endProgram normal low high s) := by
  unfold endProgram
  extract_lets o ok result r s1 s2
  have h1 : Kept cells s1 := h.same
  have h2 : Kept cells s2 := .ite h1 (.raise h1)
  split
  · exact .journalEvent (.upd h2)
  · exact .nextAdvance h2

protected theorem Kept.pulse (h : Kept cells s) {normal : BitVec 39} :
    Kept cells { s with otp := { s.otp with cells := Map.set 0 s.otp.word (pulsedBits s.otp normal) s.otp.cells } } := by
  obtain ⟨⟨hdata, hupsets, hpoison, hflash, hotp⟩, hkept⟩ := h
  refine ⟨⟨hdata, hupsets, hpoison, hflash, Map.wf_set (d := fun _ => 0) hotp⟩, fun w => ?_⟩
  by_cases hw : w = s.otp.word
  · subst hw
    rw [Map.get_set_same]
    exact and_or_absorbed (hkept s.otp.word)
  · rw [Map.get_set_other _ _ hw]
    exact hkept w

protected theorem Keeps.execOtpPulse (h : Kept cells s) {normal low high vddio vprog} :
    Keeps cells (execOtpPulse normal low high vddio vprog s) := by
  unfold execOtpPulse
  refine .ite (.next h) ?_
  extract_lets s1 o s2
  have h1 : Kept cells s1 := h.same
  have h2 : Kept cells s2 := (h1.pulse (normal := normal)).same
  exact .ite (.ite (.next (.endProgram h2)) (.next h2)) (.next (.endProgram (.raise h1.pulse)))

protected theorem Kept.zeroiseKeys (h : Kept cells s) : Kept cells (zeroiseKeys s) := h.same

protected theorem KeptReply.advanceRule (h : Kept cells s) {vddio vprog f} : KeptReply cells (advanceRule vddio vprog f s) := by
  unfold advanceRule
  extract_lets t
  refine .ite (.malformed h) ?_
  refine .ite (.malformed h) ?_
  split
  · exact .refuse h
  · exact .ite (.refuse h) (.accepted (.nextAdvance (.upd (.ite (.zeroiseKeys (.noteSupplies h)) (.noteSupplies h)))))

protected theorem Keeps.execLifecycleAdvance (h : Kept cells s) {p f vddio vprog} : Keeps cells (execLifecycleAdvance p f vddio vprog s) :=
  .next (.runCommand h (fun _ ht => .advanceRule ht))

/-! ### The operations of Machine/Objects -/

protected theorem KeptSnd.fetchWindow (h : Kept cells s) {b a n} : KeptSnd cells (fetchWindow s b a n) :=
  .ite (.mk h) (.readLines h (fun _ _ ht => .loseRing ht))

protected theorem Kept.answerStatus (h : Kept cells s) {p f st} : Kept cells (answerStatus p f st s) := by
  unfold answerStatus
  refine .ite ?_ (.answer h)
  split
  · exact .answer h
  · exact .answer (.drawn h)

protected theorem Kept.resetPeaks (h : Kept cells s) {a n} : Kept cells (resetPeaks a n s) := .forEach h (fun _ _ ht => .ite (.setLayer ht) ht)

protected theorem Kept.readBody (h : Kept cells s) {p f} : Kept cells (readBody p f s) := by
  unfold readBody
  extract_lets n
  split
  · exact .answer (.resetPeaks (.snd (.fetchWindow h)))
  · exact .answerStatus h

protected theorem Keeps.execPeakRead (h : Kept cells s) {p f} : Keeps cells (execPeakRead p f s) :=
  .ite (.next (.runRequest h (fun _ ht => .readBody ht))) (.next h)

protected theorem Kept.writeWord (h : Kept cells s) {a w} : Kept cells (writeWord a w s) :=
  .ite (.ite (.upd h) h) (.ite (.upd h) (.ite (.upd h) (.ite (.upd h) (.ite (.upd h) (.ite (.upd h) h)))))

protected theorem Kept.writeWords (h : Kept cells s) {a bs} : Kept cells (writeWords a bs s) := .forEach h (fun _ _ ht => .writeWord ht)

protected theorem Kept.writeBody (h : Kept cells s) {p f} : Kept cells (writeBody p f s) := by
  unfold writeBody
  split
  · exact .answer (.drawn h)
  · exact .answer (.writeWords h)
  · exact .answerStatus h

protected theorem Keeps.execUcPendingClear (h : Kept cells s) {p f} : Keeps cells (execUcPendingClear p f s) :=
  .ite (.next (.runRequest h (fun _ ht => .writeBody ht))) (.next h)

protected theorem Keeps.execRegisterWrite (h : Kept cells s) {p f} : Keeps cells (execRegisterWrite p f s) :=
  .ite (.next (.runRequest h (fun _ ht => .writeBody ht))) (.next h)

/-! ### The operations of Machine/Sram -/

protected theorem Kept.loseContext (h : Kept cells s) {qpn} : Kept cells (loseContext qpn s) := .ite (.raise h) (.freeQpCause (.raise h))

protected theorem Kept.dropCacheLine (h : Kept cells s) {line} : Kept cells (dropCacheLine line s) := h.same

protected theorem Kept.spoilFrame (h : Kept cells s) {port place} : Kept cells (spoilFrame port place s) := h.same

protected theorem Kept.spoilStaging (h : Kept cells s) {qpn psn place} : Kept cells (spoilStaging qpn psn place s) := h.same

protected theorem Kept.loseRequest (h : Kept cells s) {qpn psn} : Kept cells (loseRequest qpn psn s) := by
  unfold loseRequest
  split
  · exact h
  · exact .failOp (.raise (.drainBacklog (.ite (.writeSettled (.upd h)) (.upd h))))

protected theorem Kept.loseTable (h : Kept cells s) {item both} : Kept cells (loseTable item both s) := .ite (.relevel (.upd h)) h

protected theorem Kept.fillTenantCounter (h : Kept cells s) {tenant n} : Kept cells (fillTenantCounter tenant n s) := .ite (.raise (.upd h)) (.upd h)

protected theorem Kept.fillClassCounter (h : Kept cells s) {key} : Kept cells (fillClassCounter key s) := .ite (.raise (.upd h)) (.upd h)

protected theorem Kept.fillSkimCounter (h : Kept cells s) {k} : Kept cells (fillSkimCounter k s) := .ite (.raise (.upd h)) (.upd h)

protected theorem Kept.fillAccumulator (h : Kept cells s) {tenant f} : Kept cells (fillAccumulator tenant f s) := .ite h (.upd h)

protected theorem Kept.fillHeadCounter (h : Kept cells s) {k} : Kept cells (fillHeadCounter k s) := by
  unfold fillHeadCounter
  refine .ite (.fillSkimCounter h) ?_
  split
  · exact h
  · exact .ite (.raise (.headCount h)) (.headCount h)

protected theorem Kept.loseWord (h : Kept cells s) {item} : Kept cells (loseWord item s) := by
  unfold loseWord
  extract_lets k
  split
  · exact .ite (.fillTenantCounter h) (.restoreCe h)
  · exact .portCount h
  · exact .fillClassCounter h
  · exact .chanCount h
  · exact .chainCount h
  · exact .fillHeadCounter h
  · exact .fillAccumulator h
  · exact h

protected theorem Kept.loseSram (h : Kept cells s) {f} : Kept cells (loseSram f s) := by
  unfold loseSram
  split
  · exact .loseContext h
  · exact .reloadItem (.raise h)
  · exact .dropCacheLine h
  · exact .spoilFrame h
  · exact .spoilStaging h
  · exact .loseRequest h
  · exact .raise (.upd h)
  · exact .loseTable h
  · exact .raise h
  · exact .loseWord h

protected theorem Kept.mendSram (h : Kept cells s) {area} : Kept cells (mendSram area s) := .ite (.upd h) h

protected theorem Keeps.execSramScrub (h : Kept cells s) {found} : Keeps cells (execSramScrub found s) := by
  unfold execSramScrub
  split
  · exact .next h
  · exact .ite (.next h) (.ite (.next (.loseSram (.headCount h))) (.next (.mendSram (.headCount h))))

/-! ### The operations of Machine/Dispatch -/

protected theorem Keeps.exec (h : Kept cells s) {i} : Keeps cells (exec i s) := by
  unfold exec
  split
  · exact .execPorNRise h
  · exact .execOtpMarginRead h
  · exact .execLayerInitialisation h
  · exact .execFactoryAreaCheck h
  · exact .execMemoryFill h
  · exact .execPlanBankCheck h
  · exact .execPlanSelection h
  · exact .execLinkTrainingComplete h
  · exact .execServiceOpen h
  · exact .execWrstNFall h
  · exact .execChannelSelfRefreshAck h
  · exact .execDrainTimeout h
  · exact .execWarmStart h
  · exact .execPwrOkFall h
  · exact .execSupplyOutOfWindow h
  · exact .execSupplySequenceViolation h
  · exact .execRefclkStopped h
  · exact .execRefclkOffFrequency h
  · exact .execRefclkRestored h
  · exact .execAnchor h
  · exact .execTrim h
  · exact .execStageOpen h
  · exact .execSectorEraseComplete h
  · exact .execStagingWrite h
  · exact .execPageProgramComplete h
  · exact .execStageCommit h
  · exact .execStageAbort h
  · exact .execAdopt h
  · exact .execAdoptCancel h
  · exact .execRevokeLease h
  · exact .execRetirePage h
  · exact .execUnitCopy h
  · exact .execQuiescePort h
  · exact .execQuiesceDrainEnd h
  · exact .execQuiescePortResume h
  · exact .execWarmReset h
  · exact .execSnapshotTake h
  · exact .execSnapshotTakeClear h
  · exact .execSnapshotRelease h
  · exact .execSnapshotExpiry h
  · exact .execBistStart h
  · exact .execBistAbort h
  · exact .execBistBatch h
  · exact .execBistEnd h
  · exact .execOtpProgram h
  · exact .execOtpPulse h
  · exact .execLifecycleAdvance h
  · exact .execChainLinkUp h
  · exact .execChainLinkDown h
  · exact .execChainLinkRetry h
  · exact .execChainFrameReject h
  · exact .execChainFrameForward h
  · exact .execHopAckReceive h
  · exact .execHopResend h
  · exact .execEnumerate h
  · exact .execHeadSelfEnumerate h
  · exact .execConfirm h
  · exact .execRepeatedResponse h
  · exact .execQuietTurnOff h
  · exact .execKeepalive h
  · exact .execWakeDetect h
  · exact .execFalseWake h
  · exact .execBeacon h
  · exact .execRegisterWrite h
  · exact .execUcPendingClear h
  · exact .execPeakRead h
  · exact .execDataFrameReceive h
  · exact .execPfcReceive h
  · exact .execPfcPauseExpiry h
  · exact .execPfcWatchdog h
  · exact .execPfcXoffRepeat h
  · exact .execPfcXon h
  · exact .execArpRequest h
  · exact .execNeighbourSolicitation h
  · exact .execEchoRequest h
  · exact .execSlowPathToken h
  · exact .execRdmaReadRequest h
  · exact .execRdmaWriteFirst h
  · exact .execRdmaWriteMiddle h
  · exact .execRdmaWriteLast h
  · exact .execRdmaWriteOnly h
  · exact .execCmpSwap h
  · exact .execFetchAdd h
  · exact .execUnsupportedOpcode h
  · exact .execCnpReceive h
  · exact .execRpAlphaDecay h
  · exact .execRpIncrease h
  · exact .execOrderingPointPass h
  · exact .execBurstOpportunity h
  · exact .execLineDecode h
  · exact .execTagCheck h
  · exact .execWriteHalf h
  · exact .execResponseSend h
  · exact .execAckDeadline h
  · exact .execCmReq h
  · exact .execCmRtu h
  · exact .execCmRejReceive h
  · exact .execCmDreq h
  · exact .execDisconnectComplete h
  · exact .execRepTimeout h
  · exact .execQpErrorTimeout h
  · exact .execLaneQualitySample h
  · exact .execLaneSnrLow h
  · exact .execFecThreshold h
  · exact .execPortDown h
  · exact .execPortJoinSet h
  · exact .execPortRetrain h
  · exact .execRecalStart h
  · exact .execRecalDecision h
  · exact .execRecalRetry h
  · exact .execMinuteBoundary h
  · exact .execEraseDrainComplete h
  · exact .execCryptoEraseComplete h
  · exact .execHeldLeaseStart h
  · exact .execAdoptionPrepared h
  · exact .execRegionTableRewrite h
  · exact .execSectionReload h
  · exact .execPageInitComplete h
  · exact .execPageRewriteComplete h
  · exact .execKeyDraw h
  · exact .execPageMove h
  · exact .execRekeySweepStep h
  · exact .execKeyRetirement h
  · exact .execDrbgReseed h
  · exact .execEntropyFailure h
  · exact .execRefreshInterval h
  · exact .execNeighbourRefreshDeadline h
  · exact .execExpressRowTimeout h
  · exact .execRowDisturbReseed h
  · exact .execLaneErrorWindow h
  · exact .execReliefCopyComplete h
  · exact .execCalendarTurn h
  · exact .execLatencyUpdate h
  · exact .execSkimmerStep h
  · exact .execSkimmerVisit h
  · exact .execSramScrub h
  · exact .execThermalSample h
  · exact .execThresholdRelease h
  · exact .execRetentionFloorUpdate h
  · exact .execSensorInvalid h
  · exact .execSensorsDeclaredFailed h
  · exact .execFaultMessage h
  · exact .execChurnFault h
  · exact .execHandshakeTimeout h
  · exact .execHeartbeat h
  · exact .execWatchdogExpiry h
  · exact .execJournalWrite h
  · exact .execRailUp h
  · exact .execPwrOkRise h
  · exact .execPorNFall h
  · exact .execSupplyRemoval h
  · exact .execIslandPllLock h
  · exact .execDrainBegin h
  · exact .execStageCommitEnd h
  · exact .execBlockLock h
  · exact .execPartnerDriverOff h
  · exact .execUnknownCommand h
  · exact .execEntropySample h

/-! ### The operations of Machine/Tick -/

protected theorem Kept.remeasureEyes (h : Kept cells s) : Kept cells (remeasureEyes s) := .forEach h (fun _ _ ht => .ite (.measureEye ht) ht)

protected theorem Kept.sampleVddio (h : Kept cells s) : Kept cells (sampleVddio s) := h.same

protected theorem Kept.everyMs (h : Kept cells s) : Kept cells (everyMs s) := .remeasureEyes (.sampleVddio (.upd h))

protected theorem Kept.passUs (h : Kept cells s) : Kept cells (passUs s) := .ite (.everyMs (.tick h)) (.tick h)

/-! ### The step -/

theorem step_keeps (h : Kept cells s) : Keeps cells (step s) := by
  unfold step
  split
  · exact .next (.passUs h)
  · exact .exec (.upd h)

end

/-- Settles O59: a step from a state whose stored memories are canonical is kept by `step_keeps`, with the state's own OTP cells. -/
theorem stepsKeepStoredTables : Obligations.StepsKeepStoredTables := by
  intro s t hs ht
  have h : Keeps s.otp.cells (step s) := step_keeps ⟨hs, fun _ => BitVec.and_self⟩
  rw [ht] at h
  cases h with
  | next h => exact h.stored

end Sys2Proof.Safety

namespace Sys2Proof.Safety
open Sys2Proof.Machine

/-! ### The reset state (R44, R46, R131) -/

/-- With all 64 general channels in their order, the chunks of one turn fall one on each channel (R134). -/
theorem turnStarts_range {q : Nat} (hq : q < 64) :
    ((List.range 64).filter (fun i => i % 1 = 0 && ((List.range 64)[i]?).getD 0 = q)).length = 1 ∧
    ((List.range q).filter (fun i => i % 1 = 0 && ((List.range 64)[i]?).getD 0 = q)).length = 0 := by
  revert q
  decide +kernel

/-- Without a plan the page words of 64 pages in a row stand one on each channel (R134). -/
theorem pageWordSlot_reset {page : Nat} (h : page < pageCount) :
    pageWordSlot (planOf State.reset) page = (page % 64, page / 64) := by
  have hp : page < 0xDC8000 := h
  have hq : page % 64 < 64 := Nat.mod_lt _ (by decide)
  obtain ⟨hturn, hpart⟩ := turnStarts_range hq
  have hsteer : (planOf State.reset).steering = List.range 64 := rfl
  have hturns : turnPosition (planOf State.reset) (page * 4096 / 64) = (page / 64, page % 64) := by
    show (page * 4096 / 64 / 64 / 64, page * 4096 / 64 / 64 % 64) = _
    rw [show page * 4096 / 64 / 64 = page by omega]
  have hbase : ¬ expressBase (planOf State.reset) ≤ page * 4096 := by
    rw [show expressBase (planOf State.reset) = 64 * 0x37200000 from rfl]
    omega
  have hc : ((List.range 64)[page % 64]?).getD 0 = page % 64 := by simp [hq]
  have hstep : 64 / chunkLines (planOf State.reset).order = 1 := rfl
  unfold pageWordSlot
  simp only [if_neg hbase, hturns, hsteer, hstep, hc, List.length_range, hturn, hpart]
  simp

/-- The page word of every page stands in a system line that the fill makes of fresh pages (R46). -/
theorem fillByte_pageWords {ch sl o : Nat} (hsl : sl < 0x3720) (ho : o < 64) :
    fillByte (systemLine ch sl * 64 + o) = if o % 4 = 0 then 0x40 else 0 := by
  obtain ⟨hsys, hidx⟩ := systemIndex_systemLine ch (sl := sl) (by omega)
  have hline : (systemLine ch sl * 64 + o) / 64 = systemLine ch sl := by omega
  have h4 : (systemLine ch sl * 64 + o) % 4 = o % 4 := by omega
  unfold fillByte
  simp [hline, hsys, hidx, h4, hsl]

theorem pageWord_reset {page : Nat} (h : page < pageCount) : pageWord State.reset page = 0x40000000 := by
  have hp : page < 0xDC8000 := h
  have hhome : pageWordHome State.reset page = (systemLine (page % 64) (page / 64 / 16), 4 * (page / 64 % 16)) := by
    unfold pageWordHome
    rw [pageWordSlot_reset h]
    rfl
  have hbyte (i : Nat) (hi : i < 4) :
      fillByte (systemLine (page % 64) (page / 64 / 16) * 64 + 4 * (page / 64 % 16) + i) = if i = 0 then 0x40 else 0 := by
    rw [Nat.add_assoc, fillByte_pageWords (by omega) (by omega), show (4 * (page / 64 % 16) + i) % 4 = i by omega]
  have hbytes : counterBytes State.reset (pageWordHome State.reset page).1 (pageWordHome State.reset page).2 4 = [0x40, 0, 0, 0] := by
    rw [hhome]
    refine (show _ = [fillByte (_ + 0), fillByte (_ + 1), fillByte (_ + 2), fillByte (_ + 3)] from rfl).trans ?_
    rw [hbyte 0 (by decide), hbyte 1 (by decide), hbyte 2 (by decide), hbyte 3 (by decide)]
    rfl
  unfold pageWord
  simp only [hbytes]
  rfl

/-- A tenant line reads as zeros from the fill (R46, R155). -/
theorem lineData_tenantLine {ch loc : Nat} (h : loc / 14 / 32 < 32256) :
    lineData State.reset (tenantLine ch loc) = List.replicate 64 0 := by
  have hsys : isSystemLine (tenantLine ch loc) = false := by
    unfold isSystemLine tenantLine
    rw [lineRow_physLine (by omega) (by omega)]
    exact decide_eq_false (by omega)
  have hbyte (i : Nat) (hi : i < 64) : fillByte (tenantLine ch loc * 64 + 0 + i) = 0 := by
    have hline : (tenantLine ch loc * 64 + 0 + i) / 64 = tenantLine ch loc := by omega
    unfold fillByte
    simp only [hline, hsys, Bool.false_and, Bool.false_eq_true, if_false]
  refine List.eq_replicate_iff.mpr ⟨by simp [lineData, lineBytes, Memory.read], fun b hb => ?_⟩
  obtain ⟨i, hi, rfl⟩ := List.mem_map.mp hb
  exact hbyte i (List.mem_range.mp hi)

theorem dataHome_reset (ch loc : Nat) : dataHome State.reset ch loc = tenantLine ch loc := rfl

/-- No stored memory of the reset state holds a cell, so each is in its canonical form. -/
theorem stored_reset : Stored State.reset := by
  refine ⟨?_, ?_, ?_, ?_, ?_⟩ <;> decide +kernel

/-- Settles O58: each part is read off the reset state; the page words and the tenant lines are what the fill gives there. -/
theorem resetStateHolds : Obligations.ResetStateHolds := by
  unfold Obligations.ResetStateHolds
  refine ⟨rfl, rfl, rfl, rfl, rfl, fun _ => ⟨rfl, rfl⟩, fun _ => rfl, fun _ => rfl, fun _ _ => rfl, fun page hp => ?_,
    fun ch loc h => ?_, rfl, stored_reset⟩
  · rw [pageWord_reset hp]
    decide
  · rw [dataHome_reset]
    exact lineData_tenantLine h

end Sys2Proof.Safety

namespace Sys2Proof.Safety
open Sys2Proof.Machine

/-! ### Frames of the start and of drains -/

/-- A relation that holds of each step of a loop, and composes, holds of the loop. -/
theorem forEach_relates {α : Type} {R : State → State → Prop} {f : α → State → State} (refl : ∀ s, R s s)
    (trans : ∀ {a b c}, R a b → R b c → R a c) (hf : ∀ x s, R s (f x s)) (l : List α) (s : State) : R s (forEach l f s) := by
  unfold forEach
  induction l generalizing s with
  | nil => exact refl s
  | cons x l ih => exact trans (hf x s) (ih (f x s))

theorem forEach_messages {α : Type} {f : α → State → State} (hf : ∀ x s, Messages s (f x s)) (l : List α) (s : State) :
    Messages s (forEach l f s) := forEach_relates .refl .trans hf l s

/-- Nothing but the traffic, the ports and the rest of the channels differs: what a drain can stop (R51 to R53). -/
def Rests (u t : State) : Prop :=
  ∃ c b f p w q r n, t = { u with chans := c, banks := b, thermal := { u.thermal with refreshFloor := f }, path := p, slow := w, ports := q,
                                  recal := r, lanes := n }

theorem Rests.refl (s : State) : Rests s s := ⟨_, _, _, _, _, _, _, _, rfl⟩

theorem Rests.trans {a b c : State} : Rests a b → Rests b c → Rests a c := by
  rintro ⟨_, _, _, _, _, _, _, _, rfl⟩ ⟨_, _, _, _, _, _, _, _, rfl⟩
  exact ⟨_, _, _, _, _, _, _, _, rfl⟩

theorem Refreshes.rests {u t : State} : Refreshes u t → Rests u t := by
  rintro ⟨_, _, _, rfl⟩
  exact ⟨_, _, _, _, _, _, _, _, rfl⟩

theorem Rests.tank {u t : State} : Rests u t → t.tank = u.tank := by
  rintro ⟨_, _, _, _, _, _, _, _, rfl⟩
  rfl

theorem Rests.pins {u t : State} : Rests u t → t.pins = u.pins := by
  rintro ⟨_, _, _, _, _, _, _, _, rfl⟩
  rfl

theorem Rests.withTank {u t : State} (k : Tank) : Rests u t → Rests { u with tank := k } { t with tank := k } := by
  rintro ⟨_, _, _, _, _, _, _, _, rfl⟩
  exact ⟨_, _, _, _, _, _, _, _, rfl⟩

theorem dropReads_rests (ch : Nat) (s : State) : Rests s (dropReads ch s) := by
  have hunlock (l : List LineReq) (u : State) : Rests u (forEach l unlockVisit u) :=
    forEach_relates .refl .trans (fun _ _ => ⟨_, _, _, _, _, _, _, _, rfl⟩) l u
  have hchan (v : Chan) (u : State) : Rests u (setChan ch v u) := ⟨_, _, _, _, _, _, _, _, rfl⟩
  have hvisits (u : State) : Rests u (setArrivedVisits ch [] u) := ⟨_, _, _, _, _, _, _, _, rfl⟩
  exact ((hchan _ _).trans (hunlock _ _)).trans (hvisits _)

/-- Traffic stops with every link down (R51, R53). -/
theorem stopTraffic_rests (s : State) : Rests s (stopTraffic s) ∧ ∀ q, (getPort (stopTraffic s) q).up = false := by
  have hreads : Rests s (forEach (upTo 64) dropReads s) := forEach_relates .refl .trans dropReads_rests _ s
  unfold stopTraffic
  dsimp only
  generalize forEach (upTo 64) dropReads s = u at hreads ⊢
  obtain ⟨p, r, n, hidle, hup⟩ := idlePorts_frame { u with
    path := { u.path with backlog := [], classQ := mapTable [] writesOf u.path.classQ,
                          bankQ := mapTable [] (fun l => l.filter (fun e => keptByDrain e.req.kind)) u.path.bankQ,
                          inFlight := mapTable [] (fun l => l.filter (fun e => keptByDrain e.req.kind)) u.path.inFlight,
                          inCrypto := mapTable [] (fun l => l.filter (fun e => keptByDrain e.req.kind)) u.path.inCrypto },
    slow := { u.slow with reserve := [] } }
  rw [hidle]
  exact ⟨hreads.trans ⟨_, _, _, _, _, _, _, _, rfl⟩, hup⟩

/-- What a drain for WRST_N or WARM_RESET makes of the Tank's record, but for the drain itself (R51, R52). -/
def drainTank (cause : DrainCause) (s : State) (d : Option Drain) : Tank :=
  { s.tank with phase := 0x10, lastReset := if cause = .wrst then 1 else 2, warmCount := BitVec.ofNat 8 (satAdd 255 s.tank.warmCount.toNat 1),
                drain := d, drainAt := stamp s, warmPending := false }

/-- The drain as it begins: the channels that sleep have acknowledged. -/
def newDrain (cause : DrainCause) (s : State) : Drain :=
  { cause := cause, acked := sleepMask (stopTraffic s), timedOut := false, stopAfter := false, wrstAfter := false }

theorem warmDrain_eq (cause : DrainCause) (s : State) :
    warmDrain cause s = { stopTraffic s with tank := drainTank cause s (some (newDrain cause s)) } := by
  unfold warmDrain drainTank newDrain
  dsimp only
  rw [(stopTraffic_rests s).1.tank]

theorem warmDrain_rests (cause : DrainCause) (s : State) :
    Rests { s with tank := drainTank cause s (some (newDrain cause s)) } (warmDrain cause s) := by
  rw [warmDrain_eq]
  exact (stopTraffic_rests s).1.withTank _

theorem getPort_warmDrain_up (cause : DrainCause) (s : State) (q : Nat) : (getPort (warmDrain cause s) q).up = false := by
  have hp : (warmDrain cause s).ports = (stopTraffic s).ports := by simp only [warmDrain_eq]
  have hup := (stopTraffic_rests s).2 q
  unfold getPort at hup ⊢
  rw [hp, hup]

theorem sleepChannels_rests (s : State) : Rests s (sleepChannels s) := by
  refine forEach_relates .refl .trans (fun ch t => ?_) _ s
  split
  · exact (enterSelfRefresh_refreshes ch t).1.rests
  · exact .refl t

theorem endColdStart_rests (s : State) : (∃ k, Rests { s with tank := k } (endColdStart s)) ∧
    (s.pins.wrstUntil ≤ s.tank.clockUs ∨ s.tank.lastReset ≠ 0 → endColdStart s = s) := by
  unfold endColdStart
  refine ⟨?_, fun h => if_neg ?_⟩
  rotate_left
  · rcases h with h | h
    · simp [Nat.not_lt.mpr h]
    · simp [show s.tank.lastReset ≠ 0#2 from h]
  split
  · exact ⟨_, warmDrain_rests .wrst s⟩
  · exact ⟨s.tank, .refl s⟩

/-- A halt of the start changes the Tank's record beside what rests; with WRST_N high, or at a warm start, it is the phase and the Halt
reason alone (R49). -/
theorem haltStart_rests (p halt : Byte) (s : State) : ∃ k, Rests { s with tank := k } (haltStart p halt s) ∧
    (s.pins.wrstUntil ≤ s.tank.clockUs ∨ s.tank.lastReset ≠ 0 → k = { s.tank with phase := p, haltReason := halt }) := by
  obtain ⟨v, hv, hs⟩ : ∃ v, Rests s v ∧ haltStart p halt s = endColdStart (setPhase p halt v) := by
    refine ⟨if s.tank.lastReset ≠ 0 && s.tank.filled then sleepChannels s else s, ?_, rfl⟩
    split
    · exact sleepChannels_rests s
    · exact .refl s
  have hphase : setPhase p halt v = { v with tank := { s.tank with phase := p, haltReason := halt } } := by
    unfold setPhase
    rw [hv.tank]
  obtain ⟨⟨k, hk⟩, hend⟩ := endColdStart_rests (setPhase p halt v)
  rw [hs]
  rw [hphase] at hk hend ⊢
  by_cases h : s.pins.wrstUntil ≤ s.tank.clockUs ∨ s.tank.lastReset ≠ 0
  · rw [hend (by rw [hv.pins]; exact h)]
    exact ⟨_, hv.withTank _, fun _ => rfl⟩
  · exact ⟨k, (hv.withTank k).trans hk, fun h' => absurd h' h⟩

/-! ### The OTP at the start (R44, R349, R353) -/

/-- The words read at their references, with the life-cycle state that the fuse groups give, and the ROM patches. -/
def fusesRead (weak : List WeakWord) (s : State) : State :=
  let s1 := { s with otp := { s.otp with read := marginRead weak s.otp.cells, live := marginRead weak s.otp.cells } }
  { s1 with otp := { s1.otp with life := BitVec.ofNat 8 (fuseState s1), patches := (patchCounts s1).1, ignored := (patchCounts s1).2,
                                 replaces := patchesOf s1 1, jumps := [] } }

theorem reportOtp_messages (s : State) : Messages s (reportOtp s) := by
  refine (forEach_messages (fun _ _ => raise_messages _ _ _ _) _ s).trans (forEach_messages (fun k t => ?_) _ _)
  split
  · exact raise_messages _ _ _ _
  · exact .refl t

theorem reportFuses_messages (s : State) : Messages s (reportFuses s) := by
  unfold reportFuses
  split
  · exact raise_messages _ _ _ _
  · split
    · exact raise_messages _ _ _ _
    · exact .refl s

theorem readOtp_messages (weak : List WeakWord) (s : State) : Messages (fusesRead weak s) (readOtp weak s) :=
  (reportOtp_messages _).trans (reportFuses_messages _)

theorem fuseState_congr {s t : State} (h : t.otp.read = s.otp.read) : fuseState t = fuseState s := by
  have hr (w : Nat) : otpRead t w = otpRead s w := by
    unfold otpRead
    rw [h]
  have hg (g : Nat) : groupBlown t g = groupBlown s g := by
    unfold groupBlown otpIs
    simp only [hr]
  unfold fuseState
  simp only [hg]

theorem fuseState_lt (s : State) : fuseState s < 5 := by
  unfold fuseState
  split_ifs <;> decide

/-- BLANK and END halt the start, each with its reason (R44, R49). -/
theorem lifeHalt_eq {s : State} (h : s.otp.life = BitVec.ofNat 8 (fuseState s)) :
    lifeHalt s = if fuseState s = 0 then some 2 else if fuseState s = 4 then some 5 else none := by
  have hlt := fuseState_lt s
  unfold lifeHalt
  rw [h]
  generalize fuseState s = n at hlt
  revert n
  decide

/-- Settles O27: the messages of the reading leave what was read, and the halt of BLANK and END leaves the OTP. -/
theorem otpIsReadAtTheStart : Obligations.OtpIsReadAtTheStart := by
  unfold Obligations.OtpIsReadAtTheStart
  intro s weak hphase hcore
  obtain ⟨s1, hs1⟩ : ∃ s1, s1 = readOtp weak s := ⟨_, rfl⟩
  obtain ⟨hotp, htank, hdram, hpins⟩ : s1.otp = (fusesRead weak s).otp ∧ s1.tank = s.tank ∧ s1.dram = s.dram ∧ s1.pins = s.pins := by
    obtain ⟨_, _, _, _, h⟩ := readOtp_messages weak s
    rw [hs1, h]
    exact ⟨rfl, rfl, rfl, rfl⟩
  have hread : s1.otp.read = marginRead weak s.otp.cells ∧ s1.otp.live = s1.otp.read ∧ s1.otp.cells = s.otp.cells := by
    rw [hotp]
    exact ⟨rfl, rfl, rfl⟩
  obtain ⟨hread, hlive, hcells⟩ := hread
  have hlife : s1.otp.life = BitVec.ofNat 8 (fuseState s1) := by
    rw [hotp, fuseState_congr (s := { s with otp := { s.otp with read := marginRead weak s.otp.cells, live := marginRead weak s.otp.cells } }) hread]
    rfl
  have hexec : exec (.otpMarginRead weak) s =
      .next (((lifeHalt s1).map (fun r => haltStart 0xE1 r s1)).getD (setPhase 0x02 0 s1)) := by
    show execOtpMarginRead weak s = _
    unfold execOtpMarginRead
    rw [if_neg (by simp [hphase, hcore]), ← hs1]
    dsimp only
    cases lifeHalt s1 <;> rfl
  rw [lifeHalt_eq hlife] at hexec
  have halted (r : Byte) : ∃ t, t = haltStart 0xE1 r s1 ∧ t.otp = s1.otp ∧ t.dram = s1.dram ∧
      (s.pins.wrstUntil ≤ s.tank.clockUs → t.tank = { s.tank with phase := 0xE1, haltReason := r }) := by
    obtain ⟨k, hu, hk⟩ := haltStart_rests 0xE1 r s1
    rw [htank, hpins] at hk
    obtain ⟨_, _, _, _, _, _, _, _, ht⟩ := hu
    refine ⟨_, rfl, ?_⟩
    rw [ht]
    exact ⟨rfl, rfl, fun h => hk (.inl h)⟩
  by_cases h0 : fuseState s1 = 0
  · rw [if_pos h0] at hexec
    obtain ⟨t, ht, hto, htd, htk⟩ := halted 2
    have hf : fuseState t = 0 := (fuseState_congr (congrArg Otp.read hto)).trans h0
    exact ⟨t, hexec.trans (congrArg _ ht.symm), by rw [hto, hread], by rw [hto, hlive], by rw [hto, hlife, hf, h0], by rw [hto, hcells],
      htd.trans hdram, fun h => absurd hf h, fun _ => htk, fun h => by omega⟩
  · by_cases h4 : fuseState s1 = 4
    · rw [if_neg h0, if_pos h4] at hexec
      obtain ⟨t, ht, hto, htd, htk⟩ := halted 5
      have hf : fuseState t = 4 := (fuseState_congr (congrArg Otp.read hto)).trans h4
      exact ⟨t, hexec.trans (congrArg _ ht.symm), by rw [hto, hread], by rw [hto, hlive], by rw [hto, hlife, hf, h4], by rw [hto, hcells],
        htd.trans hdram, fun _ h => absurd hf h, fun h => by omega, fun _ => htk⟩
    · rw [if_neg h0, if_neg h4] at hexec
      have hf : fuseState (setPhase 0x02 0 s1) = fuseState s1 := fuseState_congr rfl
      exact ⟨setPhase 0x02 0 s1, hexec, hread, hlive, by rw [hf]; exact hlife, hcells, hdram, fun _ _ => by rw [← htank]; rfl,
        fun h => absurd (hf.symm.trans h) h0, fun h => absurd (hf.symm.trans h) h4⟩

end Sys2Proof.Safety

namespace Sys2Proof.Safety
open Sys2Proof.Machine

/-! ### Commands that act on the Tank's record -/

theorem Commanded.tank {u t : State} : Commanded u t → t.tank = u.tank := by
  rintro ⟨_, _, _, _, _, _, _, _, _, _, _, _, _, rfl⟩
  rfl

theorem Commanded.withTank {u t : State} (k : Tank) : Commanded u t → Commanded { u with tank := k } { t with tank := k } := by
  rintro ⟨c, ch, d, j, n, x, y, z, w, i, st, cd, lr, rfl⟩
  exact ⟨c, ch, d, j, n, x, y, z, w, i, st, cd, lr, rfl⟩

/-! ### What begins a drain (R51) -/

theorem satAdd_eq_min (m v n : Nat) : satAdd m v n = min m (v + n) := by
  unfold satAdd
  split <;> omega

theorem drainTank_warmCount (cause : DrainCause) (s : State) (d : Option Drain) :
    (drainTank cause s d).warmCount.toNat = min 255 (s.tank.warmCount.toNat + 1) := by
  show (BitVec.ofNat 8 (satAdd 255 s.tank.warmCount.toNat 1)).toNat = _
  rw [satAdd_eq_min, BitVec.toNat_ofNat, Nat.mod_eq_of_lt (by omega)]

theorem exec_drainBegin {s : State} (hw : s.tank.warmPending = true) (hd : s.tank.drain = none) (hp : s.pins.powerFail = false)
    (hc : commandPhase s.tank.phase 0x08 = true) : exec .drainBegin s = .next (warmDrain .command s) := by
  show execDrainBegin s = _
  unfold execDrainBegin
  rw [hw, hd, hp, hc]
  rfl

/-- WRST_N is low until then. -/
def wrstLow (ns : Nat) (s : State) : State :=
  { s with pins := { s.pins with wrstUntil := max s.pins.wrstUntil (s.tank.clockUs + (ns + 999) / 1000) } }

theorem exec_wrstNFall {s : State} {ns : Nat} (hpor : s.pins.porN = true) (hpow : s.pins.powerFail = false) (href : s.pins.refclkHold = false)
    (hns : 50 ≤ ns) (hd : s.tank.drain = none)
    (hphase : s.tank.phase = 0x08 ∨ s.tank.phase = 0xE0 ∨ s.tank.phase = 0xE1 ∨ s.tank.phase = 0xF0 ∨ s.tank.phase = 0x11) :
    exec (.wrstNFall ns) s = .next (warmDrain .wrst (wrstLow ns s)) := by
  have hrun : s.tank.phase ≠ 0xF1 := by
    intro h
    rw [h] at hphase
    revert hphase
    decide
  have hrec : wrstRecognised (wrstLow ns s) = warmDrain .wrst (wrstLow ns s) := by
    unfold wrstRecognised
    rw [show (wrstLow ns s).tank = s.tank from rfl, hd]
    dsimp only
    rw [if_pos]
    rcases hphase with h | h | h | h | h <;> simp [h]
  show execWrstNFall ns s = _
  unfold execWrstNFall
  rw [if_neg (by omega), if_neg (by omega)]
  have hign : wrstIgnored s = false := by simpa [wrstIgnored, hpor, hpow, href] using hrun
  simp only [hign, ← hrec]
  rfl

/-- Settles O9: the command's rule only notes the reset; DRAIN_BEGIN and WRST_N put the Tank's record of a new drain beside what rests. -/
theorem warmResetsBeginADrain : Obligations.WarmResetsBeginADrain := by
  unfold Obligations.WarmResetsBeginADrain
  refine ⟨fun p f s hr hf => ?_, fun s hw hd hp hc => ?_, fun s ns hpor hpow href hns hd hphase => ?_, fun s ns hns => ?_⟩
  · obtain ⟨t, ht, hc, ha⟩ := runCommand_carried (u := { s with tank := { s.tank with warmPending := true } }) (rule := warmResetRule f)
      hr (.inl rfl) (pl := []) fun s1 h1 => by
        unfold warmResetRule
        rw [if_neg (not_not.mpr hf)]
        refine ⟨rfl, rfl, ?_⟩
        rw [← h1.tank]
        exact h1.withTank _
    exact ⟨t, congrArg _ ht, ha, hc⟩
  · obtain ⟨_, _, _, _, _, _, _, _, h⟩ := warmDrain_rests .command s
    refine ⟨_, exec_drainBegin hw hd hp hc, ?_⟩
    refine ⟨?_, ?_, ?_, ?_, ?_, getPort_warmDrain_up .command s, ?_, ?_, ?_, ?_⟩
    all_goals rw [h]
    case refine_3 => exact drainTank_warmCount .command s _
    all_goals exact rfl
  · obtain ⟨_, _, _, _, _, _, _, _, h⟩ := warmDrain_rests .wrst (wrstLow ns s)
    refine ⟨_, exec_wrstNFall hpor hpow href hns hd hphase, ?_, ?_, ?_, getPort_warmDrain_up _ _, ?_⟩
    all_goals rw [h]
    case refine_3 => exact drainTank_warmCount .wrst (wrstLow ns s) _
    all_goals rfl
  · exact if_pos hns

end Sys2Proof.Safety

namespace Sys2Proof.Safety
open Sys2Proof.Machine

/-! ### A change of a port's membership of its transmit set (R65, R66) -/

/-- What a port's change leaves of the device: the Tank, the array, the lanes and the ports' records (R66). -/
def LinkSteady (s t : State) : Prop := t.tank = s.tank ∧ t.dram = s.dram ∧ t.lanes = s.lanes

theorem LinkSteady.trans {a b c : State} : LinkSteady a b → LinkSteady b c → LinkSteady a c := by
  rintro ⟨h1, h2, h3⟩ ⟨h4, h5, h6⟩
  exact ⟨h4.trans h1, h5.trans h2, h6.trans h3⟩

theorem Sends.steady {s t : State} : Sends s t → LinkSteady s t := by
  rintro ⟨_, _, _, _, _, _, _, rfl⟩
  exact ⟨rfl, rfl, rfl⟩

/-- Nothing but the QPs with what they hold, the tenants' counters, the journal and waiting fault messages differs: what the loss of an
interface changes (R106). -/
def Loses (u t : State) : Prop :=
  ∃ x r q f k o, Events { u with ctr := { u.ctr with tenant := x }, records := r, qps := q, qpnFreed := f, trackers := k, path := o } t

theorem Events.loses {u t : State} (h : Events u t) : Loses u t := ⟨u.ctr.tenant, u.records, u.qps, u.qpnFreed, u.trackers, u.path, h⟩

theorem Loses.refl (s : State) : Loses s s := (Messages.refl s).events.loses

theorem Loses.trans {a b c : State} : Loses a b → Loses b c → Loses a c := by
  rintro ⟨x, r, q, f, k, o, j, i, st, cd, lr, rfl⟩ ⟨x', r', q', f', k', o', j', i', st', cd', lr', rfl⟩
  exact ⟨x', r', q', f', k', o', j', i', st', cd', lr', rfl⟩

theorem Loses.kept {u t : State} : Loses u t → LinkSteady u t ∧ t.ports = u.ports ∧ t.ctr.port = u.ctr.port := by
  rintro ⟨_, _, _, _, _, _, _, _, _, _, _, rfl⟩
  exact ⟨⟨rfl, rfl, rfl⟩, rfl, rfl⟩

theorem tenantCount_loses (tenant n add : Nat) (s : State) : Loses s (tenantCount tenant n add s) := by
  unfold tenantCount
  dsimp only
  split
  · exact ⟨_, _, _, _, _, _, (raise_messages _ _ _ _).events⟩
  · exact ⟨_, _, _, _, _, _, (Messages.refl _).events⟩

theorem setQp_loses (qpn : BitVec 24) (v : Qp) (s : State) : Loses s (setQp qpn v s) := ⟨_, _, _, _, _, _, (Messages.refl _).events⟩

theorem errorQp_loses (qpn : BitVec 24) (s : State) : Loses s (errorQp qpn s) := by
  unfold errorQp
  dsimp only
  split
  · exact .refl s
  · exact (setQp_loses _ _ s).trans (tenantCount_loses _ _ _ _)

theorem keepOrphans_loses (qpn : BitVec 24) (tenant : Nat) (l : List QpOp) (s : State) : Loses s (keepOrphans qpn tenant l s) :=
  ⟨_, _, _, _, _, _, (Messages.refl _).events⟩

theorem freeQp_loses (qpn : BitVec 24) (hold : Bool) (s : State) : Loses s (freeQp qpn hold s) := by
  have hlast (u : State) (f : List (Nat × Nat)) (k : Table Nat) : Loses u { u with qpnFreed := f, trackers := k } :=
    ⟨_, _, _, f, k, _, (Messages.refl _).events⟩
  exact ((setQp_loses qpn Qp.zero s).trans (keepOrphans_loses qpn _ _ _)).trans (hlast _ _ _)

theorem interfaceLost_loses (q : Nat) (s : State) : Loses s (interfaceLost q s) := by
  unfold interfaceLost
  dsimp only
  refine Loses.trans (forEach_relates .refl .trans (fun n t => ?_) _ s) (journalEvent_events _ _ _ _ _).loses
  exact (errorQp_loses _ t).trans (freeQp_loses _ _ _)

/-! What a port's record keeps. -/

/-- A port's record differs in its queue alone. -/
def Requeued (p : Nat) (s t : State) : Prop := ∃ l, getPort t p = { getPort s p with queue := l }

theorem Requeued.of_ports {p : Nat} {s t : State} (h : t.ports = s.ports) : Requeued p s t :=
  ⟨(getPort s p).queue, by unfold getPort; rw [h]⟩

theorem Requeued.trans {p : Nat} {a b c : State} : Requeued p a b → Requeued p b c → Requeued p a c := by
  rintro ⟨l, h⟩ ⟨m, h'⟩
  exact ⟨m, by rw [h', h]⟩

theorem PortCounts.ports {s t : State} : PortCounts s t → t.ports = s.ports := by
  rintro ⟨_, _, _, _, _, rfl⟩
  rfl

/-- A frame that announces an interface's address (R65). -/
def announces (f : TxFrame) : Bool :=
  match f with
  | .gratuitousArp _ | .unsolicitedAdvertisement _ => true
  | _ => false

/-- An announcement waits for no tag: it leaves with its counter and nothing else (R70, R81). -/
theorem transmit_announcement {f : TxFrame} (hf : announces f = true) (p prio : Nat) (s : State) :
    ∃ d, PortCounts { s with dataSent := d } (transmit p prio f s) := by
  cases f <;> simp only [announces, Bool.false_eq_true] at hf
  all_goals exact ⟨_, portCount_counts p 13 1 _⟩

theorem sendFrame_announcement {f : TxFrame} (hf : announces f = true) (p prio : Nat) (s : State) :
    Sends s (sendFrame p prio f s) ∧ ∀ q, Requeued q s (sendFrame p prio f s) := by
  have hsame : Sends s s ∧ ∀ q, Requeued q s s := ⟨.refl s, fun _ => .of_ports rfl⟩
  have hcount : Sends s (portCount p 21 1 s) ∧ ∀ q, Requeued q s (portCount p 21 1 s) :=
    ⟨(portCount_counts _ _ _ _).sends, fun _ => .of_ports (portCount_counts _ _ _ _).ports⟩
  have hsent : Sends s (transmit p prio f s) ∧ ∀ q, Requeued q s (transmit p prio f s) := by
    obtain ⟨d, hd⟩ := transmit_announcement hf p prio s
    exact ⟨⟨d, s.ports, hd⟩, fun _ => .of_ports hd.ports⟩
  have hjoin (l : List (Nat × TxFrame)) : Sends s (setPort p { getPort s p with queue := l } s) ∧
      ∀ q, Requeued q s (setPort p { getPort s p with queue := l } s) := by
    refine ⟨⟨_, _, (Messages.refl _).counts⟩, fun q => ?_⟩
    by_cases h : q = p
    · exact ⟨l, by rw [h, getPort_set_same]⟩
    · exact ⟨(getPort s q).queue, by rw [getPort_set_other _ h]⟩
  cases f <;> simp only [announces, Bool.false_eq_true] at hf
  all_goals
    unfold sendFrame
    dsimp only
    split
    · exact hsame
    · split
      · exact hcount
      · split
        · exact hjoin _
        · exact hsent

theorem announce_sends (p : Nat) (s : State) : Sends s (announce p s) ∧ ∀ q, Requeued q s (announce p s) := by
  have hchain {f : TxFrame} (hf : announces f = true) (prio : Nat) {u : State} (hu : Sends s u ∧ ∀ q, Requeued q s u) :
      Sends s (sendFrame p prio f u) ∧ ∀ q, Requeued q s (sendFrame p prio f u) := by
    obtain ⟨h, hq⟩ := sendFrame_announcement hf p prio u
    exact ⟨hu.1.trans h, fun q => (hu.2 q).trans (hq q)⟩
  have hsame : Sends s s ∧ ∀ q, Requeued q s s := ⟨.refl s, fun _ => .of_ports rfl⟩
  unfold announce
  split
  · dsimp only
    split
    · split
      · exact hchain rfl _ (hchain rfl _ hsame)
      · exact hchain rfl _ hsame
    · split
      · exact hchain rfl _ hsame
      · exact hsame
  · exact hsame

/-- The loop of `changePort` over the ports that leave their set: their queues are emptied, and nothing else is done. -/
def dropQueues (l : List Nat) (s : State) : State := forEach l (fun m t => setPort m { getPort t m with queue := [] } t) s

theorem dropQueues_frame (l : List Nat) (s : State) : (∃ ps, dropQueues l s = { s with ports := ps }) ∧
    ∀ q, ∃ k, getPort (dropQueues l s) q = { getPort s q with queue := k } ∧ ((getPort s q).queue = [] → k = []) := by
  unfold dropQueues forEach
  induction l generalizing s with
  | nil => exact ⟨⟨_, rfl⟩, fun q => ⟨_, rfl, id⟩⟩
  | cons m l ih =>
    obtain ⟨⟨ps, hps⟩, hq⟩ := ih (setPort m { getPort s m with queue := [] } s)
    refine ⟨⟨ps, hps⟩, fun q => ?_⟩
    obtain ⟨k, hk, hnil⟩ := hq q
    rw [List.foldl_cons, hk]
    by_cases h : q = m
    · subst h
      rw [getPort_set_same] at hnil ⊢
      exact ⟨k, rfl, fun _ => hnil rfl⟩
    · rw [getPort_set_other _ h] at hnil ⊢
      exact ⟨k, rfl, hnil⟩

/-- A port's record is changed; then the queues of the ports that left the set are dropped, a port that joined it is announced, and with
the last port an interface is lost (R65, R66, R106). -/
theorem changePort_frame (p : Nat) (f : Port → Port) (s : State) :
    LinkSteady s (changePort p f s) ∧ ∃ l, getPort (changePort p f s) p = { f (getPort s p) with queue := l } ∧
      (inSet (f (getPort s p)) = false → (changePort p f s).ctr.port = s.ctr.port ∧ ((f (getPort s p)).queue = [] → l = [])) := by
  unfold changePort
  extract_lets q before set0 s1 after s2 s3
  obtain ⟨⟨ps, hps⟩, hdrop⟩ := dropQueues_frame (before.filter (fun m => !after.contains m)) s1
  obtain ⟨k, hk, hnil⟩ := hdrop p
  have hs2 : s2 = dropQueues (before.filter (fun m => !after.contains m)) s1 := rfl
  have hf1 : getPort s1 p = f (getPort s p) := getPort_set_same _ _ _
  have h2 : LinkSteady s s2 ∧ s2.ctr = s.ctr := by
    rw [hs2, hps]
    exact ⟨⟨rfl, rfl, rfl⟩, rfl⟩
  rw [← hs2, hf1] at hk
  rw [hf1] at hnil
  clear_value s2
  have h3 : LinkSteady s s3 ∧ ∃ l, getPort s3 p = { f (getPort s p) with queue := l } ∧
      (inSet (f (getPort s p)) = false → s3.ctr.port = s.ctr.port ∧ ((f (getPort s p)).queue = [] → l = [])) := by
    dsimp only [s3]
    split
    · next hc =>
      obtain ⟨hsend, hreq⟩ := announce_sends p s2
      obtain ⟨l, hl⟩ := hreq p
      rw [hf1] at hc
      exact ⟨h2.1.trans hsend.steady, l, by rw [hl, hk], fun h => by simp [h] at hc⟩
    · exact ⟨h2.1, k, hk, fun _ => ⟨by rw [h2.2], hnil⟩⟩
  clear_value s3
  obtain ⟨hsteady, l, hl, hctr⟩ := h3
  split
  · obtain ⟨hlost, hports, hcount⟩ := (interfaceLost_loses q s3).kept
    refine ⟨hsteady.trans hlost, l, ?_, fun h => ⟨hcount.trans (hctr h).1, (hctr h).2⟩⟩
    rw [← hl]
    unfold getPort
    rw [hports]
  · exact ⟨hsteady, l, hl, hctr⟩

end Sys2Proof.Safety

namespace Sys2Proof.Safety
open Sys2Proof.Machine

/-! ### The lanes of a port that has trained (R76) -/

/-- One step of `trainLanes`: the lane takes its coefficients, and the previous ones are its rollback set. -/
def trainLane (p : Nat) (sets : List (List Byte)) (i : Nat) (t : State) : State :=
  setLane (p + i)
    { getLane t (p + i) with
      signal := true, locked := true, marginal := false, calibrating := false, rollback := (getLane t (p + i)).coeffs, snrDue := true,
      coeffs := (sets[i]?).getD [], accepted := (sets[i]?).getD [], refTemp := laneTemp t (p + i), retryDue := none } t

theorem trainLanes_eq (p : Nat) (sets : List (List Byte)) (s : State) :
    trainLanes p sets s = forEach (upTo (portLanes (quadMode s (p / 4)).1 p).length) (trainLane p sets) s := rfl

/-- A lane is trained with this coefficient set where another stood (R76). -/
def LaneTrained (set : List Byte) (u v : Lane) : Prop := v.coeffs = set ∧ v.rollback = u.coeffs ∧ v.locked = true

theorem trainLane_loop {l : List Nat} (hl : l.Nodup) (p : Nat) (sets : List (List Byte)) (s : State) :
    (∃ x, forEach l (trainLane p sets) s = { s with lanes := x }) ∧
    (∀ i ∈ l, LaneTrained ((sets[i]?).getD []) (getLane s (p + i)) (getLane (forEach l (trainLane p sets) s) (p + i))) ∧
    ∀ i ∉ l, getLane (forEach l (trainLane p sets) s) (p + i) = getLane s (p + i) := by
  unfold forEach
  induction l generalizing s with
  | nil => exact ⟨⟨_, rfl⟩, by simp, fun _ _ => rfl⟩
  | cons j l ih =>
    obtain ⟨hj, hl⟩ := List.nodup_cons.mp hl
    obtain ⟨⟨x, hx⟩, hin, hout⟩ := ih hl (trainLane p sets j s)
    have hother (i : Nat) (h : i ≠ j) : getLane (trainLane p sets j s) (p + i) = getLane s (p + i) :=
      getLane_set_other _ (by omega) _
    rw [List.foldl_cons]
    refine ⟨⟨x, hx⟩, fun i hi => ?_, fun i hi => ?_⟩
    · rcases List.mem_cons.mp hi with rfl | hi
      · rw [hout _ hj, trainLane, getLane_set_same]
        exact ⟨rfl, rfl, rfl⟩
      · rw [← hother i (fun h => hj (h ▸ hi))]
        exact hin i hi
    · have hne : i ≠ j := fun h => hi (h ▸ List.mem_cons_self)
      rw [hout i fun h => hi (List.mem_cons_of_mem _ h), hother i hne]

theorem trainLanes_frame (p : Nat) (sets : List (List Byte)) (s : State) :
    (∃ x, trainLanes p sets s = { s with lanes := x }) ∧ ∀ i < (portLanes (quadMode s (p / 4)).1 p).length,
      LaneTrained ((sets[i]?).getD []) (getLane s (p + i)) (getLane (trainLanes p sets s) (p + i)) := by
  obtain ⟨hx, hin, _⟩ := trainLane_loop (l := upTo (portLanes (quadMode s (p / 4)).1 p).length) List.nodup_range p sets s
  exact ⟨hx, fun i hi => hin i (List.mem_range.mpr hi)⟩

/-! ### Ports train, join and leave (R44, R64 to R66, R75) -/

theorem LinkSteady.lane {s t : State} (h : LinkSteady s t) (l : Nat) : getLane t l = getLane s l := by
  obtain ⟨_, _, hl⟩ := h
  unfold getLane
  rw [hl]

theorem linkTrainingComplete_up {port : Fin 16} {s : State} (hp : (getPort s port.val).present = true)
    (ht : (getPort s port.val).training = true) (hf : s.pins.powerFail = false) (sets : List (List Byte)) :
    ∃ t, exec (.linkTrainingComplete port true sets) s = .next t ∧ (getPort t port.val).up = true ∧ (getPort t port.val).heldOut = true ∧
      (getPort t port.val).trained = true ∧ (getPort t port.val).training = false ∧ t.tank = s.tank ∧ t.dram = s.dram ∧
      ∀ i < (portLanes (quadMode s (port.val / 4)).1 port.val).length,
        LaneTrained ((sets[i]?).getD []) (getLane s (port.val + i)) (getLane t (port.val + i)) := by
  obtain ⟨⟨x, hx⟩, hlanes⟩ := trainLanes_frame port.val sets s
  obtain ⟨hsteady, l, hl, _⟩ := changePort_frame port.val
    (fun r => { r with up := true, heldOut := true, trained := true, training := false }) (trainLanes port.val sets s)
  refine ⟨_, ?_, by rw [hl], by rw [hl], by rw [hl], by rw [hl], ?_, ?_, fun i hi => ?_⟩
  · show execLinkTrainingComplete port true sets s = _
    unfold execLinkTrainingComplete
    simp only [hp, ht, hf]
    rfl
  · rw [hsteady.1, hx]
  · rw [hsteady.2.1, hx]
  · rw [hsteady.lane]
    exact hlanes i hi

theorem linkTrainingComplete_failed {port : Fin 16} {s : State} (hp : (getPort s port.val).present = true)
    (ht : (getPort s port.val).training = true) (hf : s.pins.powerFail = false) (sets : List (List Byte)) :
    ∃ t, exec (.linkTrainingComplete port false sets) s = .next t ∧ (getPort t port.val).trained = true ∧
      (getPort t port.val).training = false ∧ (getPort t port.val).up = (getPort s port.val).up ∧
      Messages (setPort port.val (getPort t port.val) s) t := by
  obtain ⟨b, hb⟩ : ∃ b : Bool, b = decide (s.tank.phase = 0x07) := ⟨_, rfl⟩
  obtain ⟨u, hu⟩ : ∃ u, u = setPort port.val { getPort s port.val with
    trained := true, training := false, everDown := (getPort s port.val).everDown || b } s := ⟨_, rfl⟩
  have hexec : exec (.linkTrainingComplete port false sets) s = .next (if b then raise (0x060 + port.val) 0x12 port.val u else u) := by
    show execLinkTrainingComplete port false sets s = _
    unfold execLinkTrainingComplete
    simp only [hp, ht, hf, hu, hb]
    rfl
  obtain ⟨t, ht, hmsg⟩ : ∃ t, t = (if b then raise (0x060 + port.val) 0x12 port.val u else u) ∧ Messages u t := by
    refine ⟨_, rfl, ?_⟩
    split
    · exact raise_messages _ _ _ _
    · exact .refl u
  have hport : getPort t port.val = getPort u port.val := by
    obtain ⟨_, _, _, _, rfl⟩ := hmsg
    rfl
  have hsame : getPort u port.val = { getPort s port.val with
      trained := true, training := false, everDown := (getPort s port.val).everDown || b } := by
    rw [hu, getPort_set_same]
  refine ⟨t, hexec.trans (congrArg _ ht.symm), by rw [hport, hsame], by rw [hport, hsame], by rw [hport, hsame], ?_⟩
  rw [hport, hsame, ← hu]
  exact hmsg

theorem portJoinSet_joins {port : Fin 16} {s : State} (hu : (getPort s port.val).up = true) (hh : (getPort s port.val).heldOut = true) :
    ∃ t, exec (.portJoinSet port) s = .next t ∧ (getPort t port.val).heldOut = false ∧ (getPort t port.val).everDown = false ∧
      (getPort t port.val).up = true ∧ t.tank = s.tank ∧ t.dram = s.dram := by
  obtain ⟨⟨htank, hdram, _⟩, l, hl, _⟩ := changePort_frame port.val (fun r => { r with heldOut := false, everDown := false }) s
  obtain ⟨u, hu'⟩ : ∃ u, u = changePort port.val (fun r => { r with heldOut := false, everDown := false }) s := ⟨_, rfl⟩
  rw [← hu'] at htank hdram hl
  obtain ⟨t, ht, hev⟩ : ∃ t, t = (if (getPort s port.val).everDown then
      journalEvent (0x050 + port.val / 4) 0x43 0 [BitVec.ofNat 8 port.val] u else u) ∧ Events u t := by
    refine ⟨_, rfl, ?_⟩
    split
    · exact journalEvent_events _ _ _ _ _
    · exact (Messages.refl u).events
  have hexec : exec (.portJoinSet port) s = .next t := by
    show execPortJoinSet port s = _
    unfold execPortJoinSet
    simp only [hu, hh, ht, hu']
    rfl
  obtain ⟨_, _, _, _, _, rfl⟩ := hev
  have hp : getPort u port.val = { getPort s port.val with heldOut := false, everDown := false, queue := l } := hl
  refine ⟨_, hexec, ?_, ?_, ?_, htank, hdram⟩
  · exact congrArg Port.heldOut hp
  · exact congrArg Port.everDown hp
  · exact (congrArg Port.up hp).trans hu

theorem portCount_counted (p i n : Nat) (s : State) : PortCounted p i n s (portCount p i n s) := by
  unfold PortCounted portCount
  dsimp only
  split
  · obtain ⟨_, _, _, _, h⟩ := raise_messages (0x060 + p) 0x33 (p * 4096 + i) { s with
      ctr := { s.ctr with port := Map.set 0 (p * 32 + i) (satAdd max48 (Map.get 0 (p * 32 + i) s.ctr.port) n) s.ctr.port } }
    rw [h]
    exact Map.get_set_same _ _ _ _
  · exact Map.get_set_same _ _ _ _

theorem portDown_drops {port : Fin 16} {s : State} (hu : (getPort s port.val).up = true) :
    ∃ t, exec (.portDown port) s = .next t ∧ (getPort t port.val).up = false ∧ (getPort t port.val).trained = false ∧
      (getPort t port.val).training = true ∧ (getPort t port.val).everDown = true ∧ (getPort t port.val).queue = [] ∧
      PortCounted port.val 22 1 s t ∧ t.tank = s.tank ∧ t.dram = s.dram := by
  obtain ⟨u, hu'⟩ : ∃ u, u = raise (0x060 + port.val) 0x12 port.val (portCount port.val 22 1
      (abandonRecal (portLanes (quadMode s (port.val / 4)).1 port.val) s)) := ⟨_, rfl⟩
  have hkept : u.tank = s.tank ∧ u.dram = s.dram ∧ PortCounted port.val 22 1 s u := by
    obtain ⟨r, n, ha⟩ := abandonRecal_frame (portLanes (quadMode s (port.val / 4)).1 port.val) s
    rw [ha] at hu'
    obtain ⟨_, _, _, _, hm⟩ := raise_messages (0x060 + port.val) 0x12 port.val (portCount port.val 22 1 { s with recal := r, lanes := n })
    obtain ⟨_, _, _, _, _, hc⟩ := portCount_counts port.val 22 1 { s with recal := r, lanes := n }
    have hcount : PortCounted port.val 22 1 s u := by
      have := portCount_counted port.val 22 1 { s with recal := r, lanes := n }
      rw [hu', hm]
      exact this
    rw [hm, hc] at hu'
    exact ⟨hu' ▸ rfl, hu' ▸ rfl, hcount⟩
  obtain ⟨htank, hdram, hcount⟩ := hkept
  obtain ⟨⟨htank', hdram', _⟩, l, hl, hout⟩ := changePort_frame port.val (fun r => { r with
    up := false, heldOut := false, trained := false, training := true, everDown := true, queue := [], paused := 0, discarding := 0 }) u
  obtain ⟨hctr, hqueue⟩ := hout (by simp [inSet])
  refine ⟨_, ?_, congrArg Port.up hl, congrArg Port.trained hl, congrArg Port.training hl, congrArg Port.everDown hl,
    (congrArg Port.queue hl).trans (hqueue rfl), ?_, htank'.trans htank, hdram'.trans hdram⟩
  · show execPortDown port s = _
    unfold execPortDown
    simp only [hu, hu']
    rfl
  · unfold PortCounted at hcount ⊢
    rw [hctr, hcount]

theorem fecThreshold_holdsOut {port : Fin 16} {s : State} (hu : (getPort s port.val).up = true) :
    ∃ t, exec (.fecThreshold port) s = .next t ∧ (getPort t port.val).up = true ∧ (getPort t port.val).heldOut = true ∧
      t.tank = s.tank ∧ t.dram = s.dram := by
  obtain ⟨⟨htank, hdram, _⟩, l, hl, _⟩ := changePort_frame port.val (fun r => { r with heldOut := true }) s
  obtain ⟨u, hu'⟩ : ∃ u, u = changePort port.val (fun r => { r with heldOut := true }) s := ⟨_, rfl⟩
  rw [← hu'] at htank hdram hl
  have hexec : exec (.fecThreshold port) s = .next (raiseLimited (0x060 + port.val) 0x13 port.val u) := by
    show execFecThreshold port s = _
    unfold execFecThreshold
    simp only [hu, hu']
    rfl
  obtain ⟨_, _, _, _, hm⟩ := raiseLimited_messages (0x060 + port.val) 0x13 port.val u
  rw [hm] at hexec
  refine ⟨_, hexec, ?_, ?_, htank, hdram⟩
  · exact (congrArg Port.up hl).trans hu
  · exact congrArg Port.heldOut hl

/-- Settles O37: each command changes the port's own record; the rest is what `changePort` does with a set that it leaves or joins. -/
theorem portsTrainAndRejoin : Obligations.PortsTrainAndRejoin := by
  unfold Obligations.PortsTrainAndRejoin
  rintro port s p rfl
  refine ⟨fun hp ht hf sets => ⟨linkTrainingComplete_up hp ht hf sets, linkTrainingComplete_failed hp ht hf sets⟩,
    portJoinSet_joins, fun hp hu ht hf hphase => ?_, fun hu => ⟨portDown_drops hu, fecThreshold_holdsOut hu⟩⟩
  show execPortRetrain port s = _
  unfold execPortRetrain
  rcases hphase with h | h <;> simp [hp, hu, ht, hf, h]

end Sys2Proof.Safety

namespace Sys2Proof.Safety
open Sys2Proof.Machine

/-! ### The memory fill (R46) -/

/-- The fill clears the mask of the channels that an earlier drain forced. -/
theorem fillMemory_forcedMask (s : State) : (fillMemory s).tank.forcedMask = 0 := by
  unfold fillMemory
  dsimp only
  obtain ⟨j, _, _, _, _, h⟩ := settleJournal_events _
  rw [h]

/-- A device in phase 0x03 whose last drain, before any fill, forced channel 0: a warm start of a device never filled takes the cold steps
from phase 0x02 (R54) and leaves the mask as the drain left it. -/
def forcedBefore : State := { State.reset with tank := { State.reset.tank with phase := 0x03, forcedMask := 1 } }

/-- Refutes O29: the fill clears the Tank's mask of forced channels too, which the statement says stays as it was. -/
theorem not_memoryIsFilled : ¬ Obligations.MemoryIsFilled := by
  unfold Obligations.MemoryIsFilled
  intro h
  obtain ⟨t, _, _, hexec, _, _, _, htank, _⟩ := h forcedBefore rfl rfl
  have hfill : exec .memoryFill forcedBefore = .next (setPhase 0x04 0 (fillMemory forcedBefore)) := rfl
  have hmask : t.tank.forcedMask = 1 := by
    rw [htank]
    rfl
  have hclear : t.tank.forcedMask = 0 := by
    rw [hfill] at hexec
    cases hexec
    exact fillMemory_forcedMask forcedBefore
  exact absurd (hmask.symm.trans hclear) (by decide)

end Sys2Proof.Safety

namespace Sys2Proof.Safety
open Sys2Proof.Machine

/-! ### Layer initialisation (R44, R180) -/

theorem forEach_keeps {α : Type} {P : State → Prop} {f : α → State → State} (hf : ∀ x s, P s → P (f x s)) {l : List α} {s : State}
    (h : P s) : P (forEach l f s) := by
  unfold forEach
  induction l generalizing s with
  | nil => exact h
  | cons x l ih => exact ih (hf x s h)

/-- What each step of a loop establishes for its element, and every step keeps, holds for all elements after the loop. -/
theorem forEach_establishes {α : Type} {P : α → State → Prop} {f : α → State → State} (hown : ∀ x s, P x (f x s))
    (hkeep : ∀ x y s, P y s → P y (f x s)) {l : List α} {x : α} (hx : x ∈ l) (s : State) : P x (forEach l f s) := by
  induction l generalizing s with
  | nil => cases hx
  | cons y l ih =>
    rcases List.mem_cons.mp hx with rfl | hx
    · exact forEach_keeps (P := P x) (l := l) (fun z => hkeep z x) (hown x s)
    · exact ih hx (f y s)

/-- The Tank, the flash and the OTP's cells are as they were, and a channel engine that is initialised stays so. -/
structure EnginesStay (s t : State) : Prop where
  tank : t.tank = s.tank
  flash : t.flash = s.flash
  cells : t.otp.cells = s.otp.cells
  engines : ∀ ch, (getChan s ch).initialised = true → (getChan t ch).initialised = true

theorem EnginesStay.refl (s : State) : EnginesStay s s := ⟨rfl, rfl, rfl, fun _ => id⟩

theorem EnginesStay.trans {a b c : State} (h : EnginesStay a b) (h' : EnginesStay b c) : EnginesStay a c :=
  ⟨h'.tank.trans h.tank, h'.flash.trans h.flash, h'.cells.trans h.cells, fun ch hc => h'.engines ch (h.engines ch hc)⟩

/-- It is enough that the four records it speaks of are the same. -/
theorem EnginesStay.of_eq {s t : State} (ht : t.tank = s.tank) (hf : t.flash = s.flash) (ho : t.otp.cells = s.otp.cells)
    (hc : t.chans = s.chans) : EnginesStay s t :=
  ⟨ht, hf, ho, fun ch h => by rw [← h]; unfold getChan; rw [hc]⟩

theorem Events.enginesStay {s t : State} : Events s t → EnginesStay s t := by
  rintro ⟨_, _, _, _, _, rfl⟩
  exact .of_eq rfl rfl rfl rfl

theorem raise_enginesStay (src : Nat) (k : Byte) (a : Nat) (s : State) : EnginesStay s (raise src k a s) := (raise_messages src k a s).events.enginesStay

theorem setChan_enginesStay {ch : Nat} {v : Chan} {s : State} (h : (getChan s ch).initialised = true → v.initialised = true) :
    EnginesStay s (setChan ch v s) := by
  refine ⟨rfl, rfl, rfl, fun c hc => ?_⟩
  by_cases hch : c = ch
  · subst hch
    rw [getChan_set_same]
    exact h hc
  · rwa [getChan_set_other _ hch]

theorem seedSampler_enginesStay (ch : Nat) (s : State) : EnginesStay s (seedSampler ch s) := by
  unfold seedSampler
  obtain ⟨d, n, hg⟩ := generate_frame 64 s
  dsimp only
  rw [hg]
  have hdrawn : EnginesStay s { s with drbg := d, free := n } := .of_eq rfl rfl rfl rfl
  exact hdrawn.trans (setChan_enginesStay id)

theorem startRetirement_enginesStay (ch : Nat) (s : State) : EnginesStay s (startRetirement ch s) := by
  unfold startRetirement
  split
  · exact .refl s
  · have hadd : EnginesStay s { s with retiring := NSet.add ch s.retiring } := .of_eq rfl rfl rfl rfl
    exact hadd.trans (raise_enginesStay _ _ _ _)

theorem renumberJournal_enginesStay (s : State) : EnginesStay s (renumberJournal s) := by
  unfold renumberJournal
  split
  · exact .refl s
  · refine .trans ?_ (settleJournal_events _).enginesStay
    exact .of_eq rfl rfl rfl rfl

theorem endRetirements_enginesStay (s : State) : EnginesStay s (endRetirements s) := by
  unfold endRetirements
  dsimp only
  refine .trans ?_ (forEach_relates .refl .trans (fun r t => ?_) _ _)
  · exact .of_eq rfl rfl rfl rfl
  · exact (journalEvent_events _ _ _ _ _).enginesStay

theorem leaveChannel_enginesStay (ch : Nat) (r : Option Nat) (s : State) : EnginesStay s (leaveChannel ch r s) := by
  have hchan : EnginesStay s (setChan ch { getChan s ch with visits := [], early := [] } s) := setChan_enginesStay id
  refine .trans (.trans ?_ (endRetirements_enginesStay _)) (renumberJournal_enginesStay _)
  exact .trans hchan (.of_eq rfl rfl rfl rfl)

theorem retireAtStart_enginesStay (ch : Nat) (s : State) : EnginesStay s (retireAtStart ch s) :=
  (startRetirement_enginesStay ch s).trans (leaveChannel_enginesStay _ _ _)

theorem failLane_enginesStay (ch l : Nat) (s : State) : EnginesStay s (failLane ch l s) := by
  unfold failLane
  extract_lets c0 c c1 s1
  have hc : c.initialised = c0.initialised := by
    dsimp only [c]
    split <;> rfl
  have hs1 : EnginesStay s s1 := setChan_enginesStay fun h => hc.trans h
  clear_value s1
  split
  · exact .refl s
  · split
    · refine .trans ?_ (raise_enginesStay _ _ _ _)
      exact setChan_enginesStay fun h => hc.trans h
    · split
      · exact hs1.trans (startRetirement_enginesStay _ _)
      · exact hs1

theorem repairLane_enginesStay (e : BitVec 32) (s : State) : EnginesStay s (repairLane e s) := by
  unfold repairLane
  dsimp only
  split
  · exact .refl s
  · refine .trans ?_ (forEach_relates .refl .trans (failLane_enginesStay _) _ _)
    exact setChan_enginesStay id

theorem failedPath_enginesStay (ch l : Nat) (s : State) :
    EnginesStay s (if (failLane ch l s).retiring.contains ch then retireAtStart ch (failLane ch l s) else failLane ch l s) := by
  split
  · exact (failLane_enginesStay _ _ _).trans (retireAtStart_enginesStay _ _)
  · exact failLane_enginesStay _ _ _

theorem badPath_enginesStay (ch p : Nat) (s : State) : EnginesStay s (badPath ch p s) := by
  unfold badPath
  dsimp only
  split
  · exact .refl s
  · split
    · split
      · exact .refl s
      · exact failedPath_enginesStay _ _ _
    · split
      · split
        · exact failedPath_enginesStay _ _ _
        · exact setChan_enginesStay id
      · exact retireAtStart_enginesStay _ _

/-- Every engine is initialised and its sampler seeded; the repairs and the bad paths leave that as it is (R44, R180). -/
theorem initLayers_frame (bad : List (Nat × Nat)) (s : State) :
    EnginesStay s (initLayers bad s) ∧ ∀ ch < 64, (getChan (initLayers bad s) ch).initialised = true := by
  have hstep (ch : Nat) (t : State) : EnginesStay t (seedSampler ch (setChan ch { Chan.zero with initialised := true } t)) :=
    .trans (setChan_enginesStay fun _ => rfl) (seedSampler_enginesStay _ _)
  have hown (ch : Nat) (t : State) : (getChan (seedSampler ch (setChan ch { Chan.zero with initialised := true } t)) ch).initialised = true := by
    refine (seedSampler_enginesStay ch _).engines ch ?_
    rw [getChan_set_same]
  have hrepair (l : List (BitVec 32)) (t : State) : EnginesStay t (forEach l repairLane t) :=
    forEach_relates .refl .trans repairLane_enginesStay l t
  have hbad (l : List (Nat × Nat)) (t : State) : EnginesStay t (forEach l (fun x t => badPath x.1 x.2 t) t) :=
    forEach_relates .refl .trans (fun x => badPath_enginesStay x.1 x.2) l t
  have hload (u : State) : EnginesStay u (loadRepairs { u with banks := [] }) := .of_eq rfl rfl rfl rfl
  obtain ⟨s1, hs1⟩ : ∃ s1, s1 = forEach (upTo 64) (fun ch t => seedSampler ch (setChan ch { Chan.zero with initialised := true } t)) s := ⟨_, rfl⟩
  have h1 : EnginesStay s s1 := by
    rw [hs1]
    exact forEach_relates .refl .trans hstep _ s
  have hinit (ch : Nat) (hch : ch < 64) : (getChan s1 ch).initialised = true := by
    rw [hs1]
    exact forEach_establishes (P := fun ch t => (getChan t ch).initialised = true) hown (fun x y t => (hstep x t).engines y)
      (List.mem_range.mpr hch) s
  have hrest : EnginesStay s1 (initLayers bad s) := by
    unfold initLayers
    rw [← hs1]
    exact (((hload s1).trans (hrepair _ _)).trans (hbad _ _)).trans (hbad _ _)
  exact ⟨h1.trans hrest, fun ch hch => hrest.engines ch (hinit ch hch)⟩

/-! ### The check of the factory area (R49, R55, R251, R252) -/

theorem factoryMatches_iff (s : State) :
    factoryMatches s = true ↔ otpHash s 80 = some (sha384 (flashRead s 0 (8 * 1024 * 1024))) := by
  unfold factoryMatches factoryArea
  rw [show 8 * 1024 * 1024 = 8388608 from rfl]
  exact decide_eq_true_iff

/-- The message of a factory area that fails its check (R49, R55). -/
def factoryMsg : FaultMsg := { source := 0x086, kind := 0x30, cls := 1, severity := 0, addr := 0, ownEntry := false, detail := 0 }

theorem raise_factory (s : State) : raise 0x086 0x30 0 s = pushMsg factoryMsg s := rfl

/-- The message is all that the halt leaves, beside what rests and the Tank's record. -/
theorem haltStart_factory {k : Tank} {s t : State} (h : Rests { pushMsg factoryMsg s with tank := k } t) :
    t.churn = (pushMsg factoryMsg s).churn ∧ t.flash = s.flash ∧ t.otp = s.otp ∧ t.tank = k := by
  obtain ⟨_, _, _, _, hm⟩ := pushMsg_messages factoryMsg s
  obtain ⟨_, _, _, _, _, _, _, _, rfl⟩ := h
  rw [hm]
  exact ⟨rfl, rfl, rfl, rfl⟩

theorem factoryAreaCheck_matches {s : State} (hp : s.tank.phase = 0x02) (hi : (getChan s 0).initialised = true) (hm : factoryMatches s = true) :
    exec .factoryAreaCheck s = .next (setPhase 0x03 0 (loadFactory s)) := by
  show execFactoryAreaCheck s = _
  unfold execFactoryAreaCheck
  rw [if_neg (by simp [hp, hi]), if_pos hm]

theorem factoryAreaCheck_fails {s : State} (hp : s.tank.phase = 0x02) (hi : (getChan s 0).initialised = true) (hm : factoryMatches s = false) :
    exec .factoryAreaCheck s = .next (haltStart 0xE1 1 (pushMsg factoryMsg s)) := by
  show execFactoryAreaCheck s = _
  unfold execFactoryAreaCheck
  rw [if_neg (by simp [hp, hi]), if_neg (by simp [hm]), raise_factory]

theorem warmStart_factoryFails {s : State} (weak : List WeakWord) (hp : s.tank.phase = 0x11) (hd : s.tank.drain = none)
    (hr : s.pins.refclkOk = true) (hf : s.pins.powerFail = false) (hm : factoryMatches s = false) :
    exec (.warmStart weak) s = .next (haltStart 0xE1 1 (leaveHot (pushMsg factoryMsg s))) := by
  show execWarmStart weak s = _
  unfold execWarmStart goOnWarm
  rw [if_neg (by simp [hr, hf]), hd]
  dsimp only
  rw [if_pos hp, if_neg (by simp [hm]), raise_factory]

/-- Settles O28: the initialisation's frame, and the two outcomes of the check at a cold and at a warm start. -/
theorem layersAndFactoryAreaAreMadeReady : Obligations.LayersAndFactoryAreaAreMadeReady := by
  unfold Obligations.LayersAndFactoryAreaAreMadeReady
  intro s
  refine ⟨fun bad hp hi hf => ?_, factoryMatches_iff s, ?_⟩
  · obtain ⟨hstay, hinit⟩ := initLayers_frame (bad.map (fun x => (x.1.val, x.2.val))) s
    refine ⟨_, ?_, hinit, hstay.tank, hstay.cells, hstay.flash⟩
    show execLayerInitialisation bad s = _
    unfold execLayerInitialisation
    rw [if_neg (by simp [hp, hi, hf])]
  · rintro m rfl
    refine ⟨fun hp hi hw => ?_, fun weak hp hd hr hf hl hm => ?_⟩
    · cases hm : factoryMatches s
      · obtain ⟨k, hrests, hk⟩ := haltStart_rests 0xE1 1 (pushMsg factoryMsg s)
        obtain ⟨hchurn, hflash, hotp, htank⟩ := haltStart_factory hrests
        refine ⟨_, factoryAreaCheck_fails hp hi hm, hflash, by rw [hotp], fun h => by simp at h, fun _ => ⟨htank.trans ?_, hchurn⟩⟩
        obtain ⟨_, _, _, _, hmsg⟩ := pushMsg_messages factoryMsg s
        rw [hmsg] at hk
        exact hk (.inl hw)
      · exact ⟨_, factoryAreaCheck_matches hp hi hm, rfl, rfl,
          fun _ => ⟨rfl, by simp only [setPhase, loadFactory], by simp [setPhase, loadFactory, upTo], by simp [setPhase, loadFactory, upTo],
            rfl, rfl⟩, fun h => by simp at h⟩
    · obtain ⟨k, hrests, hk⟩ := haltStart_rests 0xE1 1 (leaveHot (pushMsg factoryMsg s))
      obtain ⟨htank, hflash, hcells⟩ : (leaveHot (pushMsg factoryMsg s)).tank = s.tank ∧ (leaveHot (pushMsg factoryMsg s)).flash = s.flash ∧
          (leaveHot (pushMsg factoryMsg s)).otp.cells = s.otp.cells := by
        obtain ⟨_, _, _, _, hmsg⟩ := pushMsg_messages factoryMsg s
        rw [hmsg]
        exact ⟨rfl, rfl, rfl⟩
      rw [htank] at hk
      refine ⟨_, warmStart_factoryFails weak hp hd hr hf hm, ?_⟩
      obtain ⟨_, _, _, _, _, _, _, _, ht⟩ := hrests
      rw [ht]
      exact ⟨hk (.inr hl), rfl, hflash, hcells⟩

end Sys2Proof.Safety

namespace Sys2Proof.Safety
open Sys2Proof.Machine

/-! ### Drains end (R52, R53) -/

/-- A channel that sleeps stays asleep while traffic stops. -/
theorem dropReads_selfRefresh (ch : Nat) (s : State) (c : Nat) : (getChan (dropReads ch s) c).selfRefresh = (getChan s c).selfRefresh := by
  have hunlock (l : List LineReq) (u : State) : (forEach l unlockVisit u).chans = u.chans :=
    forEach_relates (R := fun a b => b.chans = a.chans) (fun _ => rfl) (fun h h' => h'.trans h)
      (f := unlockVisit) (fun _ _ => rfl) l u
  have hchans : (dropReads ch s).chans = (setChan ch { getChan s ch with
      second := (getChan s ch).second.filter (fun x => keptByDrain x.entry.req.kind) } s).chans := hunlock _ _
  have hget : getChan (dropReads ch s) c = getChan (setChan ch { getChan s ch with
      second := (getChan s ch).second.filter (fun x => keptByDrain x.entry.req.kind) } s) c := by
    unfold getChan at hchans ⊢
    rw [hchans]
  rw [hget]
  by_cases h : c = ch
  · rw [h, getChan_set_same]
  · rw [getChan_set_other _ h]

theorem stopTraffic_selfRefresh (s : State) (c : Nat) : (getChan (stopTraffic s) c).selfRefresh = (getChan s c).selfRefresh := by
  have hreads : (getChan (forEach (upTo 64) dropReads s) c).selfRefresh = (getChan s c).selfRefresh :=
    forEach_relates (R := fun a b => (getChan b c).selfRefresh = (getChan a c).selfRefresh) (fun _ => rfl) (fun h h' => h'.trans h)
      (fun ch u => dropReads_selfRefresh ch u c) _ s
  rw [← hreads]
  unfold stopTraffic
  generalize forEach (upTo 64) dropReads s = u
  dsimp only
  obtain ⟨p, r, n, hidle, _⟩ := idlePorts_frame { u with
    path := { u.path with backlog := [], classQ := mapTable [] writesOf u.path.classQ,
                          bankQ := mapTable [] (fun l => l.filter (fun e => keptByDrain e.req.kind)) u.path.bankQ,
                          inFlight := mapTable [] (fun l => l.filter (fun e => keptByDrain e.req.kind)) u.path.inFlight,
                          inCrypto := mapTable [] (fun l => l.filter (fun e => keptByDrain e.req.kind)) u.path.inCrypto },
    slow := { u.slow with reserve := [] } }
  rw [hidle]
  rfl

theorem warmDrain_selfRefresh (cause : DrainCause) (s : State) (c : Nat) :
    (getChan (warmDrain cause s) c).selfRefresh = (getChan s c).selfRefresh := by
  have hchans : (warmDrain cause s).chans = (stopTraffic s).chans := by simp only [warmDrain_eq]
  have h := stopTraffic_selfRefresh s c
  unfold getChan at h ⊢
  rw [hchans, h]

/-- The end of a stop drain leaves the array, the keys, the sleeping channels and the torn lines; without a WRST_N in between the drain
is over and nothing else (R52, R53). -/
theorem endStopDrain_frame {s : State} {d : Drain} (h : s.tank.drain = some d) :
    (endStopDrain s).dram = s.dram ∧ (endStopDrain s).keys = s.keys ∧ (endStopDrain s).tank.torn = s.tank.torn ∧
    (∀ ch, (getChan (endStopDrain s) ch).selfRefresh = (getChan s ch).selfRefresh) ∧
    (d.wrstAfter = false → endStopDrain s = { s with tank := { s.tank with drain := none } }) := by
  have hs : endStopDrain s = if d.wrstAfter then warmDrain .wrst { s with tank := { s.tank with drain := none } }
      else { s with tank := { s.tank with drain := none } } := by
    unfold endStopDrain
    rw [h]
  rw [hs]
  split
  · next hw =>
    refine ⟨?_, ?_, ?_, fun ch => warmDrain_selfRefresh _ _ ch, fun hf => absurd (hw.symm.trans hf) (by decide)⟩
    all_goals
      obtain ⟨_, _, _, _, _, _, _, _, hr⟩ := warmDrain_rests .wrst { s with tank := { s.tank with drain := none } }
      rw [hr]
    case refine_3 => rfl
  · exact ⟨rfl, rfl, rfl, fun _ => rfl, fun _ => rfl⟩

/-- A channel that acknowledges sleeps with the array as its writes left it; the Tank notes it (R52). -/
theorem acknowledge_frame (ch : Nat) (d : Drain) (s : State) :
    (getChan (acknowledge ch d s) ch).selfRefresh = true ∧ (acknowledge ch d s).dram = s.dram ∧
    (d.cause ≠ .stop → (acknowledge ch d s).tank = { s.tank with drain := some { d with acked := d.acked ||| (1#64 <<< ch) } }) := by
  obtain ⟨d1, hd1⟩ : ∃ d1 : Drain, d1 = { d with acked := d.acked ||| (1#64 <<< ch) } := ⟨_, rfl⟩
  obtain ⟨s1, hs1⟩ : ∃ s1, s1 = enterSelfRefresh ch { s with tank := { s.tank with drain := some d1 } } := ⟨_, rfl⟩
  have hack : acknowledge ch d s = if d1.cause = .stop && drainOver d1 then endStopDrain s1 else s1 := by
    unfold acknowledge
    simp only [hs1, hd1]
  have h1 : s1.tank = { s.tank with drain := some d1 } ∧ s1.dram = s.dram ∧ (getChan s1 ch).selfRefresh = true := by
    obtain ⟨⟨_, _, _, hr⟩, hsame, _⟩ := enterSelfRefresh_refreshes ch { s with tank := { s.tank with drain := some d1 } }
    rw [← hs1] at hr hsame
    exact ⟨by rw [hr], by rw [hr], by rw [hsame]⟩
  obtain ⟨htank, hdram, hsleep⟩ := h1
  rw [hack]
  split
  · next hc =>
    obtain ⟨hstop, _⟩ := Bool.and_eq_true_iff.mp hc
    obtain ⟨hd, _, _, hself, _⟩ := endStopDrain_frame (s := s1) (d := d1) (by rw [htank])
    exact ⟨(hself ch).trans hsleep, hd.trans hdram, fun h => absurd (of_decide_eq_true hstop) (by rw [hd1]; exact h)⟩
  · exact ⟨hsleep, hdram, fun _ => by rw [htank, hd1]⟩

/-! Channels are forced. -/

/-- What the forcing of channels keeps: the array, the keys, the drain, the core and the sleep of channels; pending writes become torn
lines and are else as they were (R53). -/
structure Forces (s t : State) : Prop where
  dram : t.dram = s.dram
  keys : t.keys = s.keys
  drain : t.tank.drain = s.tank.drain
  core : t.tank.coreRunning = s.tank.coreRunning
  sleeps : ∀ ch, (getChan s ch).selfRefresh = true → (getChan t ch).selfRefresh = true
  torn : ∀ e ∈ s.tank.torn, e ∈ t.tank.torn
  pending : ∀ e ∈ s.tank.pendingWrites, e ∈ t.tank.pendingWrites ∨ e ∈ t.tank.torn
  fewer : ∀ e ∈ t.tank.pendingWrites, e ∈ s.tank.pendingWrites

theorem Forces.refl (s : State) : Forces s s := ⟨rfl, rfl, rfl, rfl, fun _ => id, fun _ => id, fun _ => .inl, fun _ => id⟩

theorem Forces.trans {a b c : State} (h : Forces a b) (h' : Forces b c) : Forces a c where
  dram := h'.dram.trans h.dram
  keys := h'.keys.trans h.keys
  drain := h'.drain.trans h.drain
  core := h'.core.trans h.core
  sleeps ch hc := h'.sleeps ch (h.sleeps ch hc)
  torn e he := h'.torn e (h.torn e he)
  pending e he := (h.pending e he).elim (h'.pending e) fun ht => .inr (h'.torn e ht)
  fewer e he := h.fewer e (h'.fewer e he)

/-- The Tank's and the journal's record of a cut write, and a draw. -/
theorem tearSystem_frame (ch : Nat) (s : State) :
    ∃ n j l, tearSystem ch s = { s with free := n, journal := j, tank := { s.tank with tornSystem := l } } := by
  have hline (o : Option Nat) : ∃ n j l, (o.map (fun l => { drawn s with
      tank := { (drawn s).tank with tornSystem := NSet.add l (drawn s).tank.tornSystem } })).getD (drawn s) =
        { s with free := n, journal := j, tank := { s.tank with tornSystem := l } } := by
    cases o <;> exact ⟨_, _, _, rfl⟩
  unfold tearSystem
  dsimp only
  split
  · exact ⟨_, _, _, rfl⟩
  · split
    · split
      · exact ⟨_, _, _, rfl⟩
      · exact hline _
    · exact hline _

theorem forceChannel_forces (ch : Nat) (s : State) : Forces s (forceChannel ch s) ∧
    (getChan (forceChannel ch s) ch).selfRefresh = true ∧ ∀ e ∈ (forceChannel ch s).tank.pendingWrites, e.1 ≠ ch := by
  obtain ⟨n, j, l, htear⟩ := tearSystem_frame ch s
  obtain ⟨hr, hsame, hother⟩ := enterSelfRefresh_refreshes ch (tearSystem ch s)
  have hchan (c : Nat) : getChan (forceChannel ch s) c = getChan (enterSelfRefresh ch (tearSystem ch s)) c := rfl
  have hbefore (c : Nat) : getChan (tearSystem ch s) c = getChan s c := by
    rw [htear]
    rfl
  have htank : (enterSelfRefresh ch (tearSystem ch s)).tank = { s.tank with tornSystem := l } ∧
      (enterSelfRefresh ch (tearSystem ch s)).dram = s.dram ∧ (enterSelfRefresh ch (tearSystem ch s)).keys = s.keys := by
    obtain ⟨_, _, _, hr⟩ := hr
    rw [hr, htear]
    exact ⟨rfl, rfl, rfl⟩
  obtain ⟨htank, hdram, hkeys⟩ := htank
  have hsleep : (getChan (forceChannel ch s) ch).selfRefresh = true := by rw [hchan, hsame]
  have htorn : (forceChannel ch s).tank.torn = s.tank.torn ++ s.tank.pendingWrites.filter (fun e => e.1 = ch) := by
    unfold forceChannel
    simp only [htank]
  have hpend : (forceChannel ch s).tank.pendingWrites = s.tank.pendingWrites.filter (fun e => e.1 ≠ ch) := by
    unfold forceChannel
    simp only [htank]
  refine ⟨{ dram := hdram, keys := hkeys, drain := ?_, core := ?_, sleeps := fun c hc => ?_, torn := fun e he => ?_,
            pending := fun e he => ?_, fewer := fun e he => ?_ }, hsleep, fun e he => ?_⟩
  · unfold forceChannel
    simp only [htank]
  · unfold forceChannel
    simp only [htank]
  · by_cases h : c = ch
    · rw [h, hsleep]
    · rw [hchan, hother c h, hbefore, hc]
  · rw [htorn]
    exact List.mem_append_left _ he
  · rw [htorn, hpend]
    by_cases h : e.1 = ch
    · exact .inr (List.mem_append_right _ (List.mem_filter.mpr ⟨he, by simp [h]⟩))
    · exact .inl (List.mem_filter.mpr ⟨he, by simp [h]⟩)
  · rw [hpend] at he
    exact (List.mem_filter.mp he).1
  · rw [hpend] at he
    simpa using (List.mem_filter.mp he).2

/-- After the forcing every channel that had not acknowledged sleeps, and none of its writes is pending (R53). -/
theorem forceChannels_frame (d : Drain) (s : State) : Forces s (forceChannels d s) ∧ (forceChannels d s).path = .empty ∧
    ∀ ch < 64, d.acked.getLsbD ch = false →
      (getChan (forceChannels d s) ch).selfRefresh = true ∧ ∀ e ∈ (forceChannels d s).tank.pendingWrites, e.1 ≠ ch := by
  have hloop : Forces s (forEach (lateChannels d) forceChannel s) :=
    forEach_relates .refl .trans (fun ch t => (forceChannel_forces ch t).1) _ s
  have hlast (u : State) (x : Separator) : Forces u { u with path := .empty, sep := x } :=
    ⟨rfl, rfl, rfl, rfl, fun _ => id, fun _ => id, fun _ => .inl, fun _ => id⟩
  refine ⟨hloop.trans (hlast _ _), rfl, fun ch hch ha => ?_⟩
  have hmem : ch ∈ lateChannels d := List.mem_filter.mpr ⟨List.mem_range.mpr hch, by rw [ha]; rfl⟩
  exact forEach_establishes (P := fun ch t => (getChan t ch).selfRefresh = true ∧ ∀ e ∈ t.tank.pendingWrites, e.1 ≠ ch)
    (fun c t => (forceChannel_forces c t).2)
    (fun c y t h => ⟨(forceChannel_forces c t).1.sleeps y h.1, fun e he => h.2 e ((forceChannel_forces c t).1.fewer e he)⟩) hmem s

theorem exec_channelSelfRefreshAck {ch : Fin 64} {s : State} {d : Drain} (hd : s.tank.drain = some d) (ht : d.timedOut = false)
    (ha : d.acked.getLsbD ch.val = false) :
    exec (.channelSelfRefreshAck ch) s = if writesLeft (finishChannel ch.val s) ch.val then .next (finishChannel ch.val s)
      else .next (acknowledge ch.val d (finishChannel ch.val s)) := by
  show execChannelSelfRefreshAck ch s = _
  unfold execChannelSelfRefreshAck
  generalize finishChannel ch.val s = u
  rw [hd]
  dsimp only
  rw [ht, ha, Bool.or_self, if_neg Bool.false_ne_true]

theorem exec_drainTimeout {s : State} {d : Drain} (hd : s.tank.drain = some d) (ht : d.timedOut = false) :
    exec .drainTimeout s = if d.cause = .stop then .next (endStopDrain (forceChannels d s))
      else .next { forceChannels d s with tank :=
        { (forceChannels d s).tank with drain := some { d with timedOut := true }, coreRunning := false } } := by
  show execDrainTimeout s = _
  unfold execDrainTimeout
  rw [hd]
  dsimp only
  rw [ht]
  rfl

/-- Settles O31: an acknowledgement or a forcing ends each channel's part of the drain; the end of a stop drain keeps what they left. -/
theorem drainsEnd : Obligations.DrainsEnd := by
  unfold Obligations.DrainsEnd
  intro s d hd ht
  refine ⟨?_, ?_⟩
  · intro ch u ha hu
    have hexec := exec_channelSelfRefreshAck (ch := ch) hd ht ha
    rw [← hu] at hexec
    refine ⟨fun hw => ?_, fun hw => ?_⟩
    · rw [hw] at hexec
      exact ⟨_, hexec, acknowledge_frame ch.val d u⟩
    · rw [hexec, if_pos hw]
  · obtain ⟨hf, hpath, hforced⟩ := forceChannels_frame d s
    have hdrain := hf.drain.trans hd
    have htorn (e : Nat × Nat) (he : e ∈ s.tank.pendingWrites) (h64 : e.1 < 64) (ha : d.acked.getLsbD e.1 = false) :
        e ∈ (forceChannels d s).tank.torn :=
      (hf.pending e he).resolve_left fun hp => (hforced e.1 h64 ha).2 e hp rfl
    by_cases hstop : d.cause = .stop
    · obtain ⟨hdram, hkeys, htk, hself, hend⟩ := endStopDrain_frame hdrain
      refine ⟨endStopDrain (forceChannels d s), ?_, fun ch hch ha => (hself ch).trans (hforced ch hch ha).1,
        fun e he h64 ha => by rw [htk]; exact htorn e he h64 ha, hdram.trans hf.dram, hkeys.trans hf.keys, fun h => absurd hstop h, fun _ hw => ?_⟩
      · rw [exec_drainTimeout hd ht, if_pos hstop]
      · rw [hend hw]
        exact ⟨rfl, hf.core, hpath⟩
    · refine ⟨{ forceChannels d s with tank := { (forceChannels d s).tank with drain := some { d with timedOut := true }, coreRunning := false } },
        ?_, fun ch hch ha => (hforced ch hch ha).1, htorn, hf.dram, hf.keys, fun _ => ⟨rfl, rfl, hpath⟩, fun h => absurd h hstop⟩
      rw [exec_drainTimeout hd ht, if_neg hstop]

end Sys2Proof.Safety

namespace Sys2Proof.Safety
open Sys2Proof.Machine

/-! ### What the lease operations leave alone: the Tank, the plans and the OTP -/

/-- The Tank's record, the plans and the OTP are as they were. -/
structure Steady (s t : State) : Prop where
  tank : t.tank = s.tank
  plans : t.plans = s.plans
  otp : t.otp = s.otp

theorem Steady.refl (s : State) : Steady s s := ⟨rfl, rfl, rfl⟩

theorem Steady.trans {a b c : State} (h : Steady a b) (h' : Steady b c) : Steady a c :=
  ⟨h'.tank.trans h.tank, h'.plans.trans h.plans, h'.otp.trans h.otp⟩

theorem forEach_steady {α : Type} {f : α → State → State} (hf : ∀ x s, Steady s (f x s)) (l : List α) (s : State) :
    Steady s (forEach l f s) := forEach_relates .refl .trans hf l s

theorem Reports.steady {s t : State} : Reports s t → Steady s t := by
  rintro ⟨_, _, _, _, _, rfl⟩
  exact ⟨rfl, rfl, rfl⟩

theorem Events.steady {s t : State} : Events s t → Steady s t := by
  rintro ⟨_, _, _, _, _, rfl⟩
  exact ⟨rfl, rfl, rfl⟩

theorem Loses.frameSteady {s t : State} : Loses s t → Steady s t := by
  rintro ⟨_, _, _, _, _, _, _, _, _, _, _, rfl⟩
  exact ⟨rfl, rfl, rfl⟩

theorem raise_steady (src : Nat) (k : Byte) (a : Nat) (s : State) : Steady s (raise src k a s) := (raise_messages src k a s).events.steady

theorem tenantCount_steady (tenant n add : Nat) (s : State) : Steady s (tenantCount tenant n add s) := (tenantCount_loses tenant n add s).frameSteady

theorem journalEvent_steady (src : Nat) (ty : Byte) (r : Nat) (a : List Byte) (s : State) : Steady s (journalEvent src ty r a s) :=
  (journalEvent_events src ty r a s).steady

theorem generate_steady (k : Nat) (s : State) : Steady s (generate k s).2 := by
  obtain ⟨_, _, h⟩ := generate_frame k s
  rw [h]
  exact ⟨rfl, rfl, rfl⟩

/-! Lines are decoded, written and counted. -/

theorem writeBytes_steady (line o : Nat) (bs : List Byte) (s : State) : Steady s (writeBytes line o bs s) := ⟨rfl, rfl, rfl⟩

theorem writeLine_steady (line : Nat) (bs : List Byte) (s : State) : Steady s (writeLine line bs s) := ⟨rfl, rfl, rfl⟩

theorem setChan_steady (ch : Nat) (v : Chan) (s : State) : Steady s (setChan ch v s) := ⟨rfl, rfl, rfl⟩

theorem setRegion_steady (i : Nat) (v : Region) (s : State) : Steady s (setRegion i v s) := ⟨rfl, rfl, rfl⟩

theorem writeSystem_steady (line o : Nat) (bs : List Byte) (s : State) : Steady s (writeSystem line o bs s) := by
  unfold writeSystem
  split
  · exact ⟨rfl, rfl, rfl⟩
  · exact writeBytes_steady _ _ _ _

theorem countBurst_steady (line : Nat) (d : Decoded) (s : State) : Steady s (countBurst line d s) := by
  unfold countBurst
  dsimp only
  split
  · exact setChan_steady _ _ _
  · split
    · exact (setChan_steady _ _ s).trans (startRetirement_reports _ _).steady
    · exact setChan_steady _ _ _
  · exact setChan_steady _ _ _

theorem earlyScrub_steady (ch line : Nat) (dma : Option Nat) (s : State) : Steady s (earlyScrub ch line dma s) := by
  unfold earlyScrub
  dsimp only
  split
  · exact setChan_steady _ _ _
  · exact (headCount_reports _ _ _).steady

theorem decodeLine_steady (s : State) (line : Nat) (path : Errors) : Steady s (decodeLine s line path).2 := by
  have hdrawn : Steady s (drawn s) := ⟨rfl, rfl, rfl⟩
  exact hdrawn.trans (countBurst_steady _ _ _)

theorem readSystem_steady (line detail : Nat) (s : State) : Steady s (readSystem line detail s).2 := by
  unfold readSystem
  extract_lets ch d
  have hd : Steady s d.2 := decodeLine_steady s line []
  split
  · exact hd
  · exact (hd.trans (noteCorrection_reports _ _ _ _ _ _ _ _).steady).trans (earlyScrub_steady _ _ _ _)
  · exact (hd.trans (chanCount_reports _ _ _ _).steady).trans (raiseDetail_messages _ _ _ _ _).events.steady

theorem readLines_steady {detail : State → Nat → Nat} {lose : Nat → State → State} (hl : ∀ line s, Steady s (lose line s)) (lines : List Nat)
    (s : State) : Steady s (readLines detail lose lines s).2 := by
  unfold readLines
  refine List.foldlRecOn lines _ (motive := fun acc : List (Nat × List Byte) × State => Steady s acc.2) (.refl s) fun acc hacc line _ => ?_
  have hr := hacc.trans (readSystem_steady line (detail acc.2 line) acc.2)
  dsimp only
  split
  · exact hr
  · exact hr.trans (hl _ _)

theorem rebuildRecs_steady (i : Nat) (s : State) : Steady s (rebuildRecs i s) := by
  refine (writeLine_steady (leaseHome s i).1 [] s).trans (forEach_steady (fun j t => ?_) _ _)
  split
  · exact writeBytes_steady _ _ _ _
  · exact ⟨rfl, rfl, rfl⟩

theorem readRec_steady (i : Nat) (s : State) : Steady s (readRec i s).2 := readLines_steady (fun _ => rebuildRecs_steady i) _ s

theorem putRec_steady (i : Nat) (e : LeaseRec) (s : State) : Steady s (putRec i e s) :=
  ((readRec_steady i s).trans (writeSystem_steady _ _ _ _)).trans (systemBursts_reports _ _ _).steady

theorem saveLease_steady (i : Nat) (s : State) : Steady s (saveLease i s) := putRec_steady _ _ _

theorem firstGen_steady (i : Nat) (s : State) : Steady s (firstGen i s) := by
  unfold firstGen
  split
  · exact .refl s
  · refine (generate_steady 15 s).trans (.trans ?_ (putRec_steady _ _ _))
    exact ⟨rfl, rfl, rfl⟩

/-- A region's entry is written, and with a new record saved too. -/
theorem seatEntry_steady (i : Nat) (r : Region) (e : LeaseRec) (s : State) :
    Steady s (if recOf r = e then setRegion i r s else saveLease i (setRegion i r s)) := by
  split
  · exact setRegion_steady _ _ _
  · exact (setRegion_steady _ _ _).trans (saveLease_steady _ _)

theorem loadEntry_steady (i : Nat) (s : State) : Steady s (loadEntry i s) := by
  unfold loadEntry
  split
  · exact setRegion_steady _ _ _
  · exact ((firstGen_steady i s).trans (readRec_steady i _)).trans (seatEntry_steady _ _ _ _)

/-! A lease starts. -/

theorem holdStart_steady (i : Nat) (byErase : Bool) (s : State) : Steady s (holdStart i byErase s) := ⟨rfl, rfl, rfl⟩

theorem dropHold_steady (i : Nat) (s : State) : Steady s (dropHold i s) := ⟨rfl, rfl, rfl⟩

theorem setKey_steady (k : Nat) (v : KeySlot) (s : State) : Steady s (setKey k v s) := ⟨rfl, rfl, rfl⟩

theorem drawKey_steady {region : Nat} {st : SlotState} {s t : State} {k : Nat} (h : drawKey region st s = some (k, t)) : Steady s t := by
  unfold drawKey at h
  split at h
  · cases h
  · split at h
    · cases h
    · simp only [Option.some.injEq, Prod.mk.injEq] at h
      obtain ⟨_, rfl⟩ := h
      exact (generate_steady 256 s).trans (setKey_steady _ _ _)

theorem beginLease_steady (i slot : Nat) (s : State) : Steady s (beginLease i slot s) := by
  have hlast (u : State) (r : Records) : Steady u { u with records := r } := ⟨rfl, rfl, rfl⟩
  exact (((((dropHold_steady i s).trans (setRegion_steady _ _ _)).trans (saveLease_steady _ _)).trans (hlast _ _)).trans
    (tenantCount_steady _ _ _ _)).trans (journalEvent_steady _ _ _ _ _)

theorem startLease_steady (i : Nat) (s : State) : Steady s (startLease i s) := by
  unfold startLease
  split
  · exact .refl s
  · split
    · exact holdStart_steady _ _ _
    · split
      · exact holdStart_steady _ _ _
      · next h => exact (drawKey_steady h).trans (beginLease_steady _ _ _)

end Sys2Proof.Safety

namespace Sys2Proof.Safety
open Sys2Proof.Machine

/-! ### The Round leaves the Tank's clock alone (R119) -/

/-- The Tank's record is as it was. -/
def TankStays (s t : State) : Prop := t.tank = s.tank

theorem TankStays.refl (s : State) : TankStays s s := rfl

theorem TankStays.trans {a b c : State} (h : TankStays a b) (h' : TankStays b c) : TankStays a c := Eq.trans h' h

theorem Steady.stays {s t : State} (h : Steady s t) : TankStays s t := h.tank

theorem forEach_stays {α : Type} {f : α → State → State} (hf : ∀ x s, TankStays s (f x s)) (l : List α) (s : State) :
    TankStays s (forEach l f s) := forEach_relates .refl .trans hf l s

/-! A plan is adopted or refused at the boundary. -/

theorem setBS_stays (k : Bank) (st r d : Nat) (s : State) : TankStays s (setBS k st r d s) := by
  cases k <;> rfl

theorem programArm_stays (k : Bank) (w : Nat) (s : State) : TankStays s (programArm k w s) := rfl

theorem setLast_stays (r : Nat) (s : State) : TankStays s (setLast r s) := rfl

theorem refuseBank_stays (k : Bank) (place reason det : Nat) (s : State) : TankStays s (refuseBank k place reason det s) := by
  have hbank : TankStays s (setBS k 7 reason det (programArm k 0 s)) := (programArm_stays k 0 s).trans (setBS_stays _ _ _ _ _)
  have hdrop (b : Bool) {u : State} (hu : TankStays s u) : TankStays s (if b then dropPreparation u else u) := by
    split
    · exact hu
    · exact hu
  exact ((hdrop _ hbank).trans (setLast_stays _ _)).trans (journalEvent_steady _ _ _ _ _).stays

theorem refuseCompat_stays (k : Bank) (place c : Nat) (s : State) : TankStays s (refuseCompat k place c s) :=
  (raise_steady _ _ _ _).stays.trans (refuseBank_stays _ _ _ _ _)

theorem refuseAdmission_stays (k : Bank) (place ch c : Nat) (s : State) : TankStays s (refuseAdmission k place ch c s) :=
  (raise_steady _ _ _ _).stays.trans (refuseBank_stays _ _ _ _ _)

theorem prepareBank_stays (k : Bank) (s : State) : TankStays s (prepareBank k s) := by
  unfold prepareBank
  split
  · have hraise : TankStays s (raiseOwn 1 0x080 0x30 (bankCode k + 1) (drawn s)) :=
      TankStays.trans (b := drawn s) rfl (pushMsg_messages _ _).events.steady.stays
    exact hraise.trans (refuseBank_stays _ _ _ _ _)
  · split
    · exact refuseCompat_stays _ _ _ _
    · split
      · exact refuseAdmission_stays _ _ _ _ _
      · exact rfl

theorem keepRecord_stays (i : Nat) (s : State) : TankStays s (keepRecord i s) := by
  have hread := (readRec_steady i s).stays
  unfold keepRecord
  dsimp only
  split
  · exact hread
  · exact hread.trans (putRec_steady _ _ _).stays

theorem adoptRegion_stays (i : Nat) (s : State) : TankStays s (adoptRegion i s) := by
  unfold adoptRegion
  dsimp only
  split
  · exact .refl s
  · split
    · exact rfl
    · split
      · exact (setRegion_steady _ _ _).stays.trans (keepRecord_stays _ _)
      · exact rfl

theorem enterError_stays (qpn : BitVec 24) (keep : Nat) (s : State) : TankStays s (enterError qpn keep s) := by
  have hdrop : TankStays s (dropOps qpn keep s) := rfl
  unfold enterError
  dsimp only
  split
  · exact hdrop
  · exact hdrop.trans (errorQp_loses _ _).frameSteady.stays

theorem adoptQp_stays (p : Plan) (qpn : Nat) (s : State) : TankStays s (adoptQp p qpn s) := by
  unfold adoptQp
  dsimp only
  split
  · exact rfl
  · split
    · exact (enterError_stays _ _ s).trans rfl
    · exact .refl s

theorem setCls_stays (ch c : Nat) (v : ClsCh) (s : State) : TankStays s (setCls ch c v s) := rfl

theorem adoptClasses_stays (old : Option Plan) (s : State) : TankStays s (adoptClasses old s) := by
  refine forEach_stays (fun ch t => forEach_stays (fun c u => ?_) _ t) _ s
  split
  · exact setCls_stays _ _ _ _
  · exact setCls_stays _ _ _ _

theorem setParlour_stays (ch : Nat) (v : Parlour) (s : State) : TankStays s (setParlour ch v s) := rfl

theorem dueCalendars_stays (s : State) : TankStays s (dueCalendars s) := forEach_stays (fun _ _ => setParlour_stays _ _ _) _ s

theorem adoptPlan_stays (k : Bank) (p : Plan) (m : Nat) (s : State) : TankStays s (adoptPlan k p m s) := by
  have hplans (u : State) (x : Plans) : TankStays u { u with plans := x } := rfl
  have hqps (l : List Nat) (u : State) : TankStays u (forEach l (adoptQp p) u) := forEach_stays (adoptQp_stays p) l u
  have hregions (l : List Nat) (u : State) : TankStays u (forEach l adoptRegion u) := forEach_stays adoptRegion_stays l u
  have hload (l : List RegionRec) (u : State) : TankStays u (forEach l (fun r t =>
      if (getRegion t r.index).active || (getRegion t r.index).erasePending then t else loadEntry r.index t) u) := by
    refine forEach_stays (fun r t => ?_) l u
    split
    · exact .refl t
    · exact (loadEntry_steady _ t).stays
  have hother (o : Bank) (u : State) : TankStays u (if (getBS u o).state = 5 then setBS o 6 0 0 u else u) := by
    split
    · exact setBS_stays _ _ _ _ _
    · exact .refl u
  have hrevokes : TankStays s (keepRevokes s) := rfl
  exact (((((((((hrevokes.trans (hplans _ _)).trans (hqps _ _)).trans (adoptClasses_stays _ _)).trans (dueCalendars_stays _)).trans
    (hregions _ _)).trans (hload _ _)).trans (hother _ _)).trans (setBS_stays k 5 0 0 _)).trans (setLast_stays 0 _)).trans
    (journalEvent_steady _ _ _ _ _).stays

theorem adoptAtBoundary_stays (m : Nat) (s : State) : TankStays s (adoptAtBoundary m s) := by
  have hprep (b : Bool) (k : Bank) : TankStays s (if b then s else prepareBank k s) := by
    split
    · exact .refl s
    · exact prepareBank_stays k s
  unfold adoptAtBoundary
  dsimp only
  split
  · exact .refl s
  · split
    · exact .refl s
    · split
      · exact hprep _ _
      · split
        · exact (hprep _ _).trans (refuseCompat_stays _ _ _ _)
        · split
          · exact (hprep _ _).trans (refuseAdmission_stays _ _ _ _ _)
          · exact (hprep _ _).trans (adoptPlan_stays _ _ _ _)

/-! Leases end, go on and start. -/

theorem dropChain_stays (i : Nat) (id : BitVec 32) (s : State) : TankStays s (dropChain i id s) := by
  unfold dropChain
  split
  · exact rfl
  · exact rfl

theorem endLease_stays (i m : Nat) (cause : Byte) (s : State) : TankStays s (endLease i m cause s) := by
  have hset (r : Region) : TankStays s (setRegion i r (tenantCount (getRegion s i).tenant 11 1 s)) :=
    (tenantCount_steady _ _ _ s).stays.trans (setRegion_steady _ _ _).stays
  unfold endLease
  dsimp only
  split
  · exact ((hset _).trans (dropChain_stays _ _ _)).trans rfl
  · exact hset _

theorem endStep_stays (m i : Nat) (s : State) : TankStays s (endStep m i s) := by
  unfold endStep
  extract_lets r s1 r1
  have h1 : TankStays s s1 := by
    dsimp only [s1]
    split
    · exact .refl s
    · split
      · split
        · exact endLease_stays _ _ _ _
        · exact (dropChain_stays _ _ s).trans (dropHold_steady _ _).stays
      · exact ((dropChain_stays _ _ s).trans (setRegion_steady _ _ _).stays).trans (saveLease_steady _ _).stays
  clear_value s1
  split
  · exact h1.trans (endLease_stays _ _ _ _)
  · exact h1

theorem lapseRevokes_stays (m : Nat) (s : State) : TankStays s (lapseRevokes m s) := by
  have hone (id : Nat) (t : State) : TankStays t (lapseRevoke id t) := by
    unfold lapseRevoke
    split
    · exact dropChain_stays _ _ _
    · exact rfl
  have hall (l : List (Nat × Nat)) : TankStays s (forEach l (fun e t => lapseRevoke e.1 t) s) := forEach_stays (fun e t => hone e.1 t) l s
  exact (hall _).trans (TankStays.refl _)

theorem continueStep_stays (m i : Nat) (s : State) : TankStays s (continueStep m i s) := by
  have hlease : TankStays s (continueLease i s) := by
    unfold continueLease
    dsimp only
    split
    · exact .refl s
    · exact (((setRegion_steady _ _ s).trans (saveLease_steady _ _)).trans (journalEvent_steady _ _ _ _ _)).stays
  unfold continueStep
  dsimp only
  split
  · exact hlease
  · exact .refl s

theorem startStep_stays (m : Nat) (p : RegionRec) (s : State) : TankStays s (startStep m p s) := by
  unfold startStep
  dsimp only
  split
  · exact .refl s
  · split
    · split
      · exact rfl
      · exact .refl s
    · exact ((loadEntry_steady _ s).trans (startLease_steady _ _)).stays

theorem showNext_stays (m i : Nat) (s : State) : TankStays s (showNext m i s) := by
  unfold showNext
  dsimp only
  split
  · exact (loadEntry_steady _ s).stays
  · exact .refl s

theorem closeRun_stays (s : State) : TankStays s (closeRun s) := by
  unfold closeRun
  dsimp only
  split
  · exact .refl s
  · exact rfl

theorem countSlabs_stays (c : Nat) (s : State) : TankStays s (countSlabs c s) := by
  refine forEach_stays (fun r t => ?_) _ s
  split
  · exact (tenantCount_steady _ _ _ _).stays
  · exact .refl t

theorem beginPreparation_stays (m : Nat) (s : State) : TankStays s (beginPreparation m s) := by
  unfold beginPreparation
  split
  · exact .refl s
  · split
    · exact rfl
    · exact .refl s

/-! The Round's minute moves on, and nothing else of the Tank. -/

/-- The Tank's record but for the Round's minute. -/
def RoundMoves (s t : State) : Prop := ∃ m, t.tank = { s.tank with roundMinute := m }

theorem TankStays.moves {s t : State} (h : TankStays s t) : RoundMoves s t := ⟨s.tank.roundMinute, h⟩

theorem RoundMoves.trans {a b c : State} : RoundMoves a b → RoundMoves b c → RoundMoves a c := by
  rintro ⟨_, h⟩ ⟨m, h'⟩
  exact ⟨m, by rw [h', h]⟩

theorem boundary_moves (m : Nat) (s : State) : RoundMoves s (boundary m s) := by
  have h0 : RoundMoves s { closeRun s with tank := { (closeRun s).tank with roundMinute := BitVec.ofNat 32 m } } :=
    (closeRun_stays s).moves.trans ⟨_, rfl⟩
  have h1 (u : State) : TankStays u (swapBuffers (countSlabs (m - 1) u)) := (countSlabs_stays _ u).trans (.refl _)
  have h3 (u : State) : TankStays u (lapseRevokes m (forEach (regionIds u) (endStep m) u)) :=
    (forEach_stays (endStep_stays m) _ u).trans (lapseRevokes_stays _ _)
  have h4 (u : State) : TankStays u (forEach (regionIds u) (continueStep m) u) := forEach_stays (continueStep_stays m) _ u
  have h5 (u : State) : TankStays u (forEach (planOf u).regions (startStep m) u) := forEach_stays (startStep_stays m) _ u
  have h6 (u : State) : TankStays u (noteActive (pruneHeld m (forEach (regionIds u) (showNext m) u))) :=
    (forEach_stays (showNext_stays m) _ u).trans (.refl _)
  exact h0.trans (((((((h1 _).trans (adoptAtBoundary_stays m _)).trans (h3 _)).trans (h4 _)).trans (h5 _)).trans (h6 _)).trans
    (beginPreparation_stays m _)).moves

theorem runBoundaries_moves (n : Nat) (s : State) : RoundMoves s (runBoundaries n s) := by
  induction n generalizing s with
  | zero => exact (TankStays.refl s).moves
  | succ n ih =>
    unfold runBoundaries
    split
    · exact (TankStays.refl s).moves
    · exact (boundary_moves _ s).trans (ih _)

theorem putRecord_stays (minute tenant span : Nat) (stepped ended : Bool) (v : Nat → Nat) (s : State) :
    TankStays s (putRecord minute tenant span stepped ended v s) :=
  TankStays.trans ((writeSystem_steady _ _ _ s).trans (systemBursts_reports _ _ _).steady).stays rfl

theorem writeRecords_stays (s : State) : TankStays s (writeRecords s) := by
  have hstep (b : Bool) (a : List Byte) : TankStays s (if b then journalEvent 0x081 0x33 0 a s else s) := by
    split
    · exact (journalEvent_steady _ _ _ _ _).stays
    · exact .refl s
  have hrun (r : RecordRun) (u : State) : TankStays u (writeRun r u) := forEach_stays (fun _ _ => putRecord_stays _ _ _ _ _ _ _) _ u
  have hruns (l : List RecordRun) (u : State) : TankStays u (forEach l writeRun u) := forEach_stays hrun l u
  have hlast (u : State) (r : Records) : TankStays u { u with records := r } := rfl
  unfold writeRecords
  dsimp only
  refine .trans (.trans ((hstep _ _).trans (hruns _ _)) (forEach_stays (fun _ _ => ?_) _ _)) (hlast _ _)
  exact putRecord_stays _ _ _ _ _ _ _

theorem settleRound_moves (s : State) : RoundMoves s (settleRound s) := by
  have hset : RoundMoves s (settleBoundaries s) := by
    have h := runBoundaries_moves (s.tank.minute.toNat - s.tank.roundMinute.toNat) s
    unfold settleBoundaries
    dsimp only
    split
    · exact h.trans (writeRecords_stays _).moves
    · exact h
  unfold settleRound
  split
  · exact hset
  · exact (TankStays.refl s).moves

end Sys2Proof.Safety

namespace Sys2Proof.Safety
open Sys2Proof.Machine

/-! ### ANCHOR (R47, R115) -/

theorem timeBytes_congr {s t : State} (h : t.tank = s.tank) : timeBytes t = timeBytes s := by
  unfold timeBytes stamp
  rw [h]

theorem deviceUs_congr {s t : State} (h : t.tank = s.tank) : deviceUs t = deviceUs s := by
  unfold deviceUs
  rw [h]

theorem Commanded.records {u t : State} : Commanded u t → t.records = u.records := by
  rintro ⟨_, _, _, _, _, _, _, _, _, _, _, _, _, rfl⟩
  rfl

theorem Commanded.withTime {u t : State} (k : Tank) (r : Records) :
    Commanded u t → Commanded { u with tank := k, records := r } { t with tank := k, records := r } := by
  rintro ⟨c, ch, d, j, n, x, y, z, w, i, st, cd, lr, rfl⟩
  exact ⟨c, ch, d, j, n, x, y, z, w, i, st, cd, lr, rfl⟩

/-- A set clock is synchronised, and the source of its time is not auto-start (R47). -/
def synced (s : State) : State := { s with tank := { s.tank with unsync := false, timeSource := false } }

section
variable {f : ChainFrame} {s : State} (hus : field f.payload 4 4 < 60000000)
include hus

theorem anchorRule_first (ha : s.tank.anchored = false) (hp : s.tank.phase = 0x05 ∨ s.tank.phase = 0x06) :
    anchorRule f s = done (timeBytes s) (anchorFirst (field f.payload 0 4) (field f.payload 4 4) false (synced s)) := by
  unfold anchorRule
  dsimp only
  rw [if_neg (by omega), if_pos (by simp [ha]), if_pos (by rcases hp with h | h <;> simp [h])]
  rfl

theorem anchorRule_held (ha : s.tank.anchored = false) (h5 : s.tank.phase ≠ 0x05) (h6 : s.tank.phase ≠ 0x06) :
    anchorRule f s = done (timeBytes s)
      { s with tank := { s.tank with held := some (BitVec.ofNat 32 (field f.payload 0 4), field f.payload 4 4), unsync := false } } := by
  unfold anchorRule
  dsimp only
  rw [if_neg (by omega), if_pos (by simp [ha]), if_neg]
  simp only [Bool.or_eq_true, decide_eq_true_eq, not_or]
  exact ⟨h5, h6⟩

theorem anchorRule_ahead (ha : s.tank.anchored = true) (hn : deviceUs s ≤ field f.payload 0 4 * 60000000 + field f.payload 4 4) :
    anchorRule f s = done (timeBytes s) (stepForward (field f.payload 0 4 * 60000000 + field f.payload 4 4) (synced s)) := by
  unfold anchorRule
  dsimp only
  rw [if_neg (by omega), if_neg (by simp [ha]), if_pos hn]
  rfl

theorem anchorRule_behind (ha : s.tank.anchored = true) (hn : field f.payload 0 4 * 60000000 + field f.payload 4 4 < deviceUs s)
    (hm : s.tank.minute.toNat * 60000000 ≤ field f.payload 0 4 * 60000000 + field f.payload 4 4 + 3600000000) :
    anchorRule f s = done (timeBytes s) { synced s with tank :=
      { (synced s).tank with holdUs := deviceUs s - (field f.payload 0 4 * 60000000 + field f.payload 4 4) } } := by
  unfold anchorRule
  dsimp only
  rw [if_neg (by omega), if_neg (by simp [ha]), if_neg (by omega), if_pos hm]
  rfl

end

/-- A command whose rule answers done or accepted leaves what the rule has made of a state that every command may leave, and its
RESPONSE. -/
theorem runCommand_acts {code : Byte} {p : ChainPort} {f : ChainFrame} {s : State} {rule : State → Reply} {st : Byte} {pl : List Byte}
    (h : Runs code p f s) (hst : st = 0x00 ∨ st = 0x01)
    (hr : ∀ s1, Commanded s s1 → (rule s1).status = st ∧ (rule s1).payload = pl) :
    ∃ t s1, runCommand code p f rule s = t ∧ Commanded s s1 ∧ Commanded (rule s1).st t ∧ Answered f st pl t := by
  obtain ⟨s1, h1, hrun⟩ := runCommand_runs h rule
  obtain ⟨ha, hb⟩ := hr s1 h1
  rw [ha, hb, if_pos hst] at hrun
  refine ⟨_, _, hrun, h1.trans (journalEvent_events _ _ _ _ _).commanded, answer_commanded _ _ _ _ _ _, answer_answered ?_⟩
  rcases hst with rfl | rfl <;> decide

/-- A step forward sets the clock; what its boundaries bring leaves the clock alone (R115, R119). -/
theorem stepForward_clock (m us : Nat) (hus : us < 60000000) (s : State) :
    (stepForward (m * 60000000 + us) s).tank.minute = BitVec.ofNat 32 m ∧ (stepForward (m * 60000000 + us) s).tank.usec = us ∧
      (stepForward (m * 60000000 + us) s).tank.holdUs = 0 ∧ (stepForward (m * 60000000 + us) s).tank.unsync = s.tank.unsync := by
  have hdiv : (m * 60000000 + us) / 60000000 = m := by omega
  have hmod : (m * 60000000 + us) % 60000000 = us := by omega
  unfold stepForward
  rw [hdiv, hmod]
  obtain ⟨x, hx⟩ := settleRound_moves { s with tank := { s.tank with minute := BitVec.ofNat 32 m, usec := us, holdUs := 0 } }
  rw [hx]
  exact ⟨rfl, rfl, rfl, rfl⟩

/-- Settles O1: the rule's four cases, each read off the request's state, which differs from `s` in nothing that they read. -/
theorem anchorSetsDeviceTime : Obligations.AnchorSetsDeviceTime := by
  unfold Obligations.AnchorSetsDeviceTime
  rintro p f s m us hr rfl rfl hus
  refine ⟨fun ha hp => ?_, fun ha h5 h6 => ?_, fun ha hn => ?_, fun ha hn hm => ?_⟩
  · obtain ⟨t, ht, hc, hans⟩ := runCommand_carried (rule := anchorRule f) (pl := timeBytes s)
      (u := anchorFirst (field f.payload 0 4) (field f.payload 4 4) false (synced s)) hr (.inl rfl) fun s1 h1 => by
        rw [anchorRule_first hus (by rw [h1.tank]; exact ha) (by rw [h1.tank]; exact hp)]
        refine ⟨rfl, timeBytes_congr h1.tank, ?_⟩
        unfold done anchorFirst synced
        rw [h1.tank, h1.records]
        exact h1.withTime _ _
    exact ⟨t, congrArg _ ht, hans, hc⟩
  · obtain ⟨t, ht, hc, hans⟩ := runCommand_carried (rule := anchorRule f) (pl := timeBytes s)
      (u := { s with tank := { s.tank with held := some (BitVec.ofNat 32 (field f.payload 0 4), field f.payload 4 4), unsync := false } })
      hr (.inl rfl) fun s1 h1 => by
        rw [anchorRule_held hus (by rw [h1.tank]; exact ha) (by rw [h1.tank]; exact h5) (by rw [h1.tank]; exact h6)]
        refine ⟨rfl, timeBytes_congr h1.tank, ?_⟩
        unfold done
        rw [h1.tank]
        exact h1.withTank _
    exact ⟨t, congrArg _ ht, hans, hc⟩
  · have hrule (s1 : State) (h1 : Commanded s s1) : anchorRule f s1 =
        done (timeBytes s1) (stepForward (field f.payload 0 4 * 60000000 + field f.payload 4 4) (synced s1)) :=
      anchorRule_ahead hus (by rw [h1.tank]; exact ha) (by rw [deviceUs_congr h1.tank]; exact hn)
    obtain ⟨t, s1, ht, h1, hc, hans⟩ := runCommand_acts (rule := anchorRule f) (pl := timeBytes s) hr (.inl rfl) fun s1 h1 => by
      rw [hrule s1 h1]
      exact ⟨rfl, timeBytes_congr h1.tank⟩
    rw [hrule s1 h1] at hc
    obtain ⟨hmin, husec, hhold, hsync⟩ := stepForward_clock (field f.payload 0 4) (field f.payload 4 4) hus (synced s1)
    refine ⟨t, congrArg _ ht, hans, ?_⟩
    rw [hc.tank]
    exact ⟨hmin, husec, hhold, hsync⟩
  · obtain ⟨t, ht, hc, hans⟩ := runCommand_carried (rule := anchorRule f) (pl := timeBytes s)
      (u := { s with tank := { s.tank with
        holdUs := deviceUs s - (field f.payload 0 4 * 60000000 + field f.payload 4 4), unsync := false, timeSource := false } })
      hr (.inl rfl) fun s1 h1 => by
        rw [anchorRule_behind hus (by rw [h1.tank]; exact ha) (by rw [deviceUs_congr h1.tank]; exact hn) (by rw [h1.tank]; exact hm)]
        refine ⟨rfl, timeBytes_congr h1.tank, ?_⟩
        unfold done synced
        rw [h1.tank, deviceUs_congr h1.tank]
        exact h1.withTank _
    exact ⟨t, congrArg _ ht, hans, hc⟩

end Sys2Proof.Safety

namespace Sys2Proof.Safety
open Sys2Proof.Machine

/-! ### The banks are checked (R44, R49, R257, R259) -/

/-- Nothing but the two banks' states and waiting fault messages differs: what checks of banks change. -/
def BanksNoted (u t : State) : Prop := ∃ a b c, t = { u with plans := { u.plans with bankA := a, bankB := b }, churn := c }

theorem BanksNoted.refl (s : State) : BanksNoted s s := ⟨_, _, _, rfl⟩

theorem BanksNoted.trans {a b c : State} : BanksNoted a b → BanksNoted b c → BanksNoted a c := by
  rintro ⟨_, _, _, rfl⟩ ⟨_, _, _, rfl⟩
  exact ⟨_, _, _, rfl⟩

section
variable {s u : State} (h : BanksNoted s u)
include h

theorem BanksNoted.checkBankForm_eq (k : Bank) : checkBankForm u k = checkBankForm s k := by
  obtain ⟨_, _, _, rfl⟩ := h
  rfl

theorem BanksNoted.checkBank_eq (k : Bank) : checkBank u k = checkBank s k := by
  obtain ⟨_, _, _, rfl⟩ := h
  rfl

theorem BanksNoted.armWord_eq (k : Bank) : armWord u k = armWord s k := by
  obtain ⟨_, _, _, rfl⟩ := h
  rfl

theorem BanksNoted.compat_eq (p : Plan) (m : Nat) (b : Bool) : compat u p m b = compat s p m b := by
  obtain ⟨_, _, _, rfl⟩ := h
  rfl

theorem BanksNoted.kept : u.tank = s.tank ∧ u.pins = s.pins ∧ u.flash = s.flash ∧ u.dram = s.dram ∧ u.otp = s.otp ∧
    u.retired = s.retired ∧ u.plans.forced = s.plans.forced ∧ u.plans.target = s.plans.target := by
  obtain ⟨_, _, _, rfl⟩ := h
  exact ⟨rfl, rfl, rfl, rfl, rfl, rfl, rfl, rfl⟩

end

theorem setBS_noted (k : Bank) (st r d : Nat) (s : State) : BanksNoted s (setBS k st r d s) := by
  cases k <;> exact ⟨_, _, _, rfl⟩

theorem getBS_setBS_same (k : Bank) (st r d : Nat) (s : State) : (getBS (setBS k st r d s) k).state = BitVec.ofNat 4 st ∧
    (getBS (setBS k st r d s) k).reason = BitVec.ofNat 8 r ∧ (getBS (setBS k st r d s) k).detail = BitVec.ofNat 32 d := by
  cases k <;> exact ⟨rfl, rfl, rfl⟩

theorem getBS_setBS_other {j k : Bank} (h : j ≠ k) (st r d : Nat) (s : State) : getBS (setBS k st r d s) j = getBS s j := by
  exact getBS_put_other s h _

theorem getBS_messages {s t : State} (h : Messages s t) (k : Bank) : getBS t k = getBS s k := by
  obtain ⟨_, _, _, _, rfl⟩ := h
  cases k <;> rfl

theorem Messages.noted {s t : State} : Messages s t → BanksNoted s t := by
  rintro ⟨_, _, _, _, rfl⟩
  exact ⟨_, _, _, rfl⟩

theorem invalidBank_frame (k : Bank) (e : Nat × Nat) (b : Bool) (s : State) : BanksNoted s (invalidBank k e b s) ∧
    (∀ j ≠ k, getBS (invalidBank k e b s) j = getBS s j) ∧
    (getBS (invalidBank k e b s) k).state = (if e.1 = 1 then 0 else 1) ∧ (getBS (invalidBank k e b s) k).reason = BitVec.ofNat 8 e.1 ∧
      (getBS (invalidBank k e b s) k).detail = BitVec.ofNat 32 e.2 := by
  have hm : Messages (failedBank k e s) (invalidBank k e b s) := raiseAs_messages _ _ _ _ _
  obtain ⟨hstate, hreason, hdetail⟩ := getBS_setBS_same k (if e.1 = 1 then 0 else 1) e.1 e.2 s
  refine ⟨(setBS_noted _ _ _ _ s).trans hm.noted, fun j hj => ?_, ?_, ?_, ?_⟩
  all_goals rw [getBS_messages hm]
  · exact getBS_setBS_other hj _ _ _ s
  · refine hstate.trans ?_
    split <;> rfl
  · exact hreason
  · exact hdetail

theorem validBank_frame (k : Bank) (s : State) : BanksNoted s (validBank k s) ∧ (∀ j ≠ k, getBS (validBank k s) j = getBS s j) ∧
    (armWord s k = 0x5A5A5A5A → (getBS (validBank k s) k).state = 6) := by
  unfold validBank
  dsimp only
  split
  · exact ⟨setBS_noted _ _ _ _ s, fun j hj => getBS_setBS_other hj _ _ _ s, fun _ => (getBS_setBS_same k 6 0 0 s).1⟩
  · next h =>
    split
    · exact ⟨setBS_noted _ _ _ _ s, fun j hj => getBS_setBS_other hj _ _ _ s, fun h' => absurd h' h⟩
    · exact ⟨setBS_noted _ _ _ _ s, fun j hj => getBS_setBS_other hj _ _ _ s, fun h' => absurd h' h⟩

/-- What the check of a bank at a start finds of it stands in its state (R257, R259). -/
def BankChecked (k : Bank) (s t : State) : Prop :=
  (∀ e, checkBankForm s k = .error e → (getBS t k).state = (if e.1 = 1 then 0 else 1) ∧ (getBS t k).reason = BitVec.ofNat 8 e.1 ∧
    (getBS t k).detail = BitVec.ofNat 32 e.2) ∧
  (∀ l, checkBankForm s k = .ok l → armWord s k = 0x5A5A5A5A → (getBS t k).state = 6)

theorem BankChecked.of_getBS {k : Bank} {s t u : State} (h : BankChecked k s t) (hb : getBS u k = getBS t k) : BankChecked k s u := by
  unfold BankChecked at h ⊢
  rw [hb]
  exact h

theorem checkAtStart_frame (k : Bank) (s : State) : BanksNoted s (checkAtStart k s) ∧ (∀ j ≠ k, getBS (checkAtStart k s) j = getBS s j) ∧
    (s.plans.target = none → BankChecked k s (checkAtStart k s)) := by
  unfold checkAtStart
  split
  · next ht => exact ⟨.refl s, fun _ _ => rfl, fun h => by rw [h] at ht; cases ht⟩
  · split
    · next e he =>
      obtain ⟨hn, hother, hs, hr, hd⟩ := invalidBank_frame k e (formOk s (otherBank k)) s
      refine ⟨hn, hother, fun _ => ⟨fun e' he' => ?_, fun l hl => ?_⟩⟩
      · rw [he] at he'
        cases he'
        exact ⟨hs, hr, hd⟩
      · rw [he] at hl
        cases hl
    · next l hl =>
      obtain ⟨hn, hother, hs⟩ := validBank_frame k s
      refine ⟨hn, hother, fun _ => ⟨fun e he => ?_, fun _ _ => hs⟩⟩
      rw [hl] at he
      cases he

/-- Both banks, A first. -/
theorem checkBanks_frame (s : State) : BanksNoted s (checkAtStart .b (checkAtStart .a s)) ∧
    (s.plans.target = none → ∀ j, BankChecked j s (checkAtStart .b (checkAtStart .a s))) := by
  obtain ⟨ha, _, hca⟩ := checkAtStart_frame .a s
  obtain ⟨hb, hother, hcb⟩ := checkAtStart_frame .b (checkAtStart .a s)
  obtain ⟨_, _, _, _, _, _, _, htarget⟩ := ha.kept
  refine ⟨ha.trans hb, fun ht j => ?_⟩
  cases j with
  | a => exact (hca ht).of_getBS (hother .a (by decide))
  | b =>
    have h := hcb (htarget.trans ht)
    unfold BankChecked at h ⊢
    rwa [ha.checkBankForm_eq, ha.armWord_eq] at h

theorem Rests.kept {s t : State} : Rests s t → t.tank = s.tank ∧ t.plans = s.plans ∧ t.flash = s.flash ∧ t.dram = s.dram := by
  rintro ⟨_, _, _, _, _, _, _, _, rfl⟩
  exact ⟨rfl, rfl, rfl, rfl⟩

theorem getBS_congr {s t : State} (h : t.plans = s.plans) (k : Bank) : getBS t k = getBS s k := by
  cases k <;> simp [getBS, h]

theorem armed_congr {s t : State} (h : t.plans = s.plans) (k : Bank) : armed t k = armed s k := by
  unfold armed
  rw [getBS_congr h]

/-- The held clock is taken over at most, which changes the clock and the open minute. -/
theorem takeHeld_frame (s : State) : ∃ k r, takeHeld s = { s with tank := k, records := r } := by
  unfold takeHeld
  split
  · split
    · exact ⟨_, _, rfl⟩
    · exact ⟨_, _, rfl⟩
  · exact ⟨_, _, rfl⟩

theorem planBankCheck_decides {s : State} (hw : s.pins.wrstUntil ≤ s.tank.clockUs) (hp : s.tank.phase = 0x04) :
    ∃ t, exec .planBankCheck s = .next t ∧ t.tank.haltReason = (if armed t .a || armed t .b then 0 else 3) ∧
      t.tank.phase = (if armed t .a || armed t .b then 0x05 else 0xE0) ∧ t.flash = s.flash ∧ t.dram = s.dram ∧
      ∀ j, s.plans.target = none → BankChecked j s t := by
  obtain ⟨hn, hc⟩ := checkBanks_frame s
  obtain ⟨htank, hpins, hflash, hdram, _, _, _, _⟩ := hn.kept
  have hexec : exec .planBankCheck s =
      if armed (checkAtStart .b (checkAtStart .a s)) .a || armed (checkAtStart .b (checkAtStart .a s)) .b then
        .next (setPhase 0x05 0 (takeHeld (checkAtStart .b (checkAtStart .a s))))
      else .next (haltStart 0xE0 3 (checkAtStart .b (checkAtStart .a s))) := by
    show execPlanBankCheck s = _
    unfold execPlanBankCheck
    rw [if_neg (not_not.mpr hp)]
  generalize checkAtStart .b (checkAtStart .a s) = u at *
  by_cases ha : (armed u .a || armed u .b) = true
  · rw [if_pos ha] at hexec
    obtain ⟨k, r, hk⟩ := takeHeld_frame u
    rw [hk] at hexec
    have hplans : (setPhase 0x05 0 { u with tank := k, records := r }).plans = u.plans := rfl
    refine ⟨_, hexec, ?_, ?_, hflash, hdram, fun j ht => (hc ht j).of_getBS (getBS_congr hplans j)⟩
    all_goals
      rw [armed_congr hplans, armed_congr hplans, if_pos ha]
      rfl
  · rw [if_neg ha] at hexec
    obtain ⟨k, hrests, hk⟩ := haltStart_rests 0xE0 3 u
    obtain ⟨htk, hplans, hfl, hdr⟩ := hrests.kept
    have hplans : (haltStart 0xE0 3 u).plans = u.plans := hplans
    have hk := hk (.inl (by rw [hpins, htank]; exact hw))
    refine ⟨_, hexec, ?_, ?_, hfl.trans hflash, hdr.trans hdram, fun j ht => (hc ht j).of_getBS (getBS_congr hplans j)⟩
    all_goals
      rw [armed_congr hplans, armed_congr hplans, if_neg ha, htk, hk]

end Sys2Proof.Safety

namespace Sys2Proof.Safety
open Sys2Proof.Machine

/-! ### The order of the banks (R48, R257) -/

theorem armed_of_invalid {k : Bank} {e : Nat × Nat} {b : Bool} {s : State} : armed (invalidBank k e b s) k = false := by
  obtain ⟨_, _, hs, _, _⟩ := invalidBank_frame k e b s
  unfold armed
  rw [hs]
  split <;> rfl

/-- The late checks of a bank leave it as it was, or find it invalid; one that passes is left alone (R257). -/
theorem checkLate_frame (k : Bank) (s : State) : BanksNoted s (checkLate k s) ∧ (∀ j ≠ k, getBS (checkLate k s) j = getBS s j) ∧
    (getBS (checkLate k s) k = getBS s k ∨ armed (checkLate k s) k = false) ∧ (∀ p, checkBank s k = .ok p → checkLate k s = s) := by
  have hsame : BanksNoted s s ∧ (∀ j ≠ k, getBS s j = getBS s j) ∧ (getBS s k = getBS s k ∨ armed s k = false) ∧
      (∀ p, checkBank s k = .ok p → s = s) := ⟨.refl s, fun _ _ => rfl, .inl rfl, fun _ _ => rfl⟩
  unfold checkLate
  dsimp only
  split
  · exact hsame
  · split
    · next e he =>
      obtain ⟨hn, hother, _⟩ := invalidBank_frame k e (bankPasses s (otherBank k)) s
      exact ⟨hn, hother, .inr armed_of_invalid, fun p hp => by rw [he] at hp; cases hp⟩
    · exact hsame

/-- After the late checks of both banks each is as it was or not armed, and one that passes is as it was. -/
theorem lateChecks_frame (s : State) : BanksNoted s (checkLate .b (checkLate .a s)) ∧
    (∀ j, getBS (checkLate .b (checkLate .a s)) j = getBS s j ∨ armed (checkLate .b (checkLate .a s)) j = false) ∧
    ∀ k p, checkBank s k = .ok p → getBS (checkLate .b (checkLate .a s)) k = getBS s k := by
  obtain ⟨ha, hoa, hca, hpa⟩ := checkLate_frame .a s
  obtain ⟨hb, hob, hcb, hpb⟩ := checkLate_frame .b (checkLate .a s)
  have hA : getBS (checkLate .b (checkLate .a s)) .a = getBS (checkLate .a s) .a := hob .a (by decide)
  have hB : getBS (checkLate .a s) .b = getBS s .b := hoa .b (by decide)
  refine ⟨ha.trans hb, fun j => ?_, fun k p hk => ?_⟩
  · cases j with
    | a =>
      unfold armed at hca ⊢
      rw [hA]
      exact hca
    | b => rwa [hB] at hcb
  · cases k with
    | a => rw [hA, hpa p hk]
    | b => rw [hpb p (by rw [ha.checkBank_eq]; exact hk), hB]

/-- The armed banks, and no others, are tried. -/
theorem mem_bankOrder {s : State} {k : Bank} : k ∈ bankOrder s ↔ armed s k = true := by
  have hfilter : k ∈ ((if newerSeq (getBS s .b).seq (getBS s .a).seq then [Bank.b, .a] else [.a, .b]).filter (armed s)) ↔ armed s k = true := by
    split <;> cases k <;> simp
  unfold bankOrder
  dsimp only
  generalize (if newerSeq (getBS s .b).seq (getBS s .a).seq then [Bank.b, .a] else [.a, .b]).filter (armed s) = l at *
  rw [← hfilter]
  split
  · next j _ =>
    split
    · next hj =>
      by_cases h : k = j
      · subst h
        simpa using hj
      · simp [h]
    · exact Iff.rfl
  · exact Iff.rfl

theorem bankOrder_congr {s t : State} (hb : ∀ j, getBS t j = getBS s j) (hf : t.plans.forced = s.plans.forced) : bankOrder t = bankOrder s := by
  have ha : armed t = armed s := funext fun j => by
    unfold armed
    rw [hb]
  unfold bankOrder
  simp only [hb, hf, ha]

/-- With no bank armed before the late checks, none is tried after them. -/
theorem bankOrder_lateChecks_nil {s : State} (h : bankOrder s = []) : bankOrder (checkLate .b (checkLate .a s)) = [] := by
  obtain ⟨_, hstay, _⟩ := lateChecks_frame s
  refine List.eq_nil_iff_forall_not_mem.mpr fun j hj => ?_
  have hj := mem_bankOrder.mp hj
  rcases hstay j with hsame | hoff
  · have hs : armed s j = true := by
      unfold armed at hj ⊢
      rwa [hsame] at hj
    have := mem_bankOrder.mpr hs
    rw [h] at this
    cases this
  · rw [hoff] at hj
    cases hj

/-- The first bank to be tried stays the first when it passes the late checks: the other can only fall out. -/
theorem bankOrder_lateChecks_cons {s : State} {k : Bank} {rest : List Bank} {p : Plan} (h : bankOrder s = k :: rest) (hp : checkBank s k = .ok p) :
    ∃ l, bankOrder (checkLate .b (checkLate .a s)) = k :: l := by
  obtain ⟨hn, hstay, hpass⟩ := lateChecks_frame s
  obtain ⟨_, _, _, _, _, _, hforced, _⟩ := hn.kept
  generalize checkLate .b (checkLate .a s) = u at *
  have hk : armed u k = true := by
    have hs : armed s k = true := mem_bankOrder.mp (by rw [h]; exact List.mem_cons_self)
    unfold armed at hs ⊢
    rwa [hpass k p hp]
  by_cases hall : ∀ j, getBS u j = getBS s j
  · exact ⟨rest, (bankOrder_congr hall hforced).trans h⟩
  · obtain ⟨o, ho⟩ := not_forall.mp hall
    have hoff := (hstay o).resolve_left ho
    have honly (j : Bank) (hj : j ∈ bankOrder u) : j = k := by
      have hj := mem_bankOrder.mp hj
      have hjo : j ≠ o := fun e => by
        rw [e, hoff] at hj
        cases hj
      have hko : k ≠ o := fun e => by
        rw [e, hoff] at hk
        cases hk
      revert hjo hko
      cases j <;> cases k <;> cases o <;> decide
    match hl : bankOrder u with
    | [] => exact absurd (mem_bankOrder.mpr hk) (by rw [hl]; exact List.not_mem_nil)
    | j :: l => exact ⟨l, by rw [honly j (by rw [hl]; exact List.mem_cons_self)]⟩

end Sys2Proof.Safety

namespace Sys2Proof.Safety
open Sys2Proof.Machine

/-! ### A plan comes into force (R44, R47, R48) -/

/-- The clock is set, and this plan of this bank is in force; the OTP's cells are these. -/
structure InForce (k : Bank) (p : Plan) (cells : Table (BitVec 39)) (t : State) : Prop where
  anchored : t.tank.anchored = true
  plan : t.plans.plan = some p
  bank : t.plans.inForce = some k
  state : (getBS t k).state = 5
  cells : t.otp.cells = cells

theorem InForce.of_steady {k : Bank} {p : Plan} {cells : Table (BitVec 39)} {s t : State} (h : InForce k p cells s) (hst : Steady s t) :
    InForce k p cells t where
  anchored := by rw [hst.tank]; exact h.anchored
  plan := by rw [hst.plans]; exact h.plan
  bank := by rw [hst.plans]; exact h.bank
  state := by rw [getBS_congr hst.plans]; exact h.state
  cells := by rw [hst.otp]; exact h.cells

theorem autoAnchor_anchors (k : Bank) (p : Plan) (s : State) : (autoAnchor k p s).tank.anchored = true ∧ (autoAnchor k p s).otp = s.otp := by
  unfold autoAnchor
  split
  · next h => exact ⟨h, rfl⟩
  · have h := journalEvent_steady 0x084 0x04 0 (beBytes 4 p.autoStart.toNat ++ [BitVec.ofNat 8 (bankCode k)]) (anchorFirst p.autoStart.toNat 0 true s)
    exact ⟨by rw [h.tank]; rfl, h.otp⟩

theorem setParlour_steady (ch : Nat) (v : Parlour) (s : State) : Steady s (setParlour ch v s) := ⟨rfl, rfl, rfl⟩

theorem dueCalendars_steady (s : State) : Steady s (dueCalendars s) := forEach_steady (fun _ _ => setParlour_steady _ _ _) _ s

theorem setCls_steady (ch c : Nat) (v : ClsCh) (s : State) : Steady s (setCls ch c v s) := ⟨rfl, rfl, rfl⟩

theorem startLatency_steady (s : State) : Steady s (startLatency s) := by
  refine forEach_steady (fun ch t => forEach_steady (fun c u => ?_) _ t) _ s
  split
  · exact setCls_steady _ _ _ _
  · exact setCls_steady _ _ _ _

/-- The plans' record with a bank's plan in force, and nothing under preparation. -/
def planLoaded (k : Bank) (p : Plan) (s : State) : State :=
  { s with plans := { s.plans with plan := some p, inForce := some k, forced := none, prepared := false, preparing := none, buffer := none,
                                   reloadFailed := [] } }

theorem loadPlan_inForce (k : Bank) (p : Plan) (s : State) (h : s.tank.anchored = true) : InForce k p s.otp.cells (loadPlan k p s) := by
  have hbank : InForce k p s.otp.cells (setBS k 5 0 0 (planLoaded k p s)) := by
    cases k <;> exact ⟨h, rfl, rfl, rfl, rfl⟩
  refine hbank.of_steady (.trans ?_ (startLatency_steady _))
  exact (journalEvent_steady _ _ _ _ _).trans (dueCalendars_steady _)

theorem loadRegions_steady (s : State) : Steady s (loadRegions s) := by
  refine forEach_steady (fun i t => ?_) _ s
  split
  · exact .refl t
  · exact loadEntry_steady _ _

/-- A port as training begins on it: present where the plan has it, in training, and down (R44, R60). -/
def PortBegins (q : Nat) (t : State) : Prop :=
  (getPort t q).present = portPresent t q ∧ (getPort t q).training = portPresent t q ∧ (getPort t q).up = false

theorem portPresent_congr {s t : State} (h : t.plans = s.plans) (q : Nat) : portPresent t q = portPresent s q := by
  unfold portPresent quadMode
  rw [h]

theorem PortBegins.of_eq {q : Nat} {s t : State} (h : PortBegins q s) (hp : t.plans = s.plans) (hq : getPort t q = getPort s q) :
    PortBegins q t := by
  unfold PortBegins
  rw [hq, portPresent_congr hp]
  exact h

/-- One step of `beginTraining` over the ports: the port's record starts anew. -/
def beginPort (p : Nat) (t : State) : State :=
  setPort p { Port.zero with present := portPresent t p, mode := if portPresent t p then BitVec.ofNat 4 (quadMode t (p / 4)).1 else 0,
                             training := portPresent t p,
                             lossless := if portPresent t p then ((ifaceOf t (p / 4)).map (fun i => i.lossless)).getD 0 else 0 } t

theorem beginPort_begins (p : Nat) (t : State) : PortBegins p (beginPort p t) := by
  have hp : portPresent (beginPort p t) p = portPresent t p := portPresent_congr rfl p
  unfold PortBegins
  rw [hp]
  unfold beginPort
  rw [getPort_set_same]
  exact ⟨rfl, rfl, rfl⟩

theorem beginPort_keeps (p q : Nat) (t : State) (h : PortBegins q t) : PortBegins q (beginPort p t) := by
  by_cases hq : q = p
  · subst hq
    exact beginPort_begins q t
  · exact h.of_eq rfl (getPort_set_other _ hq _)

/-- One step of `beginTraining` over the lanes: a lane of a present port takes its start set. -/
def beginLane (l : Nat) (t : State) : State :=
  if portPresent t (lanePort t l) then setLane l { getLane t l with coeffs := startSet t l } t else t

theorem beginTraining_eq (s : State) : beginTraining s = forEach (upTo 16) beginLane (forEach (upTo 16) beginPort s) := rfl

theorem beginTraining_frame (s : State) : Steady s (beginTraining s) ∧ ∀ q < 16, PortBegins q (beginTraining s) := by
  have hlane (l : Nat) (t : State) : Steady t (beginLane l t) ∧ (beginLane l t).ports = t.ports := by
    unfold beginLane
    split
    · exact ⟨⟨rfl, rfl, rfl⟩, rfl⟩
    · exact ⟨.refl t, rfl⟩
  have hport (p : Nat) (t : State) : Steady t (beginPort p t) := ⟨rfl, rfl, rfl⟩
  rw [beginTraining_eq]
  refine ⟨(forEach_steady hport _ s).trans (forEach_steady (fun l t => (hlane l t).1) _ _), fun q hq => ?_⟩
  have hbegun : PortBegins q (forEach (upTo 16) beginPort s) :=
    forEach_establishes (P := PortBegins) beginPort_begins beginPort_keeps (List.mem_range.mpr hq) s
  refine forEach_keeps (P := PortBegins q) (fun l t ht => ?_) hbegun
  obtain ⟨hst, hports⟩ := hlane l t
  refine ht.of_eq hst.plans ?_
  unfold getPort
  rw [hports]

/-- The Round begins with the minute that the clock shows. -/
def roundBegins (s : State) : State :=
  { s with tank := { s.tank with roundMinute := s.tank.minute }, records := { s.records with openMinute := s.tank.minute.toNat } }

/-- The leases that cover the minute start. -/
def startCovering (p : Plan) (s : State) : State :=
  forEach p.regions (fun r t => if (leaseAt t r.index s.tank.minute.toNat).isSome then startLease r.index t else t) s

theorem enterPlan_eq (k : Bank) (p : Plan) (s : State) :
    enterPlan k p s = setPhase 0x07 0 (beginTraining (startCovering p (loadRegions (loadPlan k p (roundBegins (autoAnchor k p s)))))) := by
  unfold enterPlan startCovering roundBegins
  dsimp only

theorem startCovering_steady (p : Plan) (s : State) : Steady s (startCovering p s) := by
  refine forEach_steady (fun r t => ?_) _ s
  split
  · exact startLease_steady _ _
  · exact .refl t

/-- The plan is in force with phase 0x07, and its ports begin to train (R44, R48). -/
theorem enterPlan_frame (k : Bank) (p : Plan) (s : State) : InForce k p s.otp.cells (enterPlan k p s) ∧ (enterPlan k p s).tank.phase = 0x07 ∧
    ∀ q < 16, PortBegins q (enterPlan k p s) := by
  obtain ⟨hanch, hotp⟩ := autoAnchor_anchors k p s
  have hplan : InForce k p s.otp.cells (loadPlan k p (roundBegins (autoAnchor k p s))) := by
    rw [← hotp]
    exact loadPlan_inForce k p (roundBegins (autoAnchor k p s)) hanch
  have hlater := (hplan.of_steady (loadRegions_steady _)).of_steady (startCovering_steady p _)
  rw [enterPlan_eq]
  generalize startCovering p (loadRegions (loadPlan k p (roundBegins (autoAnchor k p s)))) = u at hlater ⊢
  obtain ⟨hst, hports⟩ := beginTraining_frame u
  obtain ⟨h1, h2, h3, h4, h5⟩ := hlater.of_steady hst
  generalize beginTraining u = v at *
  refine ⟨⟨h1, h2, h3, ?_, h5⟩, rfl, fun q hq => (hports q hq).of_eq rfl rfl⟩
  rw [getBS_congr (show (setPhase 0x07 0 v).plans = v.plans from rfl)]
  exact h4

/-! ### From plan selection to service -/

theorem takeHeld_of_ready {s : State} (h : timeReady s = true) : takeHeld s = s := by
  unfold timeReady at h
  simp only [Bool.and_eq_true, decide_eq_true_eq, Bool.or_eq_true, Bool.not_eq_true'] at h
  unfold takeHeld
  split
  · rw [if_pos]
    rcases h.2 with ha | hb
    · simp [ha]
    · simp [hb]
  · rfl

theorem planSelection_ready {s : State} (hf : s.pins.powerFail = false) (hp : s.tank.phase = 0x05) (h : timeReady s = true) :
    exec .planSelection s = .next { s with tank := { s.tank with phase := 0x06, haltReason := 0 } } := by
  show execPlanSelection s = _
  unfold execPlanSelection
  rw [if_neg (by simp [hf]), if_pos hp, takeHeld_of_ready h]
  dsimp only
  rw [if_pos h]
  rfl

theorem exec_planSelection {s : State} (hf : s.pins.powerFail = false) (hp : s.tank.phase = 0x06) :
    exec .planSelection s = .next (selectPlan s) := by
  show execPlanSelection s = _
  unfold execPlanSelection
  rw [if_neg (by simp [hf]), if_neg (by rw [hp]; decide), if_pos hp]

theorem planSelection_halts {s : State} (hw : s.pins.wrstUntil ≤ s.tank.clockUs) (hf : s.pins.powerFail = false) (hp : s.tank.phase = 0x06)
    (hb : bankOrder s = []) : ∃ t, exec .planSelection s = .next t ∧ t.tank = { s.tank with phase := 0xE0, haltReason := 3 } := by
  obtain ⟨hn, _, _⟩ := lateChecks_frame s
  obtain ⟨htank, hpins, _⟩ := hn.kept
  refine ⟨_, exec_planSelection hf hp, ?_⟩
  unfold selectPlan
  dsimp only
  rw [bankOrder_lateChecks_nil hb]
  generalize checkLate .b (checkLate .a s) = u at *
  unfold tryBanks
  obtain ⟨k, hr, hk⟩ := haltStart_rests (if false then 0xE1 else 0xE0) (if false then 4 else 3) { u with plans := { u.plans with forced := none } }
  obtain ⟨ht, _⟩ := hr.kept
  have hk := hk (.inl (by rw [← htank, ← hpins] at hw; exact hw))
  rw [← htank]
  exact ht.trans hk

theorem planSelection_enters {s : State} {k : Bank} {rest : List Bank} {p : Plan} {now : Nat} (hf : s.pins.powerFail = false)
    (hp : s.tank.phase = 0x06) (hb : bankOrder s = k :: rest) (hc : checkBank s k = .ok p)
    (hnow : now = (if s.tank.anchored then s.tank.minute.toNat else p.autoStart.toNat))
    (hadopt : p.adoptAt.toNat ≤ now ∨ s.plans.forced = some k) (hcompat : compat s p now true = none)
    (hadm : admission p s.retired = none) :
    ∃ u, exec .planSelection s = .next (enterPlan k p u) ∧ u.otp = s.otp := by
  obtain ⟨hn, _, _⟩ := lateChecks_frame s
  obtain ⟨l, hl⟩ := bankOrder_lateChecks_cons hb hc
  obtain ⟨htank, _, _, _, hotp, hret, hforced, _⟩ := hn.kept
  refine ⟨checkLate .b (checkLate .a s), ?_, hotp⟩
  rw [exec_planSelection hf hp]
  unfold selectPlan
  dsimp only
  rw [hl]
  have htry : tryBank k (checkLate .b (checkLate .a s)) = .inForce (enterPlan k p (checkLate .b (checkLate .a s))) := by
    unfold tryBank
    rw [hn.checkBank_eq, hc]
    dsimp only
    rw [htank, hforced, ← hnow, hn.compat_eq, hcompat, hret, hadm, if_neg]
    rcases hadopt with h | h
    · simp [Nat.not_lt.mpr h]
    · simp [h]
  unfold tryBanks
  rw [htry]

theorem serviceOpen_opens {s : State} (hw : s.pins.wrstUntil ≤ s.tank.clockUs) (hf : s.pins.powerFail = false) (hp : s.tank.phase = 0x07)
    (ha : s.tank.addr ≠ 0) (hanch : s.tank.anchored = true) (hplan : s.plans.plan.isSome = true)
    (hports : ∀ p < 16, (getPort s p).present = true → (getPort s p).trained = true) :
    ∃ t, exec .serviceOpen s = .next t ∧ t.tank = { s.tank with phase := 0x08, haltReason := 0 } ∧ t.regions = s.regions ∧
      t.dram = s.dram ∧ t.plans = s.plans := by
  have hready : serviceReady s = true := by
    have hall : (upTo 16).all (fun p => !(getPort s p).present || (getPort s p).trained) = true := by
      refine List.all_eq_true.mpr fun q hq => ?_
      have h := hports q (List.mem_range.mp hq)
      cases hpres : (getPort s q).present
      · rfl
      · simp [h hpres]
    unfold serviceReady
    rw [hall, hanch, hplan]
    simpa using ha
  obtain ⟨u, hu, hsend⟩ : ∃ u, u = forEach ((upTo 4).map (members s)).flatten announce (setPhase 0x08 0 s) ∧ Sends (setPhase 0x08 0 s) u :=
    ⟨_, rfl, forEach_relates .refl .trans (fun p t => (announce_sends p t).1) _ _⟩
  obtain ⟨hpins, htank, hkept⟩ : u.pins = s.pins ∧ u.tank = { s.tank with phase := 0x08, haltReason := 0 } ∧
      u.regions = s.regions ∧ u.dram = s.dram ∧ u.plans = s.plans := by
    obtain ⟨_, _, _, _, _, _, _, rfl⟩ := hsend
    exact ⟨rfl, rfl, rfl, rfl, rfl⟩
  have hend : endColdStart u = u := (endColdStart_rests u).2 (.inl (by rw [hpins, htank]; exact hw))
  refine ⟨u, ?_, htank, hkept⟩
  show execServiceOpen s = _
  unfold execServiceOpen
  rw [if_neg (by simp [hp, hready, hf])]
  dsimp only
  rw [← hu, hend]

/-- Settles O30: the bank checks, the two commands of the selection, and the opening of service, each by its own frame. -/
theorem planSelectionLeadsToService : Obligations.PlanSelectionLeadsToService := by
  unfold Obligations.PlanSelectionLeadsToService
  intro s hw hf
  refine ⟨planBankCheck_decides hw, planSelection_ready hf, planSelection_halts hw hf, fun k rest p now hp hb hc hnow had hcp hadm => ?_,
    serviceOpen_opens hw hf⟩
  obtain ⟨u, hexec, hotp⟩ := planSelection_enters hf hp hb hc hnow had hcp hadm
  obtain ⟨⟨hanch, hplan, hbank, hstate, hcells⟩, hphase, hports⟩ := enterPlan_frame k p u
  exact ⟨_, hexec, hphase, hanch, hplan, hbank, hstate, hcells.trans (congrArg Otp.cells hotp), hports⟩

end Sys2Proof.Safety

namespace Sys2Proof.Safety
open Sys2Proof.Machine

/-! ## The data ports

### Port counters (R81, R82) -/

/-- The port counter of index i stands as before. -/
def CountKept (p i : Nat) (s t : State) : Prop := Map.get 0 (p * 32 + i) t.ctr.port = Map.get 0 (p * 32 + i) s.ctr.port

theorem CountKept.trans {p i : Nat} {a b c : State} (h : CountKept p i a b) (h' : CountKept p i b c) : CountKept p i a c := Eq.trans h' h

theorem CountKept.of_ctr {p i : Nat} {s t : State} (h : t.ctr.port = s.ctr.port) : CountKept p i s t := by
  unfold CountKept
  rw [h]

theorem PortCounted.after {p i n : Nat} {a b c : State} (h : PortCounted p i n a b) (h' : CountKept p i b c) : PortCounted p i n a c :=
  Eq.trans h' h

theorem CountKept.counted {p i n : Nat} {a b c : State} (h : CountKept p i a b) (h' : PortCounted p i n b c) : PortCounted p i n a c := by
  unfold PortCounted at h' ⊢
  rw [h', h]

theorem Messages.ctr {s t : State} : Messages s t → t.ctr = s.ctr := by
  rintro ⟨_, _, _, _, rfl⟩
  rfl

/-- A count leaves a port's other counters as they were. -/
theorem portCount_other {i j : Nat} (h : j ≠ i) (p n : Nat) (s : State) : CountKept p j s (portCount p i n s) := by
  have hkey : p * 32 + j ≠ p * 32 + i := by omega
  unfold CountKept portCount
  dsimp only
  split
  · rw [(raise_messages _ _ _ _).ctr]
    exact Map.get_set_other _ _ hkey _ _
  · exact Map.get_set_other _ _ hkey _ _

/-! ### What frames that leave keep -/

theorem Flushes.kept {s t : State} : Flushes s t → Steady s t ∧ t.pins = s.pins ∧ t.qps = s.qps := by
  rintro ⟨_, _, _, _, _, _, _, _, _, _, _, _, _, _, rfl⟩
  exact ⟨⟨rfl, rfl, rfl⟩, rfl, rfl⟩

theorem Sends.kept {s t : State} : Sends s t → Steady s t ∧ t.pins = s.pins ∧ t.qps = s.qps ∧ t.dram = s.dram := by
  rintro ⟨_, _, _, _, _, _, _, rfl⟩
  exact ⟨⟨rfl, rfl, rfl⟩, rfl, rfl, rfl⟩

theorem PortCounts.dataSent {s t : State} : PortCounts s t → t.dataSent = s.dataSent := by
  rintro ⟨_, _, _, _, _, rfl⟩
  rfl

/-- What a frame leaves behind but for itself: counters 13 to 15 and 19 of its port, the tenants' counters, and what late tag results do
to their lines (R81, R125, R144). -/
structure Trails (p : Nat) (s t : State) : Prop where
  flushes : Flushes s t
  ports : t.ports = s.ports
  sent : t.dataSent = s.dataSent
  counts : ∀ i, i ≠ 13 → i ≠ 14 → i ≠ 15 → i ≠ 19 → CountKept p i s t

theorem Trails.refl (p : Nat) (s : State) : Trails p s s := ⟨.refl s, rfl, rfl, fun _ _ _ _ _ => rfl⟩

theorem Trails.trans {p : Nat} {a b c : State} (h : Trails p a b) (h' : Trails p b c) : Trails p a c :=
  ⟨h.flushes.trans h'.flushes, h'.ports.trans h.ports, h'.sent.trans h.sent,
    fun i h1 h2 h3 h4 => (h.counts i h1 h2 h3 h4).trans (h'.counts i h1 h2 h3 h4)⟩

theorem Trails.withSent {p : Nat} {s t : State} (h : Trails p s t) (d : List (Nat × Sent)) :
    Trails p { s with dataSent := d } { t with dataSent := d } := by
  obtain ⟨hf, hp, _, hc⟩ := h
  refine ⟨?_, hp, rfl, hc⟩
  obtain ⟨x, n, r, e, m, k, g, _, ps, j, i, st, cd, lr, rfl⟩ := hf
  exact ⟨x, n, r, e, m, k, g, d, ps, j, i, st, cd, lr, rfl⟩

theorem portCount_trails {i : Nat} (h : i ∈ [13, 14, 15, 19]) (p n : Nat) (s : State) : Trails p s (portCount p i n s) := by
  have hc := portCount_counts p i n s
  refine ⟨hc.sends.flushes, hc.ports, hc.dataSent, fun j h1 h2 h3 h4 => portCount_other ?_ p n s⟩
  simp only [List.mem_cons, List.not_mem_nil, or_false] at h
  omega

theorem Messages.trails {s t : State} (p : Nat) (h : Messages s t) : Trails p s t :=
  ⟨h.flushes, h.counts.ports, h.counts.dataSent, fun _ _ _ _ _ => .of_ctr (by rw [h.ctr])⟩

theorem tenantCount_trails (p tenant n add : Nat) (s : State) : Trails p s (tenantCount tenant n add s) := by
  have hset (x : Table Nat) (r : Records) : Trails p s { s with ctr := { s.ctr with tenant := x }, records := r } :=
    ⟨⟨x, s.ctr.chan, r, s.path.inCrypto, s.dram, s.skim, s.stats, .refl _⟩, rfl, rfl, fun _ _ _ _ _ => rfl⟩
  unfold tenantCount
  dsimp only
  split
  · exact (hset _ _).trans ((raise_messages _ _ _ _).trails p)
  · exact hset _ _

theorem chanCount_trails (p ch n add : Nat) (s : State) : Trails p s (chanCount ch n add s) := by
  have hset (x : Table Nat) : Trails p s { s with ctr := { s.ctr with chan := x } } :=
    ⟨⟨s.ctr.tenant, x, s.records, s.path.inCrypto, s.dram, s.skim, s.stats, .refl _⟩, rfl, rfl, fun _ _ _ _ _ => rfl⟩
  unfold chanCount
  dsimp only
  split
  · exact (hset _).trans ((raise_messages _ _ _ _).trails p)
  · exact hset _

/-! ### Late tag results (R144) -/

theorem putPoison_dram (line : Nat) (s : State) : ∃ m, putPoison line s = { s with dram := m } := ⟨_, rfl⟩

theorem putPoisonData_dram (ch loc : Nat) (s : State) : ∃ m, putPoisonData ch loc s = { s with dram := m } := by
  obtain ⟨m, hm⟩ := putPoison_dram (dataHome s ch loc) s
  unfold putPoisonData
  dsimp only
  rw [hm]
  split
  · obtain ⟨k, hk⟩ := putPoison_dram _ { s with dram := m }
    exact ⟨k, hk⟩
  · exact ⟨m, rfl⟩

theorem poisonFound_trails (p ch loc dma : Nat) (s : State) : Trails p s (poisonFound ch loc dma s) := by
  have hset (m : Dram) (k : Skim) : Trails p s { s with dram := m, skim := k } :=
    ⟨⟨s.ctr.tenant, s.ctr.chan, s.records, s.path.inCrypto, m, k, s.stats, .refl _⟩, rfl, rfl, fun _ _ _ _ _ => rfl⟩
  have hpoison : Trails p s (countPoison (putPoisonData ch loc s)) := by
    obtain ⟨m, hm⟩ := putPoisonData_dram ch loc s
    rw [hm]
    exact hset m _
  unfold poisonFound
  split
  · exact .refl p s
  · unfold countTenantAt
    split
    · exact hpoison.trans (tenantCount_trails p _ _ _ _)
    · exact hpoison

theorem tagFailure_trails (p ch loc dma : Nat) (s : State) : Trails p s (tagFailure ch loc dma s) := by
  unfold tagFailure tagMismatch
  rw [if_pos rfl]
  exact ((poisonFound_trails p ch loc dma s).trans (chanCount_trails p ch 4 1 _)).trans ((raise_messages _ _ _ _).trails p)

theorem lateTag_trails (p : Nat) (r : TagResult) (s : State) : Trails p s (lateTag r s) := by
  have hmark (c : Table (List CryptoEntry)) : Trails p s { s with path := { s.path with inCrypto := c } } :=
    ⟨⟨s.ctr.tenant, s.ctr.chan, s.records, c, s.dram, s.skim, s.stats, .refl _⟩, rfl, rfl, fun _ _ _ _ _ => rfl⟩
  have halarm (u : State) (g : Stats) : Trails p u { u with stats := g } :=
    ⟨⟨u.ctr.tenant, u.ctr.chan, u.records, u.path.inCrypto, u.dram, u.skim, g, .refl _⟩, rfl, rfl, fun _ _ _ _ _ => rfl⟩
  exact ((hmark _).trans (tagFailure_trails p _ _ _ _)).trans (halarm _ _)

/-! ### Handing a frame to the MAC (R63, R81) -/

/-- What a port sends when a frame of a priority leaves it. -/
def leaving (s : State) (p prio : Nat) (f : TxFrame) : Nat × Sent := (p, sentFrame ((ifaceOf s (p / 4)).getD noIface) prio (withFcs f))

/-- A frame handed to the MAC is the newest that has left. -/
theorem transmit_trails (p prio : Nat) (f : TxFrame) (s : State) :
    Trails p { s with dataSent := leaving s p prio f :: s.dataSent } (transmit p prio f s) := by
  have hlate : Trails p s (forEach (absentTags f) lateTag s) := forEach_relates (.refl p) .trans (lateTag_trails p) _ s
  unfold transmit
  extract_lets s0 s1 s2
  have h1 : Trails p { s with dataSent := leaving s p prio f :: s.dataSent } s1 := by
    refine Trails.trans ?_ (portCount_trails (by simp) p 1 _)
    have hs : leaving s p prio f :: s.dataSent = (p, sentFrame ((ifaceOf s (p / 4)).getD noIface) prio (withFcs f)) :: s0.dataSent := by
      rw [show s0.dataSent = s.dataSent from hlate.sent]
      rfl
    rw [hs]
    exact hlate.withSent _
  have h2 : Trails p { s with dataSent := leaving s p prio f :: s.dataSent } s2 := by
    dsimp only [s2]
    split
    · exact h1.trans (portCount_trails (by simp) p 1 _)
    · exact h1
  clear_value s2
  split
  · split
    · exact h2
    · exact h2.trans (tenantCount_trails p _ _ _ _)
  · exact h2.trans (portCount_trails (by simp) p 1 _)
  · exact h2.trans (portCount_trails (by simp) p 1 _)
  · exact h2.trans (portCount_trails (by simp) p 1 _)
  · exact h2

end Sys2Proof.Safety

namespace Sys2Proof.Safety
open Sys2Proof.Machine

/-! ### Sending (R70) -/

/-- A frame that waits for no tag result and counts for no tenant. -/
def plain : TxFrame → Bool
  | .rdma t => decide (t.tags = []) && decide (t.payload = [])
  | .stomped _ => false
  | _ => true

/-- A plain frame leaves with the counts of its port alone. -/
theorem transmit_plain {f : TxFrame} (hf : plain f = true) (p prio : Nat) (s : State) :
    PortCounts { s with dataSent := leaving s p prio f :: s.dataSent } (transmit p prio f s) := by
  have hcount (i : Nat) (u : State) := portCount_counts p i 1 u
  cases f with
  | rdma t =>
    simp only [plain, Bool.and_eq_true, decide_eq_true_eq] at hf
    obtain ⟨htags, hpay⟩ := hf
    unfold transmit
    simp only [absentTags, htags, hpay, List.filter_nil, or_true, Bool.or_eq_true, decide_true, if_true]
    split
    · exact (hcount 13 _).trans (hcount 14 _)
    · exact hcount 13 _
  | cnp d a m => exact (hcount 13 _).trans (hcount 15 _)
  | pfc b q => exact (hcount 13 _).trans (hcount 19 _)
  | stomped f => simp [plain] at hf
  | mad | arpReply | gratuitousArp | advertisement | unsolicitedAdvertisement | echoReply => exact hcount 13 _

theorem sendFrame_pfc {p : Nat} {s : State} (h : silent s p = false) (prio b : Nat) (q : BitVec 16) :
    sendFrame p prio (.pfc b q) s = transmit p prio (.pfc b q) s := by
  unfold sendFrame
  rw [h]
  rfl

/-- Where a frame goes that is no PFC frame (R70). -/
theorem sendFrame_eq {f : TxFrame} (hf : ∀ b q, f ≠ .pfc b q) (p prio : Nat) (s : State) : sendFrame p prio f s =
    if silent s p then s
    else if (getPort s p).discarding.getLsbD prio then portCount p 21 1 s
    else if (getPort s p).paused.getLsbD prio then
      setPort p { getPort s p with queue := (getPort s p).queue.filter (fun e => !sameCnp e.2 f) ++ [(prio, f)] } s
    else transmit p prio f s := by
  cases f
  case pfc b q => exact absurd rfl (hf b q)
  all_goals rfl

/-- A silent port sends nothing. -/
theorem sendFrame_silent {p : Nat} {s : State} (h : silent s p = true) (prio : Nat) (f : TxFrame) : sendFrame p prio f s = s := by
  unfold sendFrame
  rw [h]
  rfl

theorem setPort_sends (p : Nat) (v : Port) (s : State) : Sends s (setPort p v s) := ⟨_, _, (Messages.refl _).counts⟩

theorem transmit_flushes (p prio : Nat) (f : TxFrame) (s : State) : Flushes s (transmit p prio f s) :=
  Flushes.trans (Sends.flushes ⟨_, _, (Messages.refl _).counts⟩) (transmit_trails p prio f s).flushes

theorem transmit_sends {f : TxFrame} (hf : plain f = true) (p prio : Nat) (s : State) : Sends s (transmit p prio f s) :=
  ⟨_, _, transmit_plain hf p prio s⟩

/-- A relation that holds of a count, of a record's change and of a frame's leaving holds of what sending does. -/
theorem sendFrame_relates {R : State → State → Prop} {p prio : Nat} {f : TxFrame} {s : State} (refl : R s s)
    (count : R s (portCount p 21 1 s))
    (queue : R s (setPort p { getPort s p with queue := (getPort s p).queue.filter (fun e => !sameCnp e.2 f) ++ [(prio, f)] } s))
    (leave : R s (transmit p prio f s)) : R s (sendFrame p prio f s) := by
  by_cases hpfc : ∃ b q, f = .pfc b q
  · obtain ⟨b, q, rfl⟩ := hpfc
    cases h : silent s p with
    | true => rw [sendFrame_silent h]; exact refl
    | false => rw [sendFrame_pfc h]; exact leave
  · rw [sendFrame_eq (fun b q h => hpfc ⟨b, q, h⟩)]
    split
    · exact refl
    · split
      · exact count
      · split
        · exact queue
        · exact leave

theorem sendFrame_sends {f : TxFrame} (hf : plain f = true) (p prio : Nat) (s : State) : Sends s (sendFrame p prio f s) :=
  sendFrame_relates (.refl s) (portCount_counts _ _ _ _).sends (setPort_sends p _ s) (transmit_sends hf p prio s)

theorem sendFrame_flushes (p prio : Nat) (f : TxFrame) (s : State) : Flushes s (sendFrame p prio f s) :=
  sendFrame_relates (.refl s) (portCount_counts _ _ _ _).sends.flushes (setPort_sends p _ s).flushes
    (transmit_flushes p prio f s)

/-- A frame sent on a port that can send leaves at once, or waits behind its paused priority (R70). -/
theorem sendFrame_leaves {f : TxFrame} (hf : ∀ b q, f ≠ .pfc b q) {p prio : Nat} {s : State} (hs : silent s p = false)
    (hd : (getPort s p).discarding.getLsbD prio = false) :
    ((getPort s p).paused.getLsbD prio = false → (sendFrame p prio f s).dataSent = leaving s p prio f :: s.dataSent) ∧
    ((getPort s p).paused.getLsbD prio = true → (prio, f) ∈ (getPort (sendFrame p prio f s) p).queue) := by
  rw [sendFrame_eq hf]
  constructor <;> intro hp
  · simp only [hs, hd, hp, Bool.false_eq_true, if_false]
    exact (transmit_trails p prio f s).sent
  · simp [hs, hd, hp]

theorem leaving_iface {s : State} {p : Nat} {i : Iface} (hi : ifaceOf s (p / 4) = some i) (prio : Nat) (f : TxFrame) :
    leaving s p prio f = (p, sentFrame i prio (withFcs f)) := by
  unfold leaving
  rw [hi]
  rfl

theorem sendFrame_departs {f : TxFrame} (hf : ∀ b q, f ≠ .pfc b q) {p : Nat} {s : State} {i : Iface} (hi : ifaceOf s (p / 4) = some i)
    (prio : Nat) : Departs p prio i f s (sendFrame p prio f s) := by
  intro hs hd
  obtain ⟨hnow, hwait⟩ := sendFrame_leaves hf hs hd
  refine ⟨fun hp => ?_, hwait⟩
  rw [hnow hp, leaving_iface hi]
  exact List.mem_cons_self

theorem sendFrame_emitted {f : TxFrame} (hf : ∀ b q, f ≠ .pfc b q) (hfcs : withFcs f = f) {p : Nat} {s : State} {i : Iface}
    (hi : ifaceOf s (p / 4) = some i) (prio : Nat) : Emitted p prio i f s (sendFrame p prio f s) := by
  intro hs hd
  obtain ⟨hnow, hwait⟩ := sendFrame_leaves hf hs hd
  refine ⟨fun hp => ?_, hwait⟩
  rw [hnow hp, leaving_iface hi, hfcs]

end Sys2Proof.Safety

namespace Sys2Proof.Safety
open Sys2Proof.Machine

/-! ### Queued frames leave (R70) -/

theorem leaving_congr {s t : State} (h : t.plans = s.plans) (p prio : Nat) (f : TxFrame) : leaving t p prio f = leaving s p prio f := by
  unfold leaving ifaceOf
  rw [h]

/-- Whether a port is silent depends on its link, its quiescing, the supplies and the phase (R35, R67, R340). -/
theorem silent_congr {p : Nat} {s t : State} (hu : (getPort t p).up = (getPort s p).up) (hq : (getPort t p).quiesced = (getPort s p).quiesced)
    (hd : (getPort t p).draining = (getPort s p).draining) (hp : t.pins = s.pins) (ht : t.tank = s.tank) : silent t p = silent s p := by
  unfold silent
  simp only [hu, hq, hd, hp, ht]

/-- Frames handed to the MAC one after the other. -/
def transmitAll (p : Nat) (l : List (Nat × TxFrame)) (s : State) : State := forEach l (fun e t => transmit p e.1 e.2 t) s

theorem transmitAll_frame (p : Nat) (l : List (Nat × TxFrame)) (s : State) : Flushes s (transmitAll p l s) ∧
    (transmitAll p l s).ports = s.ports ∧ CountKept p 18 s (transmitAll p l s) ∧ s.dataSent ⊆ (transmitAll p l s).dataSent ∧
    ∀ e ∈ l, leaving s p e.1 e.2 ∈ (transmitAll p l s).dataSent := by
  induction l generalizing s with
  | nil => exact ⟨.refl s, rfl, rfl, List.Subset.refl _, by simp⟩
  | cons e l ih =>
    have hstep := transmit_trails p e.1 e.2 s
    obtain ⟨hf, hp, hc, hs, hl⟩ := ih (transmit p e.1 e.2 s)
    have hfirst := transmit_flushes p e.1 e.2 s
    have hsent : leaving s p e.1 e.2 :: s.dataSent ⊆ (transmitAll p (e :: l) s).dataSent := fun x hx => hs (by rw [hstep.sent]; exact hx)
    refine ⟨hfirst.trans hf, hp.trans hstep.ports, CountKept.trans (hstep.counts 18 (by decide) (by decide) (by decide) (by decide)) hc,
      fun x hx => hsent (List.mem_cons_of_mem _ hx), fun x hx => ?_⟩
    rcases List.mem_cons.mp hx with rfl | hx
    · exact hsent List.mem_cons_self
    · rw [← leaving_congr hfirst.kept.1.plans]
      exact hl x hx

/-- What pauses and resumptions leave of a port: what frames that leave do not touch, whether it can send, and the count of PFC frames
received; what has left stays. -/
structure PfcKeeps (p : Nat) (s t : State) : Prop where
  flushes : Flushes s t
  silent : silent t p = silent s p
  count : CountKept p 18 s t
  sent : s.dataSent ⊆ t.dataSent

theorem PfcKeeps.refl (p : Nat) (s : State) : PfcKeeps p s s := ⟨.refl s, rfl, rfl, List.Subset.refl _⟩

theorem PfcKeeps.trans {p : Nat} {a b c : State} (h : PfcKeeps p a b) (h' : PfcKeeps p b c) : PfcKeeps p a c :=
  ⟨h.flushes.trans h'.flushes, h'.silent.trans h.silent, h.count.trans h'.count, fun _ hx => h'.sent (h.sent hx)⟩

theorem PfcKeeps.plans {p : Nat} {s t : State} (h : PfcKeeps p s t) : t.plans = s.plans := h.flushes.kept.1.plans

/-- A change of a port's record that leaves its link and its quiescing alone. -/
theorem setPort_pfcKeeps {p : Nat} {v : Port} {s : State} (hu : v.up = (getPort s p).up) (hq : v.quiesced = (getPort s p).quiesced)
    (hd : v.draining = (getPort s p).draining) : PfcKeeps p s (setPort p v s) :=
  ⟨(setPort_sends p v s).flushes, silent_congr (by rw [getPort_set_same, hu]) (by rw [getPort_set_same, hq]) (by rw [getPort_set_same, hd]) rfl rfl,
    rfl, List.Subset.refl _⟩

/-- The queued frames of a priority leave a port that can send, and nothing else of its record changes (R70). -/
theorem flushPrio_frame (p b : Nat) (s : State) : PfcKeeps p s (flushPrio p b s) ∧
    ∃ l, getPort (flushPrio p b s) p = { getPort s p with queue := l } ∧ (silent s p = true → l = (getPort s p).queue) ∧
      (silent s p = false → l = (getPort s p).queue.filter (fun e => e.1 ≠ b) ∧
        ∀ e ∈ (getPort s p).queue, e.1 = b → leaving s p b e.2 ∈ (flushPrio p b s).dataSent) := by
  cases hs : silent s p with
  | true =>
    have hsame : flushPrio p b s = s := by
      unfold flushPrio
      rw [hs]
      rfl
    rw [hsame]
    exact ⟨.refl p s, _, rfl, fun _ => rfl, fun h => absurd h (by simp)⟩
  | false =>
    obtain ⟨u, hu⟩ : ∃ u, u = setPort p { getPort s p with queue := (getPort s p).queue.filter (fun e => e.1 ≠ b) } s := ⟨_, rfl⟩
    have hflush : flushPrio p b s = transmitAll p ((getPort s p).queue.filter (fun e => e.1 = b)) u := by
      unfold flushPrio
      rw [hs, hu]
      rfl
    have hset : PfcKeeps p s u := by
      rw [hu]
      exact setPort_pfcKeeps rfl rfl rfl
    have hport : getPort u p = { getPort s p with queue := (getPort s p).queue.filter (fun e => e.1 ≠ b) } := by
      rw [hu, getPort_set_same]
    obtain ⟨hf, hports, hc, hsub, hl⟩ := transmitAll_frame p ((getPort s p).queue.filter (fun e => e.1 = b)) u
    rw [← hflush] at hf hports hc hsub hl
    have hsame : getPort (flushPrio p b s) p = getPort u p := by
      unfold getPort
      rw [hports]
    obtain ⟨hsteady, hpins, _⟩ := hf.kept
    refine ⟨hset.trans ⟨hf, silent_congr (by rw [hsame]) (by rw [hsame]) (by rw [hsame]) hpins hsteady.tank, hc, hsub⟩,
      _, hsame.trans hport, fun h => absurd h (by simp), fun _ => ⟨rfl, fun e he hb => ?_⟩⟩
    have := hl e (List.mem_filter.mpr ⟨he, by simpa using hb⟩)
    rwa [leaving_congr hset.plans, hb] at this

/-! ### Pauses of the partner (R70) -/

theorem getLsbD_bit8_other {n j : Nat} (h : j ≠ n) : (1#8 <<< n).getLsbD j = false := by
  have : j < 8 → n ≤ j → j - n ≠ 0 := by omega
  simpa [BitVec.getLsbD_shiftLeft, BitVec.getLsbD_one] using this

theorem getLsbD_setBit8_other (b : Byte) {n j : Nat} (h : j ≠ n) : (setBit8 b n).getLsbD j = b.getLsbD j := by
  rw [setBit8, BitVec.getLsbD_or, getLsbD_bit8_other h, Bool.or_false]

theorem getLsbD_clearBit8_other (b : Byte) {n j : Nat} (h : j ≠ n) : (clearBit8 b n).getLsbD j = b.getLsbD j := by
  rw [clearBit8, BitVec.getLsbD_and, BitVec.getLsbD_not, getLsbD_bit8_other h]
  by_cases hj : j < 8
  · simp [hj]
  · simp [BitVec.getLsbD_of_ge b j (by omega)]

/-- A priority resumes: it is no longer paused nor discarded, and what it has queued leaves (R70). -/
def resumePrio (p b : Nat) (s : State) : State :=
  flushPrio p b (setPort p { getPort s p with paused := clearBit8 (getPort s p).paused b, discarding := clearBit8 (getPort s p).discarding b } s)

/-- A priority of a port is paused as before, with the same frames queued. -/
def PrioKept (p b : Nat) (s t : State) : Prop :=
  (getPort t p).paused.getLsbD b = (getPort s p).paused.getLsbD b ∧
    (getPort t p).queue.filter (fun e => e.1 = b) = (getPort s p).queue.filter (fun e => e.1 = b)

/-- What a port has queued for a priority leaves when the port can send. -/
def PrioLeaves (p b : Nat) (s t : State) : Prop :=
  silent s p = false → ∀ e ∈ (getPort s p).queue, e.1 = b → leaving s p b e.2 ∈ t.dataSent

/-- The frames of a priority are those of its queue, wherever they stand in the port's. -/
theorem PrioLeaves.congr {p b : Nat} {s u t : State} (hk : PfcKeeps p s u) (hq : PrioKept p b s u) (h : PrioLeaves p b u t) :
    PrioLeaves p b s t := by
  intro hs e he hb
  have hmem : e ∈ (getPort u p).queue.filter (fun e => e.1 = b) := by
    rw [hq.2]
    exact List.mem_filter.mpr ⟨he, by simpa using hb⟩
  rw [← leaving_congr hk.plans]
  exact h (hk.silent.trans hs) e (List.mem_of_mem_filter hmem) hb

theorem resumePrio_frame (p b : Nat) (s : State) : PfcKeeps p s (resumePrio p b s) ∧ PrioLeaves p b s (resumePrio p b s) ∧
    (getPort (resumePrio p b s) p).paused = clearBit8 (getPort s p).paused b ∧ (∀ j, j ≠ b → PrioKept p j s (resumePrio p b s)) ∧
    (silent s p = false → (getPort (resumePrio p b s) p).queue = (getPort s p).queue.filter (fun e => e.1 ≠ b)) := by
  unfold resumePrio
  obtain ⟨u, hu⟩ : ∃ u, u = setPort p { getPort s p with
    paused := clearBit8 (getPort s p).paused b, discarding := clearBit8 (getPort s p).discarding b } s := ⟨_, rfl⟩
  have hset : PfcKeeps p s u := by
    rw [hu]
    exact setPort_pfcKeeps rfl rfl rfl
  have hqueue : (getPort u p).queue = (getPort s p).queue := by rw [hu, getPort_set_same]
  have hpaused : (getPort u p).paused = clearBit8 (getPort s p).paused b := by rw [hu, getPort_set_same]
  rw [← hu]
  obtain ⟨hk, l, hl, hquiet, hsend⟩ := flushPrio_frame p b u
  rw [hqueue, hset.silent] at hsend
  rw [hqueue, hset.silent] at hquiet
  rw [hl]
  refine ⟨hset.trans hk, fun hs e he hb => ?_, hpaused, fun j hj => ⟨?_, ?_⟩, fun hs => (hsend hs).1⟩
  · rw [← leaving_congr hset.plans]
    exact (hsend hs).2 e he hb
  · rw [hl, hpaused, getLsbD_clearBit8_other _ hj]
  · rw [hl]
    cases hs : silent s p with
    | true => rw [hquiet hs]
    | false =>
      rw [(hsend hs).1, List.filter_filter]
      refine List.filter_congr fun e _ => ?_
      by_cases h : e.1 = j <;> simp [h, hj]

/-- One step of PFC_RECEIVE: an enabled priority is paused, or resumes (R70). -/
def takePause (p : Nat) (enable : Byte) (quanta : List W16) (b : Nat) (s : State) : State :=
  if !enable.getLsbD b then s
  else if (quanta[b]?).getD 0 ≠ 0 then setPort p { getPort s p with paused := setBit8 (getPort s p).paused b } s
  else resumePrio p b s

/-- What a PFC frame does to a priority of the port (R70). -/
def PauseTaken (p : Nat) (enable : Byte) (quanta : List W16) (b : Nat) (s t : State) : Prop :=
  (enable.getLsbD b = false → (getPort t p).paused.getLsbD b = (getPort s p).paused.getLsbD b) ∧
  (enable.getLsbD b = true → (quanta[b]?).getD 0 ≠ 0 → (getPort t p).paused.getLsbD b = true) ∧
  (enable.getLsbD b = true → (quanta[b]?).getD 0 = 0 → (getPort t p).paused.getLsbD b = false ∧ PrioLeaves p b s t)

theorem takePause_frame (p : Nat) (enable : Byte) (quanta : List W16) (b : Nat) (s : State) :
    PfcKeeps p s (takePause p enable quanta b s) ∧ (∀ j, j ≠ b → PrioKept p j s (takePause p enable quanta b s)) ∧
    (b < 8 → PauseTaken p enable quanta b s (takePause p enable quanta b s)) := by
  unfold takePause
  cases he : enable.getLsbD b with
  | false => exact ⟨.refl p s, fun _ _ => ⟨rfl, rfl⟩, fun _ => ⟨fun _ => rfl, by simp [he], by simp [he]⟩⟩
  | true =>
    by_cases hq : (quanta[b]?).getD 0 = 0
    · obtain ⟨hk, hleave, hpaused, hother, _⟩ := resumePrio_frame p b s
      simp only [hq, Bool.not_true, Bool.false_eq_true, if_false, ne_eq, not_true_eq_false]
      refine ⟨hk, hother, fun _ => ⟨by simp [he], fun _ h => absurd hq h, fun _ _ => ⟨?_, hleave⟩⟩⟩
      rw [hpaused, getLsbD_clearBit8]
    · simp only [hq, Bool.not_true, Bool.false_eq_true, if_false, ne_eq, not_false_eq_true, if_true]
      refine ⟨setPort_pfcKeeps rfl rfl rfl, fun j hj => ⟨?_, ?_⟩, fun hb => ⟨by simp [he], fun _ _ => ?_, fun _ h => absurd h hq⟩⟩
      · rw [getPort_set_same, getLsbD_setBit8_other _ hj]
      · rw [getPort_set_same]
      · rw [getPort_set_same]
        exact getLsbD_setBit8 _ ⟨b, hb⟩

theorem PauseTaken.later {p : Nat} {enable : Byte} {quanta : List W16} {b : Nat} {s u t : State} (h : PauseTaken p enable quanta b s u)
    (hk : PfcKeeps p u t) (hb : PrioKept p b u t) : PauseTaken p enable quanta b s t := by
  obtain ⟨hoff, hpause, hresume⟩ := h
  refine ⟨fun he => hb.1.trans (hoff he), fun he hq => hb.1.trans (hpause he hq), fun he hq => ?_⟩
  obtain ⟨hclear, hleave⟩ := hresume he hq
  exact ⟨hb.1.trans hclear, fun hs e hm h => hk.sent (hleave hs e hm h)⟩

theorem PauseTaken.earlier {p : Nat} {enable : Byte} {quanta : List W16} {b : Nat} {s u t : State} (hk : PfcKeeps p s u)
    (hb : PrioKept p b s u) (h : PauseTaken p enable quanta b u t) : PauseTaken p enable quanta b s t := by
  obtain ⟨hoff, hpause, hresume⟩ := h
  refine ⟨fun he => (hoff he).trans hb.1, hpause, fun he hq => ?_⟩
  obtain ⟨hclear, hleave⟩ := hresume he hq
  exact ⟨hclear, hleave.congr hk hb⟩

/-- Each priority of a PFC frame takes its own pause; the steps of the others leave it alone. -/
theorem takePauses_frame (p : Nat) (enable : Byte) (quanta : List W16) {l : List Nat} (hl : l.Nodup) (s : State) :
    PfcKeeps p s (forEach l (takePause p enable quanta) s) ∧
    (∀ b ∈ l, b < 8 → PauseTaken p enable quanta b s (forEach l (takePause p enable quanta) s)) ∧
    ∀ b ∉ l, PrioKept p b s (forEach l (takePause p enable quanta) s) := by
  unfold forEach
  induction l generalizing s with
  | nil => exact ⟨.refl p s, by simp, fun _ _ => ⟨rfl, rfl⟩⟩
  | cons j l ih =>
    obtain ⟨hj, hl⟩ := List.nodup_cons.mp hl
    obtain ⟨hk, hother, hown⟩ := takePause_frame p enable quanta j s
    obtain ⟨hks, hin, hout⟩ := ih hl (takePause p enable quanta j s)
    rw [List.foldl_cons]
    refine ⟨hk.trans hks, fun b hb h8 => ?_, fun b hb => ?_⟩
    · rcases List.mem_cons.mp hb with rfl | hb
      · exact (hown h8).later hks (hout _ hj)
      · exact (hin b hb h8).earlier hk (hother b fun h => hj (h ▸ hb))
    · have hbj := hother b fun h => hb (h ▸ List.mem_cons_self)
      have hbl := hout b fun h => hb (List.mem_cons_of_mem _ h)
      exact ⟨hbl.1.trans hbj.1, hbl.2.trans hbj.2⟩

end Sys2Proof.Safety

namespace Sys2Proof.Safety
open Sys2Proof.Machine

/-! ### PFC commands (R69, R70, R192) -/

theorem pfcReceive_takes {port : Fin 16} {s : State} (enable : Byte) (quanta : List W16) (hu : (getPort s port.val).up = true) :
    ∃ t, exec (.pfcReceive port enable quanta) s = .next t ∧ Flushes s t ∧ PortCounted port.val 18 1 s t ∧
      ∀ b < 8, PauseTaken port.val enable quanta b s t := by
  have hcount := portCount_counts port.val 18 1 s
  obtain ⟨u, hu'⟩ : ∃ u, u = portCount port.val 18 1 s := ⟨_, rfl⟩
  obtain ⟨hk, hin, _⟩ := takePauses_frame port.val enable quanta (l := upTo 8) List.nodup_range u
  have hport : getPort u port.val = getPort s port.val := by
    unfold getPort
    rw [hu', hcount.ports]
  refine ⟨forEach (upTo 8) (takePause port.val enable quanta) u, ?_, ?_, ?_, fun b hb => ?_⟩
  · show execPfcReceive port enable quanta s = _
    unfold execPfcReceive
    simp only [hu, Bool.not_true, Bool.false_eq_true, if_false, hu']
    rfl
  · rw [← hu'] at hcount
    exact hcount.sends.flushes.trans hk.flushes
  · exact PortCounted.after (hu' ▸ portCount_counted port.val 18 1 s) hk.count
  · rw [← hu'] at hcount
    obtain ⟨hsteady, hpins, _⟩ := hcount.sends.kept
    obtain ⟨hoff, hpause, hresume⟩ := hin b (List.mem_range.mpr hb) hb
    have hsilent : silent u port.val = silent s port.val :=
      silent_congr (by rw [hport]) (by rw [hport]) (by rw [hport]) hpins hsteady.tank
    rw [hport] at hoff
    refine ⟨hoff, hpause, fun he hq => ⟨(hresume he hq).1, fun hs e hm h => ?_⟩⟩
    rw [← leaving_congr hsteady.plans]
    exact (hresume he hq).2 (hsilent.trans hs) e (hport ▸ hm) h

theorem pfcWatchdog_discards {port : Fin 16} {b : Fin 8} {s : State} (hp : (getPort s port.val).paused.getLsbD b.val = true) :
    ∃ t, exec (.pfcWatchdog port b) s = .next t ∧ Sends s t ∧ (getPort t port.val).discarding.getLsbD b.val = true ∧
      (getPort t port.val).queue = (getPort s port.val).queue.filter (fun e => e.1 ≠ b.val) ∧
      PortCounted port.val 21 ((getPort s port.val).queue.filter (fun e => e.1 = b.val)).length s t := by
  obtain ⟨u, hu⟩ : ∃ u, u = setPort port.val { getPort s port.val with
      queue := (getPort s port.val).queue.filter (fun e => e.1 ≠ b.val),
      discarding := setBit8 (getPort s port.val).discarding b.val } s := ⟨_, rfl⟩
  have hcount := portCount_counts port.val 21 ((getPort s port.val).queue.filter (fun e => e.1 = b.val)).length u
  obtain ⟨t, ht⟩ : ∃ t, t = portCount port.val 21 ((getPort s port.val).queue.filter (fun e => e.1 = b.val)).length u := ⟨_, rfl⟩
  have hport : getPort t port.val = getPort u port.val := by
    unfold getPort
    rw [ht, hcount.ports]
  have hsends : Sends s u := hu ▸ setPort_sends _ _ s
  have hkept : CountKept port.val 21 s u := .of_ctr (by rw [hu]; rfl)
  refine ⟨t, ?_, ht ▸ hsends.trans hcount.sends, ?_, ?_, hkept.counted (ht ▸ portCount_counted _ _ _ _)⟩
  · show execPfcWatchdog port b s = _
    unfold execPfcWatchdog
    simp only [hp, Bool.not_true, Bool.false_eq_true, if_false, ht, hu]
  · rw [hport, hu, getPort_set_same]
    exact getLsbD_setBit8 _ b
  · rw [hport, hu, getPort_set_same]

/-- A PFC frame leaves a port that can send, whatever is paused, and is counted as one (R69, R81). -/
theorem sendFrame_pfc_frame {p : Nat} {s : State} {i : Iface} (hs : silent s p = false) (hi : ifaceOf s (p / 4) = some i) (prio b : Nat)
    (q : BitVec 16) : PortCounted p 19 1 s (sendFrame p prio (.pfc b q) s) ∧
      PortCounts { s with dataSent := (p, sentFrame i prio (.pfc b q)) :: s.dataSent } (sendFrame p prio (.pfc b q) s) := by
  have hplain := transmit_plain (f := .pfc b q) rfl p prio s
  rw [leaving_iface hi] at hplain
  rw [sendFrame_pfc hs]
  refine ⟨?_, hplain⟩
  obtain ⟨u, hu⟩ : ∃ u, u = { s with dataSent := leaving s p prio (.pfc b q) :: s.dataSent } := ⟨_, rfl⟩
  have hkept : CountKept p 19 s u := .of_ctr (by rw [hu])
  have heq : transmit p prio (.pfc b q) s = portCount p 19 1 (portCount p 13 1 u) := by
    rw [hu]
    rfl
  rw [heq]
  exact (hkept.trans (portCount_other (i := 13) (by decide) p 1 u)).counted (portCount_counted p 19 1 _)

theorem pfcXoffRepeat_repeats {port : Fin 16} {b : Fin 8} {s : State} {i : Iface} (hi : ifaceOf s (port.val / 4) = some i)
    (hp : (getPort s port.val).pausing.getLsbD b.val = true)
    (hx : xoffShare s (port.val / 4) ≤ Map.get 0 b.val (getPort s port.val).use + 8704) (hs : silent s port.val = false) :
    ∃ t, exec (.pfcXoffRepeat port b) s = .next t ∧ PortCounted port.val 19 1 s t ∧
      PortCounts { s with dataSent := (port.val, sentFrame i b.val (.pfc b.val 0xFFFF)) :: s.dataSent } t := by
  refine ⟨_, ?_, sendFrame_pfc_frame hs hi b.val b.val 0xFFFF⟩
  show execPfcXoffRepeat port b s = _
  unfold execPfcXoffRepeat
  simp only [hp, hx, decide_true, Bool.and_self, if_true]

/-- Sending a PFC frame changes no port's record. -/
theorem sendFrame_pfc_ports (p prio b : Nat) (q : BitVec 16) (s : State) : (sendFrame p prio (.pfc b q) s).ports = s.ports := by
  cases hs : silent s p with
  | true => rw [sendFrame_silent hs]
  | false =>
    rw [sendFrame_pfc hs]
    exact (transmit_trails p prio _ s).ports

theorem pfcXon_frees {port : Fin 16} {b : Fin 8} {s : State} {i : Iface} (hi : ifaceOf s (port.val / 4) = some i) (freed : Nat) {use u : Nat}
    (huse : use = Map.get 0 b.val (getPort s port.val).use) (hu : u = max (use - freed) (min use (heldBytes s port.val b.val))) :
    ∃ t, exec (.pfcXon port b freed) s = .next t ∧ Sends s t ∧ Map.get 0 b.val (getPort t port.val).use = u ∧
      ((getPort s port.val).pausing.getLsbD b.val = true → u + 8704 < xoffShare s (port.val / 4) →
        (getPort t port.val).pausing.getLsbD b.val = false ∧
        (silent s port.val = false → t.dataSent = (port.val, sentFrame i b.val (.pfc b.val 0)) :: s.dataSent)) := by
  have hexec : exec (.pfcXon port b freed) s = execPfcXon port b freed s := rfl
  rw [hexec]
  unfold execPfcXon
  simp only [← huse, ← hu, Bool.and_eq_true, decide_eq_true_eq]
  split
  · next h =>
    obtain ⟨v, hv⟩ : ∃ v : Port, v = { getPort s port.val with
      use := Map.set 0 b.val u (getPort s port.val).use, pausing := clearBit8 (getPort s port.val).pausing b.val } := ⟨_, rfl⟩
    have hset := setPort_sends port.val v s
    have hport : getPort (sendFrame port.val b.val (.pfc b.val 0) (setPort port.val v s)) port.val = v := by
      unfold getPort
      rw [sendFrame_pfc_ports]
      exact getPort_set_same s port.val v
    refine ⟨_, congrArg (fun v => Host.Outcome.next (sendFrame port.val b.val (.pfc b.val 0) (setPort port.val v s))) hv.symm,
      hset.trans (sendFrame_sends rfl _ _ _), ?_, fun _ _ => ⟨?_, fun hs => ?_⟩⟩
    · rw [hport, hv, Map.get_set_same]
    · rw [hport, hv, getLsbD_clearBit8]
    · have hsilent : silent (setPort port.val v s) port.val = false := by
        rw [← hs]
        exact (setPort_pfcKeeps (by rw [hv]) (by rw [hv]) (by rw [hv])).silent
      exact (sendFrame_pfc_frame (s := setPort port.val v s) hsilent hi b.val b.val 0).2.dataSent
  · next h =>
    refine ⟨_, rfl, setPort_sends _ _ s, ?_, fun hp hx => absurd ⟨hp, hx⟩ h⟩
    rw [getPort_set_same, Map.get_set_same]

/-- Settles O39: a PFC frame takes effect priority by priority, a pause that expires resumes its priority, and the frames of XOFF and XON
are sent past every pause. -/
theorem pausesHoldPriorities : Obligations.PausesHoldPriorities := by
  unfold Obligations.PausesHoldPriorities
  rintro port s p i rfl hi
  refine ⟨fun enable quanta hu => ?_, fun b => ⟨?_, pfcWatchdog_discards, pfcXoffRepeat_repeats hi, fun freed use u => pfcXon_frees hi freed⟩⟩
  · obtain ⟨t, ht, hf, hc, htaken⟩ := pfcReceive_takes enable quanta hu
    refine ⟨t, ht, hf, hc, fun b hb => ?_⟩
    obtain ⟨hoff, hpause, hresume⟩ := htaken b hb
    refine ⟨hoff, hpause, fun he hq => ⟨(hresume he hq).1, fun hs e hm h => ?_⟩⟩
    rw [← leaving_iface hi]
    exact (hresume he hq).2 hs e hm h
  · obtain ⟨hk, hleave, hpaused, _, hqueue⟩ := resumePrio_frame port.val b.val s
    refine ⟨resumePrio port.val b.val s, rfl, hk.flushes, ?_, fun hs => ⟨fun e hm h => ?_, hqueue hs⟩⟩
    · rw [hpaused, getLsbD_clearBit8]
    · rw [← leaving_iface hi]
      exact hleave hs e hm h

end Sys2Proof.Safety

namespace Sys2Proof.Safety
open Sys2Proof.Machine

/-! ### The slow path (R73) -/

theorem Sends.slow {s t : State} : Sends s t → t.slow = s.slow := by
  rintro ⟨_, _, _, _, _, _, _, rfl⟩
  rfl

/-- The core takes a frame out of a reserve, and nothing else changes. -/
theorem takeReserve_frame (q : Nat) (s : State) : ∃ r, takeReserve q s = { s with slow := { s.slow with reserve := r } } := by
  unfold takeReserve
  split
  · exact ⟨_, rfl⟩
  · exact ⟨s.slow.reserve, rfl⟩

theorem ifaceOf_takeReserve (r q : Nat) (s : State) : ifaceOf (takeReserve q s) r = ifaceOf s r := by
  obtain ⟨_, h⟩ := takeReserve_frame q s
  rw [h]
  rfl

theorem slowPath_open {p : Nat} {s : State} (hc : coreRuns s = true) (ho : slowOpen s p = true) (act : State → State) :
    slowPath p act s = act (takeReserve (p / 4) s) := by
  unfold slowPath
  rw [hc, ho]
  rfl

theorem slowPath_closed {p : Nat} {s : State} (hc : coreRuns s = true) (ho : slowOpen s p = false) (act : State → State) :
    slowPath p act s = takeReserve (p / 4) s := by
  unfold slowPath
  rw [hc, ho]
  rfl

theorem sendControl_iface {q : Nat} {s : State} {i : Iface} (hi : ifaceOf s q = some i) (p : Nat) (f : TxFrame) :
    sendControl q p f s = sendFrame p i.controlPrio f s := by
  unfold sendControl
  rw [hi]

/-- A request that is answered leaves its reserve, and the answer goes out with the control priority (R70, R73). -/
theorem sendControl_answers {f : TxFrame} (hf : ∀ b q, f ≠ .pfc b q) (hfcs : withFcs f = f) (hp : plain f = true) {p : Nat} {s : State}
    {i : Iface} (hi : ifaceOf s (p / 4) = some i) :
    Emitted p i.controlPrio i f s (sendControl (p / 4) p f s) ∧ Sends s (sendControl (p / 4) p f s) := by
  rw [sendControl_iface hi]
  exact ⟨sendFrame_emitted hf hfcs hi _, sendFrame_sends hp _ _ s⟩

section
variable {port : Fin 16} {s : State} {i : Iface} (hc : coreRuns s = true) (ho : slowOpen s port.val = true)
  (hi : ifaceOf (takeReserve (port.val / 4) s) (port.val / 4) = some i)
include hc ho hi

theorem arpRequest_answered {q : AddrQuery} (hv : i.hasV4 = true) (hq : q.target = .v4 i.v4) : exec (.arpRequest port q) s =
    .next (sendControl (port.val / 4) port.val (.arpReply q.srcMac q.srcIp) (takeReserve (port.val / 4) s)) := by
  show execArpRequest port q s = _
  unfold execArpRequest
  rw [slowPath_open hc ho, hi]
  simp only [hv, hq, and_self, if_true]

theorem neighbourSolicitation_answered {q : AddrQuery} (hv : i.hasV6 = true) (hq : q.target = .v6 i.v6) :
    exec (.neighbourSolicitation port q) s = .next (sendControl (port.val / 4) port.val (.advertisement q.srcMac q.srcIp q.target)
      (takeReserve (port.val / 4) s)) := by
  show execNeighbourSolicitation port q s = _
  unfold execNeighbourSolicitation
  rw [slowPath_open hc ho, hi]
  simp only [hv, hq, and_self, if_true]

end

/-- The echo replies of a quad in the running second (R73). -/
def echoesSent (s : State) (q : Nat) : Nat := if s.slow.echoSecond = s.tank.clockUs / 1000000 then Map.get 0 q s.slow.echoCount else 0

theorem echoesSent_eq (s : State) (q : Nat) :
    Map.get 0 q (if s.slow.echoSecond = s.tank.clockUs / 1000000 then s.slow.echoCount else []) = echoesSent s q := by
  unfold echoesSent
  split <;> rfl

/-- One more echo reply of a quad in the running second. -/
def echoNoted (q : Nat) (s : State) : State :=
  { s with slow := { s.slow with
    echoSecond := s.tank.clockUs / 1000000,
    echoCount := Map.set 0 q (echoesSent s q + 1) (if s.slow.echoSecond = s.tank.clockUs / 1000000 then s.slow.echoCount else []) } }

theorem echoNoted_count (q : Nat) (s : State) : Map.get 0 q (echoNoted q s).slow.echoCount = echoesSent s q + 1 := by
  unfold echoNoted
  dsimp only
  rw [Map.get_set_same]

theorem answerEcho_eq (p : Nat) (e : Echo) (s : State) : answerEcho p e s =
    if e.ipBytes ≤ 1500 ∧ echoesSent s (p / 4) < 1000 then
      sendControl (p / 4) p (.echoReply e.srcMac e.srcIp e.body) (echoNoted (p / 4) s)
    else s := by
  unfold answerEcho echoNoted
  dsimp only
  rw [echoesSent_eq]

theorem answerEcho_answers {p : Nat} {e : Echo} {s : State} {i : Iface} (hi : ifaceOf s (p / 4) = some i) (hb : e.ipBytes ≤ 1500)
    (hn : echoesSent s (p / 4) < 1000) : Emitted p i.controlPrio i (.echoReply e.srcMac e.srcIp e.body) s (answerEcho p e s) ∧
      (answerEcho p e s).slow.reserve = s.slow.reserve ∧ (answerEcho p e s).slow.echoSecond = s.tank.clockUs / 1000000 ∧
      Map.get 0 (p / 4) (answerEcho p e s).slow.echoCount = echoesSent s (p / 4) + 1 ∧ (answerEcho p e s).tank = s.tank := by
  rw [answerEcho_eq, if_pos ⟨hb, hn⟩]
  obtain ⟨hemit, hsends⟩ := sendControl_answers (f := .echoReply e.srcMac e.srcIp e.body) (by simp) rfl rfl (s := echoNoted (p / 4) s) hi
  rw [hsends.slow, hsends.kept.1.tank]
  exact ⟨hemit, rfl, rfl, echoNoted_count _ s, rfl⟩

/-- Settles O40: a frame taken out of its reserve is answered by one frame of the control priority, where it is answered. -/
theorem slowPathAnswers : Obligations.SlowPathAnswers := by
  unfold Obligations.SlowPathAnswers
  rintro port s u i p rfl hu
  obtain ⟨r, hr⟩ := takeReserve_frame (port.val / 4) s
  have hkept : u.tank = s.tank ∧ ∀ q, echoesSent u q = echoesSent s q := by
    rw [hu, hr]
    exact ⟨rfl, fun _ => rfl⟩
  obtain ⟨htank, hcount⟩ := hkept
  refine ⟨fun hc ho hi _ => ?_, fun hc ho => ?_, rfl⟩
  · have hiu : ifaceOf u (port.val / 4) = some i := by rw [hu, ifaceOf_takeReserve, hi]
    have hecho (e : Echo) : exec (.echoRequest port e) s = .next (answerEcho port.val e u) := by
      rw [hu]
      exact congrArg _ (slowPath_open hc ho _)
    refine ⟨fun q hv hq => ?_, fun q hv hq => ?_, fun e n hn => ?_⟩
    · exact ⟨_, arpRequest_answered hc ho (hu ▸ hiu) hv hq, by rw [← hu]; exact sendControl_answers (by simp) rfl rfl hiu⟩
    · exact ⟨_, neighbourSolicitation_answered hc ho (hu ▸ hiu) hv hq, by rw [← hu]; exact sendControl_answers (by simp) rfl rfl hiu⟩
    · have hsent : n = echoesSent u (port.val / 4) := hn.trans (hcount _).symm
      refine ⟨fun hb h => ?_, fun h => ?_⟩
      · rw [← htank, hsent]
        exact ⟨_, hecho e, answerEcho_answers hiu hb (hsent ▸ h)⟩
      · rw [hecho, answerEcho_eq, if_neg (by omega)]
  · rw [hu]
    exact ⟨fun _ => ⟨congrArg _ (slowPath_closed hc ho _), congrArg _ (slowPath_closed hc ho _)⟩,
      fun _ => congrArg _ (slowPath_closed hc ho _)⟩

end Sys2Proof.Safety

namespace Sys2Proof.Safety
open Sys2Proof.Machine

/-! ### Frames received (R62, R69, R73) -/

theorem PortCounts.withSlow {s t : State} (w : Slow) : PortCounts s t → PortCounts { s with slow := w } { t with slow := w } := by
  rintro ⟨x, i, st, cd, lr, rfl⟩
  exact ⟨x, i, st, cd, lr, rfl⟩

/-- What the checks of a received frame read stands as before. -/
theorem PortCounts.buffers {s t : State} : PortCounts s t → t.slow = s.slow ∧ (∀ q, reserveUse t q = reserveUse s q) ∧
    (∀ p, getPort t p = getPort s p) ∧ ∀ p prio len, FitsBuffer t p prio len ↔ FitsBuffer s p prio len := by
  rintro ⟨_, _, _, _, _, rfl⟩
  exact ⟨rfl, fun _ => rfl, fun _ => rfl, fun _ _ _ => Iff.rfl⟩

/-- The line codewords and symbols of a received frame are counted (R81). -/
def lineCounted (p : Nat) (f : DataFrame) (s : State) : State :=
  portCount p 3 f.symbols (portCount p 2 f.uncorrectable (portCount p 1 f.corrected (portCount p 0 f.codewords s)))

theorem lineCounted_frame (p : Nat) (f : DataFrame) (s : State) :
    PortCounts s (lineCounted p f s) ∧ ∀ i, 4 ≤ i → CountKept p i s (lineCounted p f s) := by
  refine ⟨(((portCount_counts _ _ _ _).trans (portCount_counts _ _ _ _)).trans (portCount_counts _ _ _ _)).trans (portCount_counts _ _ _ _),
    fun i hi => ?_⟩
  exact (((portCount_other (by omega) _ _ _).trans (portCount_other (by omega) _ _ _)).trans (portCount_other (by omega) _ _ _)).trans
    (portCount_other (by omega) _ _ _)

/-- A frame that passes the checks and is no MAC control frame is counted as received (R81). -/
def frameCounted (p : Nat) (f : DataFrame) (s : State) : State := portCount p 4 1 (lineCounted p f s)

theorem frameCounted_frame (p : Nat) (f : DataFrame) (s : State) : PortCounts s (frameCounted p f s) ∧
    PortCounted p 4 1 s (frameCounted p f s) ∧ ∀ i, 5 ≤ i → CountKept p i s (frameCounted p f s) := by
  obtain ⟨hc, hk⟩ := lineCounted_frame p f s
  exact ⟨hc.trans (portCount_counts _ _ _ _), (hk 4 (by omega)).counted (portCount_counted _ _ _ _),
    fun i hi => (hk i (by omega)).trans (portCount_other (by omega) _ _ _)⟩

/-- A failed check has a counter of its own beyond those of the line (R62). -/
theorem acceptance_counter {i : Iface} {f : DataFrame} {n : Nat} (h : acceptance i f = some n) : 4 ≤ n := by
  unfold acceptance at h
  split_ifs at h <;> simp only [Option.some.injEq] at h <;> omega

section
variable {port : Fin 16} {f : DataFrame} {s : State} {i : Iface} (hi : ifaceOf s (port.val / 4) = some i) (hu : (getPort s port.val).up = true)
include hi hu

theorem dataFrameReceive_failed {n : Nat} (h : acceptance i f = some n) :
    exec (.dataFrameReceive port f) s = .next (portCount port.val n 1 (lineCounted port.val f s)) := by
  show execDataFrameReceive port f s = _
  unfold execDataFrameReceive
  simp only [hi, hu, h, Bool.not_true, Bool.false_eq_true, if_false]
  rfl

theorem dataFrameReceive_control (h : acceptance i f = none) (he : f.ethertype = 0x8808) :
    exec (.dataFrameReceive port f) s = .next (lineCounted port.val f s) := by
  show execDataFrameReceive port f s = _
  unfold execDataFrameReceive
  simp only [hi, hu, h, he, Bool.not_true, Bool.false_eq_true, if_false, if_true]
  rfl

theorem dataFrameReceive_roce (h : acceptance i f = none) (he : f.ethertype ≠ 0x8808)
    (hr : f.ethertype ≠ 0x0806 ∧ f.ipNext = 17 ∧ f.udpPort = 4791 ∧ f.destQp ≠ 1) :
    exec (.dataFrameReceive port f) s = .next (takeBuffer port.val (framePriority i f) f.length (frameCounted port.val f s)) := by
  show execDataFrameReceive port f s = _
  unfold execDataFrameReceive
  simp only [hi, hu, h, Bool.not_true, Bool.false_eq_true, if_false]
  rw [if_neg he, if_pos hr]
  rfl

theorem dataFrameReceive_slow (h : acceptance i f = none) (he : f.ethertype ≠ 0x8808)
    (hr : ¬(f.ethertype ≠ 0x0806 ∧ f.ipNext = 17 ∧ f.udpPort = 4791 ∧ f.destQp ≠ 1)) :
    exec (.dataFrameReceive port f) s = .next (takeSlow port.val f (frameCounted port.val f s)) := by
  show execDataFrameReceive port f s = _
  unfold execDataFrameReceive
  simp only [hi, hu, h, Bool.not_true, Bool.false_eq_true, if_false]
  rw [if_neg he, if_neg hr]
  rfl

end

/-! The packet buffer (R68, R69). -/

/-- A PFC frame sent counts as a frame sent, and as nothing received. -/
theorem sendFrame_received (p prio : Nat) (f : TxFrame) (s : State) : CountKept p 4 s (sendFrame p prio f s) :=
  sendFrame_relates (R := CountKept p 4) rfl (portCount_other (by decide) _ _ _) rfl
    ((transmit_trails p prio f s).counts 4 (by decide) (by decide) (by decide) (by decide))

theorem takeBuffer_fits {p prio len : Nat} {s : State} (h : FitsBuffer s p prio len) : Sends s (takeBuffer p prio len s) ∧
    CountKept p 4 s (takeBuffer p prio len s) ∧
    Map.get 0 prio (getPort (takeBuffer p prio len s) p).use = Map.get 0 prio (getPort s p).use + len := by
  have hset (v : Port) (hv : v.use = Map.set 0 prio (Map.get 0 prio (getPort s p).use + len) (getPort s p).use) :
      Sends s (setPort p v s) ∧ CountKept p 4 s (setPort p v s) ∧
      Map.get 0 prio (getPort (setPort p v s) p).use = Map.get 0 prio (getPort s p).use + len := by
    refine ⟨setPort_sends _ _ _, rfl, ?_⟩
    rw [getPort_set_same, hv, Map.get_set_same]
  unfold FitsBuffer at h
  unfold takeBuffer
  dsimp only
  split at h
  · rw [if_pos ‹_›, if_neg (by omega)]
    split
    · obtain ⟨v, hv⟩ : ∃ v : Port, v = { getPort s p with
        use := Map.set 0 prio (Map.get 0 prio (getPort s p).use + len) (getPort s p).use,
        pausing := setBit8 (getPort s p).pausing prio } := ⟨_, rfl⟩
      obtain ⟨hs, hc, hg⟩ := hset v (by rw [hv])
      rw [← hv]
      refine ⟨hs.trans (sendFrame_sends rfl _ _ _), hc.trans (sendFrame_received _ _ _ _), ?_⟩
      rw [← hg]
      unfold getPort
      rw [sendFrame_pfc_ports]
    · exact hset _ rfl
  · rw [if_neg ‹_›, if_neg (by omega)]
    exact hset _ rfl

theorem takeBuffer_full {p prio len : Nat} {s : State} (h : ¬FitsBuffer s p prio len) : takeBuffer p prio len s = portCount p 9 1 s := by
  unfold FitsBuffer at h
  unfold takeBuffer
  dsimp only
  split at h
  · rw [if_pos ‹_›, if_pos (by omega)]
  · rw [if_neg ‹_›, if_pos (by omega)]

/-! The reserves of the slow path (R68, R73). -/

/-- A frame for the slow path has taken its token, and is counted. -/
def tokenTaken (p : Nat) (s : State) : State := portCount p 10 1 { s with slow := { s.slow with tokens := s.slow.tokens - 1 } }

theorem takeSlow_full {p : Nat} {f : DataFrame} {s : State} (h : s.slow.tokens = 0 ∨ 65536 < reserveUse s (p / 4) + f.length) :
    takeSlow p f s = portCount p 11 1 s := by
  unfold takeSlow
  rw [if_pos h]

theorem takeSlow_placed {p : Nat} {f : DataFrame} {s : State} (h : ¬(s.slow.tokens = 0 ∨ 65536 < reserveUse s (p / 4) + f.length))
    (ho : f.slowKind ≠ .other) (hm : f.slowKind ≠ .mra) : takeSlow p f s =
      { tokenTaken p s with slow := { s.slow with tokens := s.slow.tokens - 1, reserve := s.slow.reserve ++ [(p / 4, f.length)] } } := by
  have hslow : (tokenTaken p s).slow = { s.slow with tokens := s.slow.tokens - 1 } := (portCount_counts p 10 1 _).buffers.1
  unfold takeSlow
  rw [if_neg h]
  simp only [ho, hm, decide_false, Bool.or_self, Bool.and_false, Bool.false_and, Bool.false_eq_true, if_false]
  rw [← tokenTaken, hslow]

theorem takeSlow_ignored {p : Nat} {f : DataFrame} {s : State} (h : ¬(s.slow.tokens = 0 ∨ 65536 < reserveUse s (p / 4) + f.length))
    (hk : f.slowKind = .other ∨ f.slowKind = .mra) : takeSlow p f s =
      if isQp1 f = true ∧ (f.tver ≠ 0 ∨ f.pkey ≠ 0xFFFF) then portCount p 25 1 (tokenTaken p s)
      else if f.slowKind = .other then portCount p 12 1 (tokenTaken p s) else tokenTaken p s := by
  unfold takeSlow
  rw [if_neg h, ← tokenTaken]
  rcases hk with hk | hk <;> simp [hk]

theorem tokenTaken_frame (p : Nat) (s : State) :
    PortCounts { s with slow := { s.slow with tokens := s.slow.tokens - 1 } } (tokenTaken p s) ∧ PortCounted p 10 1 s (tokenTaken p s) ∧
    ∀ i, i ≠ 10 → CountKept p i s (tokenTaken p s) :=
  ⟨portCount_counts _ _ _ _, portCount_counted p 10 1 { s with slow := { s.slow with tokens := s.slow.tokens - 1 } },
    fun _ hi => portCount_other hi p 1 { s with slow := { s.slow with tokens := s.slow.tokens - 1 } }⟩

/-- A slow-path frame that the core will take (R73). -/
theorem takeSlow_places {p : Nat} {f : DataFrame} {s : State} (h : ¬(s.slow.tokens = 0 ∨ 65536 < reserveUse s (p / 4) + f.length))
    (ho : f.slowKind ≠ .other) (hm : f.slowKind ≠ .mra) : PortCounted p 10 1 s (takeSlow p f s) ∧
      PortCounts { s with slow := { s.slow with tokens := s.slow.tokens - 1, reserve := s.slow.reserve ++ [(p / 4, f.length)] } }
        (takeSlow p f s) := by
  obtain ⟨hc, hcounted, _⟩ := tokenTaken_frame p s
  rw [takeSlow_placed h ho hm]
  exact ⟨hcounted, hc.withSlow { s.slow with tokens := s.slow.tokens - 1, reserve := s.slow.reserve ++ [(p / 4, f.length)] }⟩

/-- A slow-path frame that takes its token alone (R73, R84, R100). -/
theorem takeSlow_ignores {p : Nat} {f : DataFrame} {s : State} (h : ¬(s.slow.tokens = 0 ∨ 65536 < reserveUse s (p / 4) + f.length))
    (hk : f.slowKind = .other ∨ f.slowKind = .mra) : PortCounted p 10 1 s (takeSlow p f s) ∧
      (isQp1 f = true → f.tver ≠ 0 ∨ f.pkey ≠ 0xFFFF → PortCounted p 25 1 s (takeSlow p f s)) ∧
      (isQp1 f = false ∨ (f.tver = 0 ∧ f.pkey = 0xFFFF) → f.slowKind = .other → PortCounted p 12 1 s (takeSlow p f s)) ∧
      PortCounts { s with slow := { s.slow with tokens := s.slow.tokens - 1 } } (takeSlow p f s) := by
  obtain ⟨hc, hcounted, hkept⟩ := tokenTaken_frame p s
  rw [takeSlow_ignored h hk]
  split
  · next hq =>
    refine ⟨hcounted.after (portCount_other (by decide) _ _ _), fun _ _ => (hkept 25 (by decide)).counted (portCount_counted _ _ _ _),
      fun hn => ?_, hc.trans (portCount_counts _ _ _ _)⟩
    rcases hn with hn | ⟨hv, hp⟩
    · simp [hn] at hq
    · simp [hv, hp] at hq
  · next hq =>
    have hqp1 : isQp1 f = true → f.tver ≠ 0 ∨ f.pkey ≠ 0xFFFF → False := fun h1 h2 => hq ⟨h1, h2⟩
    split
    · exact ⟨hcounted.after (portCount_other (by decide) _ _ _), fun h1 h2 => (hqp1 h1 h2).elim,
        fun _ _ => (hkept 12 (by decide)).counted (portCount_counted _ _ _ _), hc.trans (portCount_counts _ _ _ _)⟩
    · next ho => exact ⟨hcounted, fun h1 h2 => (hqp1 h1 h2).elim, fun _ h => absurd h ho, hc⟩

/-- Settles O38: one lemma for each way through the checks; the counters of the line come first and no other rule counts in them. -/
theorem dataFramesTakeTheirPlace : Obligations.DataFramesTakeTheirPlace := by
  unfold Obligations.DataFramesTakeTheirPlace
  rintro port f s i p rfl hi hu
  obtain ⟨hline, hlineKept⟩ := lineCounted_frame port.val f s
  obtain ⟨hframe, hfour, hframeKept⟩ := frameCounted_frame port.val f s
  obtain ⟨hslow, hreserve, hport, hfits⟩ := hframe.buffers
  refine ⟨fun n h => ?_, fun h he8 he hn hd hq => ?_, fun h he => ⟨_, dataFrameReceive_control hi hu h he, hline⟩, fun h he hr => ?_⟩
  · exact ⟨_, dataFrameReceive_failed hi hu h, hline.trans (portCount_counts _ _ _ _),
      (hlineKept n (acceptance_counter h)).counted (portCount_counted _ _ _ _)⟩
  · have hexec := dataFrameReceive_roce hi hu h he ⟨he8, hn, hd, hq⟩
    refine ⟨fun hfit => ?_, fun hfull => ?_⟩
    · obtain ⟨hs, hk, huse⟩ := takeBuffer_fits ((hfits _ _ _).mpr hfit)
      exact ⟨_, hexec, hframe.sends.trans hs, hfour.after hk, by rw [huse, hport]⟩
    · rw [takeBuffer_full fun hfit => hfull ((hfits _ _ _).mp hfit)] at hexec
      exact ⟨_, hexec, hframe.trans (portCount_counts _ _ _ _), hfour.after (portCount_other (by decide) _ _ _),
        (hframeKept 9 (by decide)).counted (portCount_counted _ _ _ _)⟩
  · have hexec := dataFrameReceive_slow hi hu h he (by tauto)
    have hfull : ((frameCounted port.val f s).slow.tokens = 0 ∨ 65536 < reserveUse (frameCounted port.val f s) (port.val / 4) + f.length) ↔
        (s.slow.tokens = 0 ∨ 65536 < reserveUse s (port.val / 4) + f.length) := by rw [hslow, hreserve]
    refine ⟨fun ht hroom => ?_, fun hno => ?_⟩
    · have hopen : ¬((frameCounted port.val f s).slow.tokens = 0 ∨
          65536 < reserveUse (frameCounted port.val f s) (port.val / 4) + f.length) := by
        rw [hfull]
        omega
      refine ⟨fun ho hm => ?_, fun hk => ?_⟩
      · obtain ⟨hten, hc⟩ := takeSlow_places hopen ho hm
        rw [hslow] at hc
        exact ⟨_, hexec, (hframeKept 10 (by decide)).counted hten, (hframe.withSlow _).trans hc⟩
      · obtain ⟨hten, hbad, hunknown, hc⟩ := takeSlow_ignores hopen hk
        rw [hslow] at hc
        exact ⟨_, hexec, (hframeKept 10 (by decide)).counted hten, fun h1 h2 => (hframeKept 25 (by decide)).counted (hbad h1 h2),
          fun h1 h2 => (hframeKept 12 (by decide)).counted (hunknown h1 h2), (hframe.withSlow _).trans hc⟩
    · rw [takeSlow_full (hfull.mpr hno)] at hexec
      exact ⟨_, hexec, hframe.trans (portCount_counts _ _ _ _), (hframeKept 11 (by decide)).counted (portCount_counted _ _ _ _)⟩

end Sys2Proof.Safety

namespace Sys2Proof.Safety
open Sys2Proof.Machine

/-! ### What has left or waits stays so -/

/-- What has left the ports, and what waits in their queues, is still there. -/
structure Onward (s t : State) : Prop where
  sent : s.dataSent ⊆ t.dataSent
  queued : ∀ p, (getPort s p).queue ⊆ (getPort t p).queue

theorem Onward.of_eq {s t : State} (hd : t.dataSent = s.dataSent) (hp : t.ports = s.ports) : Onward s t :=
  ⟨by rw [hd]; exact List.Subset.refl _, fun p => by unfold getPort; rw [hp]; exact List.Subset.refl _⟩

theorem Onward.refl (s : State) : Onward s s := .of_eq rfl rfl

theorem Onward.trans {a b c : State} (h : Onward a b) (h' : Onward b c) : Onward a c :=
  ⟨fun _ hx => h'.sent (h.sent hx), fun p _ hx => h'.queued p (h.queued p hx)⟩

/-- A packet joins its port's queue behind what waits there: it replaces no CNP (R71). -/
theorem setPort_queue_onward (p prio : Nat) (x : RdmaTx) (s : State) : Onward s (setPort p { getPort s p with
    queue := (getPort s p).queue.filter (fun e => !sameCnp e.2 (.rdma x)) ++ [(prio, .rdma x)] } s) := by
  refine ⟨List.Subset.refl _, fun q e he => ?_⟩
  by_cases h : q = p
  · subst h
    have hsame : sameCnp e.2 (.rdma x) = false := by
      unfold sameCnp
      split <;> simp_all
    rw [getPort_set_same]
    exact List.mem_append_left _ (List.mem_filter.mpr ⟨he, by rw [hsame]; rfl⟩)
  · rw [getPort_set_other _ h]
    exact he

theorem sendFrame_rdma_onward (p prio : Nat) (x : RdmaTx) (s : State) : Onward s (sendFrame p prio (.rdma x) s) := by
  have hleave : Onward s (transmit p prio (.rdma x) s) := by
    have h := transmit_trails p prio (.rdma x) s
    have hnew : Onward s { s with dataSent := leaving s p prio (.rdma x) :: s.dataSent } :=
      ⟨List.subset_cons_self _ _, fun _ => List.Subset.refl _⟩
    exact hnew.trans (.of_eq h.sent h.ports)
  have hcount := portCount_counts p 21 1 s
  exact sendFrame_relates (.refl s) (.of_eq hcount.dataSent hcount.ports) (setPort_queue_onward p prio x s) hleave

theorem Departs.onward {p prio : Nat} {i : Iface} {f : TxFrame} {s t u : State} (h : Departs p prio i f s t) (ho : Onward t u) :
    Departs p prio i f s u := by
  intro hs hd
  obtain ⟨hnow, hwait⟩ := h hs hd
  exact ⟨fun hp => ho.sent (hnow hp), fun hp => ho.queued p (hwait hp)⟩

theorem PacketDeparts.onward {n : BitVec 24} {q : Qp} {fields : RdmaTx → Prop} {s t u : State} (h : PacketDeparts n q fields s t)
    (ho : Onward t u) : PacketDeparts n q fields s u := by
  intro p i prio hp hi hprio
  obtain ⟨x, hx, hdqp, hip, hd⟩ := h p i prio hp hi hprio
  exact ⟨x, hx, hdqp, hip, hd.onward ho⟩

theorem PacketDeparts.imp {n : BitVec 24} {q : Qp} {fields fields' : RdmaTx → Prop} {s t : State} (h : PacketDeparts n q fields s t)
    (hf : ∀ x, fields x → fields' x) : PacketDeparts n q fields' s t := by
  intro p i prio hp hi hprio
  obtain ⟨x, hx, hrest⟩ := h p i prio hp hi hprio
  exact ⟨x, hf x hx, hrest⟩

/-- Two contexts whose packets take the same way: interface, class, and the requester's QPN and address. -/
structure SameRoute (q r : Qp) : Prop where
  iface : r.iface = q.iface
  cls : r.cls = q.cls
  remoteQpn : r.remoteQpn = q.remoteQpn
  remote : r.remote = q.remote

/-- A packet's way out depends on its QP's route, and not on what the QPs hold otherwise. -/
theorem PacketDeparts.reroute {n : BitVec 24} {q r : Qp} {fields : RdmaTx → Prop} {s t : State} {qs : Table Qp} {k : Table Nat}
    (hr : SameRoute q r) (h : PacketDeparts n r fields { s with qps := qs, trackers := k } t) : PacketDeparts n q fields s t := by
  obtain ⟨hiface, hcls, hqpn, hremote⟩ := hr
  intro p i prio hp hi hprio
  rw [← hqpn, ← hremote]
  exact h p i prio (by rw [hiface]; exact hp) hi (by rw [hcls]; exact hprio)

/-! ### Packets of a QP (R64, R70, R95) -/

/-- A packet of a QP is sent as a frame, or there is no port for it. -/
theorem sendRdma_cases (n : BitVec 24) (opcode : Byte) (psn : BitVec 24) (syn : Option Byte) (payload : List Byte) (orig : Option W64)
    (tags : List TagResult) (s : State) : sendRdma n opcode psn syn payload orig tags s = s ∨
      ∃ p prio x, x.tags = tags ∧ x.payload = payload ∧ sendRdma n opcode psn syn payload orig tags s = sendFrame p prio (.rdma x) s := by
  unfold sendRdma
  dsimp only
  split
  · exact .inl rfl
  · exact .inr ⟨_, _, _, rfl, rfl, rfl⟩

theorem sendRdma_onward (n : BitVec 24) (opcode : Byte) (psn : BitVec 24) (syn : Option Byte) (payload : List Byte) (orig : Option W64)
    (tags : List TagResult) (s : State) : Onward s (sendRdma n opcode psn syn payload orig tags s) := by
  rcases sendRdma_cases n opcode psn syn payload orig tags s with h | ⟨p, prio, x, _, _, h⟩ <;> rw [h]
  · exact .refl s
  · exact sendFrame_rdma_onward p prio x s

theorem sendRdma_flushes (n : BitVec 24) (opcode : Byte) (psn : BitVec 24) (syn : Option Byte) (payload : List Byte) (orig : Option W64)
    (tags : List TagResult) (s : State) : Flushes s (sendRdma n opcode psn syn payload orig tags s) := by
  rcases sendRdma_cases n opcode psn syn payload orig tags s with h | ⟨p, prio, x, _, _, h⟩ <;> rw [h]
  · exact .refl s
  · exact sendFrame_flushes p prio _ s

/-- A packet without data is plain. -/
theorem sendRdma_sends (n : BitVec 24) (opcode : Byte) (psn : BitVec 24) (syn : Option Byte) (orig : Option W64) (s : State) :
    Sends s (sendRdma n opcode psn syn [] orig [] s) := by
  rcases sendRdma_cases n opcode psn syn [] orig [] s with h | ⟨p, prio, x, htags, hpay, h⟩ <;> rw [h]
  · exact .refl s
  · exact sendFrame_sends (by simp [plain, htags, hpay]) p prio s

theorem sendRdma_departs (n : BitVec 24) (opcode : Byte) (psn : BitVec 24) (syn : Option Byte) (payload : List Byte) (orig : Option W64)
    (tags : List TagResult) (s : State) : PacketDeparts n (getQp s n)
      (fun x => x.opcode = opcode ∧ x.psn = psn ∧ x.syndrome = syn ∧ x.payload = payload ∧ x.orig = orig) s
      (sendRdma n opcode psn syn payload orig tags s) := by
  rintro p i prio hp hi rfl
  unfold sendRdma
  simp only [hp]
  exact ⟨_, ⟨rfl, rfl, rfl, rfl, rfl⟩, rfl, rfl, sendFrame_departs (by simp) hi _⟩

/-! ### Settling a QP's order (R95, R96) -/

/-- What settling a QP's order leaves: the array, the QP's outstanding requests and its state; what has left or waits stays so. -/
structure Settles (n : BitVec 24) (s t : State) : Prop where
  dram : t.dram = s.dram
  outstanding : (getQp t n).outstanding = (getQp s n).outstanding
  state : (getQp t n).state = (getQp s n).state
  onward : Onward s t

theorem Settles.refl (n : BitVec 24) (s : State) : Settles n s s := ⟨rfl, rfl, rfl, .refl s⟩

theorem Settles.trans {n : BitVec 24} {a b c : State} (h : Settles n a b) (h' : Settles n b c) : Settles n a c :=
  ⟨h'.dram.trans h.dram, h'.outstanding.trans h.outstanding, h'.state.trans h.state, h.onward.trans h'.onward⟩

theorem getQp_congr {s t : State} (h : t.qps = s.qps) (n : BitVec 24) : getQp t n = getQp s n := by
  unfold getQp
  rw [h]

theorem setQp_onward (n : BitVec 24) (v : Qp) (s : State) : Onward s (setQp n v s) := .of_eq rfl rfl

theorem setQp_settles {n : BitVec 24} {v : Qp} {s : State} (ho : v.outstanding = (getQp s n).outstanding) (hs : v.state = (getQp s n).state) :
    Settles n s (setQp n v s) :=
  ⟨rfl, by rw [getQp_set_same, ho], by rw [getQp_set_same, hs], setQp_onward n v s⟩

theorem sendRdma_settles (n : BitVec 24) (opcode : Byte) (psn : BitVec 24) (syn : Option Byte) (orig : Option W64) (s : State) :
    Settles n s (sendRdma n opcode psn syn [] orig [] s) := by
  obtain ⟨_, _, hqps, hdram⟩ := (sendRdma_sends n opcode psn syn orig s).kept
  exact ⟨hdram, by rw [getQp_congr hqps], by rw [getQp_congr hqps], sendRdma_onward _ _ _ _ _ _ _ s⟩

theorem tenantCount_onward (tenant k add : Nat) (s : State) : Onward s (tenantCount tenant k add s) := by
  have h := tenantCount_trails 0 tenant k add s
  exact .of_eq h.sent h.ports

theorem tenantCount_settles (n : BitVec 24) (tenant k add : Nat) (s : State) : Settles n s (tenantCount tenant k add s) := by
  obtain ⟨_, _, hqps⟩ := (tenantCount_trails 0 tenant k add s).flushes.kept
  obtain ⟨⟨_, hdram, _⟩, _, _⟩ := (tenantCount_loses tenant k add s).kept
  exact ⟨hdram, by rw [getQp_congr hqps], by rw [getQp_congr hqps], tenantCount_onward _ _ _ _⟩

theorem sendAck_settles (n : BitVec 24) (s : State) : Settles n s (sendAck n s) := by
  have h := sendRdma_settles n 0x11 (ackPsnOf (getQp s n)) (some 0x1F) none s
  exact h.trans (setQp_settles h.outstanding.symm h.state.symm)

theorem sendNak_settles (n psn : BitVec 24) (syn : Byte) (s : State) : Settles n s (sendNak n psn syn s) := by
  refine Settles.trans ?_ (tenantCount_settles n _ _ _ _)
  exact (sendRdma_settles n 0x11 psn (some syn) none s).trans (setQp_settles (by rfl) (by rfl))

theorem sendNak_departs (n psn : BitVec 24) (syn : Byte) (s : State) : PacketDeparts n (getQp s n)
    (fun x => x.opcode = 0x11 ∧ x.psn = psn ∧ x.syndrome = some syn) s (sendNak n psn syn s) := by
  have h := sendRdma_departs n 0x11 psn (some syn) [] none [] s
  refine (h.imp fun _ ⟨hop, hpsn, hsyn, _⟩ => ⟨hop, hpsn, hsyn⟩).onward ?_
  exact (setQp_onward n _ _).trans (tenantCount_onward _ _ _ _)

theorem settleOps_settles (n : BitVec 24) (fuel : Nat) (s : State) : Settles n s (settleOps n fuel s) := by
  induction fuel generalizing s with
  | zero => exact .refl n s
  | succ fuel ih =>
    unfold settleOps
    dsimp only
    split
    · exact .refl n s
    · split
      · exact ((setQp_settles (by rfl) (by rfl)).trans (sendNak_settles n _ _ _)).trans (ih _)
      · split
        · exact (setQp_settles (by rfl) (by rfl)).trans (ih _)
        · exact .refl n s

theorem settleQp_settles (n : BitVec 24) (s : State) : Settles n s (settleQp n s) := by
  have h := settleOps_settles n (getQp s n).ops.length s
  unfold settleQp
  dsimp only
  split
  · exact h.trans (sendAck_settles n _)
  · exact h

/-! ### The response at the head of the order (R95, R98, R99) -/

/-- The context of a QP whose head has left its order with its slot. -/
def released (q : Qp) : Qp :=
  { q with ops := q.ops.tail, oldestPsn := oldestOutstanding q.ops.tail, outstanding := q.outstanding - 1 }

theorem released_route (q : Qp) : SameRoute q (released q) := ⟨rfl, rfl, rfl, rfl⟩

/-- The head of the order gives back its slot and its tracker (R88, R91). -/
theorem releaseSlot_holds {o : QpOp} (h : holdsTracker o = true) (n : BitVec 24) (s : State) : releaseSlot n o s =
    { setQp n (released (getQp s n)) s with trackers := Map.modify 0 (getQp s n).iface (fun v => v - 1) s.trackers } := by
  unfold releaseSlot
  rw [if_pos h]
  rfl

theorem releaseSlot_frame {o : QpOp} (h : holdsTracker o = true) (n : BitVec 24) (s : State) :
    getQp (releaseSlot n o s) n = released (getQp s n) ∧ (releaseSlot n o s).dram = s.dram ∧ Onward s (releaseSlot n o s) := by
  rw [releaseSlot_holds h]
  exact ⟨getQp_set_same s n _, rfl, .of_eq rfl rfl⟩

/-- A packet sent as its request leaves the order is one of the QP as it stands. -/
theorem PacketDeparts.beforeRelease {o : QpOp} (h : holdsTracker o = true) {n : BitVec 24} {fields : RdmaTx → Prop} {s t : State}
    (hd : PacketDeparts n (getQp (releaseSlot n o s) n) fields (releaseSlot n o s) t) : PacketDeparts n (getQp s n) fields s t := by
  rw [(releaseSlot_frame h n s).1, releaseSlot_holds h] at hd
  exact hd.reroute (released_route _)

/-- A packet sent with its context's change is one of the QP as it stands. -/
theorem PacketDeparts.beforeSet {n : BitVec 24} {v : Qp} {fields : RdmaTx → Prop} {s t : State} (hr : SameRoute (getQp s n) v)
    (hd : PacketDeparts n (getQp (setQp n v s) n) fields (setQp n v s) t) : PacketDeparts n (getQp s n) fields s t := by
  rw [getQp_set_same] at hd
  exact PacketDeparts.reroute (qs := (setQp n v s).qps) (k := s.trackers) hr hd

theorem acknowledged_frame (psn : BitVec 24) (dup : Bool) (q : Qp) : SameRoute q (acknowledged psn dup q) ∧
    (acknowledged psn dup q).ops = q.ops ∧ (acknowledged psn dup q).outstanding = q.outstanding ∧ (acknowledged psn dup q).state = q.state ∧
    (acknowledged psn dup q).ackPsn = psn ∧ (dup = false → (acknowledged psn dup q).unacked = 0) := by
  unfold acknowledged
  split
  · next h => exact ⟨⟨rfl, rfl, rfl, rfl⟩, rfl, rfl, rfl, rfl, fun hd => by simp [hd] at h⟩
  · exact ⟨⟨rfl, rfl, rfl, rfl⟩, rfl, rfl, rfl, rfl, fun _ => rfl⟩

/-- The context with a response packet of the READ at the head of its order sent. -/
def readSent (o : QpOp) (q : Qp) : Qp :=
  acknowledged (o.psn + BitVec.ofNat 24 o.sent) o.dup
    { q with msn := if decide (o.sent + 1 = o.npkts) && o.lastOfMsg then q.msn + 1 else q.msn, ops := q.ops.set 0 { o with sent := o.sent + 1 } }

theorem readSent_frame (o : QpOp) (q : Qp) : SameRoute q (readSent o q) ∧ (readSent o q).ops = q.ops.set 0 { o with sent := o.sent + 1 } ∧
    (readSent o q).outstanding = q.outstanding ∧ (readSent o q).state = q.state ∧
    (readSent o q).ackPsn = o.psn + BitVec.ofNat 24 o.sent ∧ (o.dup = false → (readSent o q).unacked = 0) := by
  obtain ⟨⟨hi, hc, hn, hr⟩, hrest⟩ := acknowledged_frame (o.psn + BitVec.ofNat 24 o.sent) o.dup
    { q with msn := if decide (o.sent + 1 = o.npkts) && o.lastOfMsg then q.msn + 1 else q.msn, ops := q.ops.set 0 { o with sent := o.sent + 1 } }
  exact ⟨⟨hi, hc, hn, hr⟩, hrest⟩

/-- A response packet on its way. -/
def packetSent (n : BitVec 24) (o : QpOp) (lines : List (LinePart × Staged)) (s : State) : State :=
  sendRdma n (readOpcode o.sent o.npkts) (o.psn + BitVec.ofNat 24 o.sent) (if readOpcode o.sent o.npkts = 0x0E then none else some 0x1F)
    (lines.map (packetBytes o)).flatten none (packetTags n o lines) (setQp n (readSent o (getQp s n)) s)

theorem sendRead_eq (n : BitVec 24) (o : QpOp) (lines : List (LinePart × Staged)) (s : State) : sendRead n o lines s =
    if o.sent + 1 = o.npkts then settleQp n (releaseSlot n o (packetSent n o lines s)) else packetSent n o lines s := rfl

theorem packetSent_frame (n : BitVec 24) (o : QpOp) (lines : List (LinePart × Staged)) (s : State) :
    getQp (packetSent n o lines s) n = readSent o (getQp s n) ∧ PacketDeparts n (getQp s n) (fun x => x.opcode = readOpcode o.sent o.npkts ∧
      x.psn = o.psn + BitVec.ofNat 24 o.sent ∧ x.payload = (lines.map (packetBytes o)).flatten) s (packetSent n o lines s) := by
  unfold packetSent
  obtain ⟨u, hu⟩ : ∃ u, u = setQp n (readSent o (getQp s n)) s := ⟨_, rfl⟩
  rw [← hu]
  constructor
  · obtain ⟨_, _, hqps⟩ := (sendRdma_flushes n (readOpcode o.sent o.npkts) (o.psn + BitVec.ofNat 24 o.sent)
      (if readOpcode o.sent o.npkts = 0x0E then none else some 0x1F) (lines.map (packetBytes o)).flatten none (packetTags n o lines) u).kept
    rw [getQp_congr hqps, hu, getQp_set_same]
  · refine PacketDeparts.beforeSet (readSent_frame o _).1 ?_
    rw [← hu]
    exact (sendRdma_departs n _ _ _ _ _ _ u).imp fun _ ⟨hop, hpsn, _, hpay, _⟩ => ⟨hop, hpsn, hpay⟩

section
variable {n : BitVec 24} {s : State} {o : QpOp} {rest : List QpOp} (hops : (getQp s n).ops = o :: rest)
include hops

theorem responseSend_read {lines : List (LinePart × Staged)} (hk : o.kind = .read) (hb : ∀ b, o.badPkt = some b → o.sent < b)
    (hl : packetLines (getQp s n) o = some lines) : exec (.responseSend n) s = .next (sendRead n o lines s) := by
  have hbad : (o.badPkt.map (fun b => decide (b ≤ o.sent))).getD false = false := by
    cases h : o.badPkt with
    | none => rfl
    | some b => simpa using hb b h
  show execResponseSend n s = _
  unfold execResponseSend
  simp only [hops, hk, hbad, hl, Bool.false_eq_true, if_false]

theorem responseSend_bad {b : Nat} (hk : o.kind = .read) (hb : o.badPkt = some b) (hs : b ≤ o.sent) :
    exec (.responseSend n) s = .next (nakRead n o s) := by
  show execResponseSend n s = _
  unfold execResponseSend
  simp [hops, hk, hb, hs]

theorem responseSend_atomic {v : W64} (hk : o.kind = .atomic) (hv : o.result = some v) :
    exec (.responseSend n) s = .next (sendAtomic n o v s) := by
  show execResponseSend n s = _
  unfold execResponseSend
  simp only [hops, hk, hv]

end

theorem holdsTracker_read {o : QpOp} (hk : o.kind = .read) : holdsTracker o = true := by
  simp [holdsTracker, hk]

theorem holdsTracker_atomic {o : QpOp} (hk : o.kind = .atomic) (hd : o.dup = false) : holdsTracker o = true := by
  simp [holdsTracker, hk, hd]

theorem sendRead_departs {o : QpOp} (hk : o.kind = .read) (n : BitVec 24) (lines : List (LinePart × Staged)) (s : State) :
    PacketDeparts n (getQp s n) (fun x => x.opcode = readOpcode o.sent o.npkts ∧ x.psn = o.psn + BitVec.ofNat 24 o.sent ∧
      x.payload = (lines.map (packetBytes o)).flatten) s (sendRead n o lines s) := by
  have h := (packetSent_frame n o lines s).2
  rw [sendRead_eq]
  split
  · obtain ⟨_, _, hrel⟩ := releaseSlot_frame (holdsTracker_read hk) n (packetSent n o lines s)
    exact (h.onward hrel).onward (settleQp_settles n _).onward
  · exact h

/-- The last packet of a READ gives its slot back (R88, R91). -/
theorem sendRead_last {o : QpOp} (hk : o.kind = .read) (hl : o.sent + 1 = o.npkts) (n : BitVec 24) (lines : List (LinePart × Staged)) (s : State) :
    (getQp (sendRead n o lines s) n).outstanding = (getQp s n).outstanding - 1 ∧
      (getQp (sendRead n o lines s) n).state = (getQp s n).state := by
  obtain ⟨hrel, _, _⟩ := releaseSlot_frame (holdsTracker_read hk) n (packetSent n o lines s)
  obtain ⟨_, _, hout, hstate, _, _⟩ := readSent_frame o (getQp s n)
  have hset := settleQp_settles n (releaseSlot n o (packetSent n o lines s))
  rw [sendRead_eq, if_pos hl, hset.outstanding, hset.state, hrel, (packetSent_frame n o lines s).1]
  exact ⟨congrArg (· - 1) hout, hstate⟩

/-- A READ that meets a bad line ends with its NAK (R98). -/
theorem nakRead_ends {o : QpOp} (hk : o.kind = .read) (n : BitVec 24) (s : State) :
    (getQp (nakRead n o s) n).outstanding = (getQp s n).outstanding - 1 ∧ (nakRead n o s).dram = s.dram ∧
      PacketDeparts n (getQp s n) (fun x => x.opcode = 0x11 ∧ x.psn = o.psn + BitVec.ofNat 24 o.sent ∧ x.syndrome = some 0x63) s
        (nakRead n o s) := by
  have hhold := holdsTracker_read hk
  obtain ⟨hrel, hdram, _⟩ := releaseSlot_frame hhold n s
  have hnak := sendNak_settles n (o.psn + BitVec.ofNat 24 o.sent) 0x63 (releaseSlot n o s)
  have hset := hnak.trans (settleQp_settles n _)
  refine ⟨?_, hset.dram.trans hdram, ?_⟩
  · refine hset.outstanding.trans ?_
    rw [hrel]
    rfl
  · exact ((sendNak_departs n _ 0x63 _).onward (settleQp_settles n _).onward).beforeRelease hhold

/-- The context with the answer to the atomic at the head of its order sent. -/
def atomicSent (o : QpOp) (q : Qp) : Qp := acknowledged o.psn o.dup { q with msn := if o.dup then q.msn else q.msn + 1 }

theorem atomicSent_frame (o : QpOp) (q : Qp) : SameRoute q (atomicSent o q) ∧ (atomicSent o q).outstanding = q.outstanding := by
  obtain ⟨⟨hi, hc, hn, hr⟩, _, hout, _⟩ := acknowledged_frame o.psn o.dup { q with msn := if o.dup then q.msn else q.msn + 1 }
  exact ⟨⟨hi, hc, hn, hr⟩, hout⟩

/-- An atomic's answer leaves, and gives its slot back (R99). -/
theorem sendAtomic_ends {o : QpOp} (hhold : holdsTracker o = true) (n : BitVec 24) (v : W64) (s : State) :
    (getQp (sendAtomic n o v s) n).outstanding = (getQp s n).outstanding - 1 ∧ (sendAtomic n o v s).dram = s.dram ∧
      PacketDeparts n (getQp s n) (fun x => x.opcode = 0x12 ∧ x.psn = o.psn ∧ x.syndrome = some 0x1F ∧ x.orig = some v) s
        (sendAtomic n o v s) := by
  obtain ⟨u, hu⟩ : ∃ u, u = setQp n (atomicSent o (getQp s n)) s := ⟨_, rfl⟩
  obtain ⟨w, hw⟩ : ∃ w, w = sendRdma n 0x12 o.psn (some 0x1F) [] (some v) [] u := ⟨_, rfl⟩
  have heq : sendAtomic n o v s = settleQp n (releaseSlot n o w) := by
    rw [hw, hu]
    rfl
  obtain ⟨hroute, hout⟩ := atomicSent_frame o (getQp s n)
  have hsend : Settles n u w := hw ▸ sendRdma_settles n 0x12 o.psn (some 0x1F) (some v) u
  obtain ⟨hrel, hdram, hon⟩ := releaseSlot_frame hhold n w
  have hset := settleQp_settles n (releaseSlot n o w)
  rw [heq]
  refine ⟨?_, ?_, ?_⟩
  · rw [hset.outstanding, hrel]
    refine congrArg (· - 1) (hsend.outstanding.trans ?_)
    rw [hu, getQp_set_same, hout]
  · rw [hset.dram, hdram, hsend.dram, hu]
    rfl
  · refine PacketDeparts.beforeSet hroute ?_
    rw [← hu]
    have hd : PacketDeparts n (getQp u n) _ u w := hw ▸ sendRdma_departs n 0x12 o.psn (some 0x1F) [] (some v) [] u
    exact ((hd.imp fun _ ⟨hop, hpsn, hsyn, _, horig⟩ => ⟨hop, hpsn, hsyn, horig⟩).onward hon).onward hset.onward

/-- A pending ACK leaves (R95). -/
theorem sendAck_leaves (n : BitVec 24) (s : State) :
    Sends (setQp n { nothingDue (getQp s n) with ackPsn := ackPsnOf (getQp s n) } s) (sendAck n s) ∧
      PacketDeparts n (getQp s n) (fun x => x.opcode = 0x11 ∧ x.psn = ackPsnOf (getQp s n) ∧ x.syndrome = some 0x1F) s (sendAck n s) := by
  have hsends := sendRdma_sends n 0x11 (ackPsnOf (getQp s n)) (some 0x1F) none s
  have hd := sendRdma_departs n 0x11 (ackPsnOf (getQp s n)) (some 0x1F) [] none [] s
  refine ⟨?_, (hd.imp fun _ ⟨hop, hpsn, hsyn, _⟩ => ⟨hop, hpsn, hsyn⟩).onward (setQp_onward n _ _)⟩
  unfold sendAck
  dsimp only
  obtain ⟨d, ps, x, i, st, cd, lr, h⟩ := hsends
  rw [h]
  exact ⟨d, ps, x, i, st, cd, lr, rfl⟩

/-- Settles O45: a packet departs with the route of its QP, and what settles the order afterwards takes nothing back. -/
theorem responsesLeaveInOrder : Obligations.ResponsesLeaveInOrder := by
  unfold Obligations.ResponsesLeaveInOrder
  rintro n s q rfl
  refine ⟨fun o rest hops => ⟨fun lines t hk hb hl ht => ?_, fun lines hk hb hl => ⟨fun hmore => ?_, fun hlast => ?_⟩,
    fun b hk hb hs => ⟨_, responseSend_bad hops hk hb hs, nakRead_ends hk n s⟩,
    fun v hk hv hd => ⟨_, responseSend_atomic hops hk hv, sendAtomic_ends (holdsTracker_atomic hk hd) n v s⟩⟩, fun hu => ?_⟩
  · rw [responseSend_read hops hk hb hl] at ht
    cases ht
    exact sendRead_departs hk n lines s
  · obtain ⟨_, hset, hout, hstate, hack, hun⟩ := readSent_frame o (getQp s n)
    refine ⟨packetSent n o lines s, ?_, ?_⟩
    · rw [responseSend_read hops hk hb hl, sendRead_eq, if_neg hmore]
    · rw [(packetSent_frame n o lines s).1]
      exact ⟨by rw [hset, hops]; rfl, hack, hun, hout, hstate⟩
  · exact ⟨_, responseSend_read hops hk hb hl, sendRead_last hk hlast n lines s⟩
  · refine ⟨sendAck n s, ?_, sendAck_leaves n s⟩
    show execAckDeadline n s = _
    unfold execAckDeadline
    rw [if_pos hu]

end Sys2Proof.Safety

namespace Sys2Proof.Safety
open Sys2Proof.Machine

/-! ### The rate limiter (R71, R72) -/

theorem noteCe_steady (k : Pkt) (s : State) : Steady s (noteCe k s) := by
  have hcount : Steady s (portCount k.port.val 17 1 s) := (portCount_counts _ _ _ _).sends.kept.1
  have hset (v : Qp) (u : State) : Steady u (setQp k.dqp v u) := ⟨rfl, rfl, rfl⟩
  unfold noteCe
  split
  · exact .refl s
  · dsimp only
    split
    · split
      · exact hcount
      · exact ((hcount.trans (hset _ _)).trans (sendFrame_sends (by rfl) _ _ _).kept.1).trans (tenantCount_steady _ _ _ _)
    · exact hcount

theorem establish_steady (n : BitVec 24) (s : State) : Steady s (establish n s) := by
  have hset (v : Qp) : Steady s (setQp n v s) := ⟨rfl, rfl, rfl⟩
  exact ((hset _).trans (tenantCount_steady _ _ _ _)).trans (journalEvent_steady _ _ _ _ _)

/-- The checks that every packet passes change neither the plans nor the clock (R90). -/
theorem admitPacket_steady (k : Pkt) (s : State) : Steady s (admitPacket k s).2 := by
  have hcount (i : Nat) : Steady s (portCount k.port.val i 1 s) := (portCount_counts _ _ _ _).sends.kept.1
  unfold admitPacket
  dsimp only
  split_ifs
  · exact hcount 29
  · exact hcount 24
  · exact hcount 25
  · exact hcount 26
  · exact .refl s
  · exact hcount 27
  · exact hcount 7
  · exact (establish_steady _ s).trans (noteCe_steady k _)
  · exact noteCe_steady k s

theorem limiter_congr {s t : State} (h : t.plans = s.plans) (q : Qp) : limiter t q = limiter s q := by
  unfold limiter classRec
  rw [h]

/-- A context changes beside what port counters do. -/
theorem PortCounts.withQp {s t : State} (n : BitVec 24) (v : Qp) : PortCounts s t → PortCounts (setQp n v s) (setQp n v t) := by
  rintro ⟨x, i, st, cd, lr, rfl⟩
  exact ⟨x, i, st, cd, lr, rfl⟩

theorem PortCounts.qps {s t : State} : PortCounts s t → t.qps = s.qps := by
  rintro ⟨_, _, _, _, _, rfl⟩
  rfl

/-- A CNP that passes the checks is counted; what it does then depends on the one acted on last (R71, R72). -/
theorem cnpReceive_eq {k : Pkt} {s u : State} (hr : packetsRun s k.port.val = true) (ha : admitPacket k s = (true, u)) :
    exec (.cnpReceive k) s = .next (
      if ((getQp u k.dqp).cnpActedAt.map (fun t => decide (s.tank.clockUs < t + 50))).getD false then portCount k.port.val 16 1 u
      else setQp k.dqp (reactCnp s.tank.clockUs (deviceUs s) (limiter u (getQp u k.dqp)) (getQp u k.dqp)) (portCount k.port.val 16 1 u)) := by
  have hplans : u.plans = s.plans := by
    have h := (admitPacket_steady k s).plans
    rwa [ha] at h
  have hqp : getQp (portCount k.port.val 16 1 u) k.dqp = getQp u k.dqp := getQp_congr (portCount_counts _ _ _ _).qps _
  show execCnpReceive k s = _
  unfold execCnpReceive
  simp only [hr, ha, hqp, ← limiter_congr hplans, Bool.not_true, Bool.false_eq_true, if_false]
  split <;> rfl

theorem cnpReceive_acted {k : Pkt} {s u : State} (hr : packetsRun s k.port.val = true) (ha : admitPacket k s = (true, u))
    (h : ∀ n, (getQp u k.dqp).cnpActedAt = some n → n + 50 ≤ s.tank.clockUs) : exec (.cnpReceive k) s =
      .next (setQp k.dqp (reactCnp s.tank.clockUs (deviceUs s) (limiter u (getQp u k.dqp)) (getQp u k.dqp)) (portCount k.port.val 16 1 u)) := by
  rw [cnpReceive_eq hr ha, if_neg]
  cases hq : (getQp u k.dqp).cnpActedAt with
  | none => simp
  | some n => simpa using h n hq

theorem cnpReceive_recent {k : Pkt} {s u : State} {n : Nat} (hr : packetsRun s k.port.val = true) (ha : admitPacket k s = (true, u))
    (hq : (getQp u k.dqp).cnpActedAt = some n) (h : s.tank.clockUs < n + 50) :
    exec (.cnpReceive k) s = .next (portCount k.port.val 16 1 u) := by
  rw [cnpReceive_eq hr ha, if_pos (by simpa [hq] using h)]

/-- The stage of the increase goes up by one, to 255 at most (R72). -/
def nextStage (b : Byte) : Byte := if b = 0xFF then 0xFF else b + 1

theorem nextStage_toNat (b : Byte) : (nextStage b).toNat = min 255 (b.toNat + 1) := by
  unfold nextStage
  split
  · next h =>
    rw [h]
    rfl
  · next h =>
    have hlt : b.toNat ≠ 255 := fun hn => h (BitVec.eq_of_toNat_eq hn)
    have hb := b.isLt
    rw [BitVec.toNat_add]
    show (b.toNat + 1) % 256 = _
    omega

theorem increaseRate_eq (cap : Nat) (c : ClassRec) (q : Qp) : increaseRate cap c q =
    { q with
      stage := nextStage q.stage,
      target := min cap (if (nextStage q.stage).toNat ≤ 5 then q.target else q.target + c.step),
      rate := min cap (((if (nextStage q.stage).toNat ≤ 5 then q.target else q.target + c.step) + q.rate) / 2) } := rfl

theorem rpAlphaDecay_decays {n : BitVec 24} {s : State} (h : (getQp s n).state = .established) : exec (.rpAlphaDecay n) s =
    .next (setQp n { getQp s n with
      alpha := BitVec.ofNat 10 ((1024 - (limiter s (getQp s n)).gain) * (getQp s n).alpha.toNat / 1024) } s) := by
  show execRpAlphaDecay n s = _
  unfold execRpAlphaDecay
  dsimp only
  rw [if_pos h]
  rfl

theorem rpIncrease_increases {n : BitVec 24} {s : State} (h : (getQp s n).state = .established) :
    exec (.rpIncrease n) s = .next (setQp n (increaseRate (qpPortRate s n) (limiter s (getQp s n)) (getQp s n)) s) := by
  show execRpIncrease n s = _
  unfold execRpIncrease
  dsimp only
  rw [if_pos h]

/-- Settles O44: the limiter's record is read and written alone; the checks before it change nothing that it reads. -/
theorem limiterFollowsCnps : Obligations.LimiterFollowsCnps := by
  unfold Obligations.LimiterFollowsCnps
  constructor
  · rintro k s u p q rfl hr ha rfl
    have hcounts := portCount_counts k.port.val 16 1 u
    have hcounted := portCount_counted k.port.val 16 1 u
    refine ⟨fun h => ⟨_, reactCnp s.tank.clockUs (deviceUs s) (limiter u (getQp u k.dqp)) (getQp u k.dqp), cnpReceive_acted hr ha h,
      hcounts.withQp _ _, hcounted, rfl, rfl, rfl, rfl, rfl, rfl, rfl⟩, fun n hn h => ⟨_, cnpReceive_recent hr ha hn h, hcounts, hcounted⟩⟩
  · rintro n s q rfl hq
    refine ⟨rpAlphaDecay_decays hq, _, rpIncrease_increases hq, ?_⟩
    rw [getQp_set_same, increaseRate_eq]
    have hstage := nextStage_toNat (getQp s n).stage
    refine ⟨rfl, hstage, fun h => ?_, fun h => ?_⟩
    · have hlow : (nextStage (getQp s n).stage).toNat ≤ 5 := by omega
      simp only [hlow, if_true, and_self]
    · have hhigh : ¬(nextStage (getQp s n).stage).toNat ≤ 5 := by omega
      simp only [hhigh, if_false, and_self]

end Sys2Proof.Safety

namespace Sys2Proof.Safety
open Sys2Proof.Machine

/-! ### Lane figures and recalibration (R74, R75, R77 to R80) -/

/-- Waiting messages say nothing of a lane (R335). -/
theorem Messages.lanes {s t : State} : Messages s t → t.lanes = s.lanes ∧ t.recal = s.recal ∧ t.tank = s.tank ∧
    ∀ l, laneRuns t l = laneRuns s l := by
  rintro ⟨_, _, _, _, rfl⟩
  exact ⟨rfl, rfl, rfl, fun _ => rfl⟩

theorem getLane_congr {s t : State} (h : t.lanes = s.lanes) (l : Nat) : getLane t l = getLane s l := by
  unfold getLane
  rw [h]

theorem laneQualitySample_sets (lane : Fin 16) (m : LaneSample) (s : State) :
    ∃ t, exec (.laneQualitySample lane m) s = .next t ∧ t = setLane lane.val (getLane t lane.val) s ∧
      (getLane t lane.val).snr = BitVec.ofNat 16 (snrOf m) ∧ (getLane t lane.val).margin = BitVec.ofNat 8 (marginOf m) ∧
      (getLane t lane.val).coeffs = (getLane s lane.val).coeffs ∧
      ((calibration s).2 + 5 ≤ snrOf m → (getLane s lane.val).okSince = some 999 → (getLane t lane.val).lowRaised = false) := by
  refine ⟨_, rfl, ?_⟩
  rw [getLane_set_same]
  refine ⟨rfl, rfl, rfl, rfl, fun hsnr hok => ?_⟩
  simp [hsnr, hok]

/-- The lane goes to the head of the queue, where its port is up and not quiesced (R75, R77). -/
theorem queueLane_urgent (l : Nat) (s : State) : ∃ r, queueLane true l s = { s with recal := r } ∧
    (laneRuns s l = true → r = { s.recal with urgent := l :: s.recal.urgent.filter (· ≠ l), queue := s.recal.queue.filter (· ≠ l) }) := by
  unfold queueLane
  rw [if_pos rfl]
  split
  · exact ⟨_, rfl, fun _ => rfl⟩
  · next h => exact ⟨s.recal, rfl, fun hr => absurd hr h⟩

theorem laneSnrLow_queues {lane : Fin 16} {s : State} (hs : (getLane s lane.val).snr.toNat < (calibration s).2)
    (hl : (getLane s lane.val).lowRaised = false) (hu : (getPort s (lanePort s lane.val)).up = true) :
    ∃ t, exec (.laneSnrLow lane) s = .next t ∧ (getLane t lane.val).lowRaised = true ∧ t.tank = s.tank ∧
      (laneRuns s lane.val = true → t.recal = { s.recal with
        urgent := lane.val :: s.recal.urgent.filter (· ≠ lane.val), queue := s.recal.queue.filter (· ≠ lane.val) }) := by
  obtain ⟨v, hv⟩ : ∃ v : Lane, v = { getLane s lane.val with lowRaised := true } := ⟨_, rfl⟩
  have hset : (setLane lane.val v s).recal = s.recal ∧ laneRuns (setLane lane.val v s) lane.val = laneRuns s lane.val := ⟨rfl, rfl⟩
  obtain ⟨hlanes, hrecal, htank, hruns⟩ := (raise_messages (0x060 + lane.val) 0x10 lane.val (setLane lane.val v s)).lanes
  obtain ⟨w, hw⟩ : ∃ w, w = raise (0x060 + lane.val) 0x10 lane.val (setLane lane.val v s) := ⟨_, rfl⟩
  rw [← hw] at hlanes hrecal htank hruns
  obtain ⟨r, hr, hhead⟩ := queueLane_urgent lane.val w
  rw [hruns, hset.2, hrecal, hset.1] at hhead
  have hraised : (getLane w lane.val).lowRaised = true := by rw [getLane_congr hlanes, getLane_set_same, hv]
  refine ⟨{ w with recal := r }, ?_, hraised, htank, hhead⟩
  show execLaneSnrLow lane s = _
  unfold execLaneSnrLow
  dsimp only
  rw [if_neg (by simp [hl, hu, hs]), ← hr, hw, hv]

theorem recalStart_starts {s : State} {l : Nat} (hp : s.tank.phase = 0x08) (ha : s.recal.active = none) (hn : nextLane s = some l) :
    ∃ t, exec .recalStart s = .next t ∧ t.recal.urgent = s.recal.urgent.filter (· ≠ l) ∧ t.recal.queue = s.recal.queue.filter (· ≠ l) ∧
      t.recal.active = some l ∧ (getLane t l).calibrating = true ∧ (getLane t l).refTemp = laneTemp s l ∧
      (getLane t l).coeffs = (getLane s l).coeffs ∧ t.ports = s.ports := by
  obtain ⟨v, hv⟩ : ∃ v : Lane, v = { getLane s l with
    calibrating := true, refTemp := laneTemp s l, attempts := sat32 (getLane s l).attempts 1, lastMinute := s.tank.minute } := ⟨_, rfl⟩
  obtain ⟨u, hu⟩ : ∃ u, u = { s with recal := {
    urgent := s.recal.urgent.filter (· ≠ l), queue := s.recal.queue.filter (· ≠ l), active := some l } } := ⟨_, rfl⟩
  have hlane : getLane (setLane l v u) l = v := getLane_set_same u l v
  refine ⟨setLane l v u, ?_, ?_⟩
  · show execRecalStart s = _
    unfold execRecalStart
    rw [if_neg (by simp [hp, ha]), hn, hv, hu]
  · rw [hlane, hv, hu]
    exact ⟨rfl, rfl, rfl, rfl, rfl, rfl, rfl⟩

/-! The three ends of an attempt (R79). -/

section
variable {s : State} {l : Nat} {candidate current : W16} (set : List Byte) (ha : s.recal.active = some l)
include ha

theorem recalDecision_fails (hc : candidate.toNat < (calibration s).2) :
    ∃ t, exec (.recalDecision candidate current set) s = .next t ∧ t.recal = { s.recal with active := none } ∧
      (getLane t l).calibrating = false ∧ (getLane t l).marginal = true ∧ (getLane t l).coeffs = (getLane s l).coeffs ∧
      (getLane t l).retryDue = some (s.tank.clockUs + 60000000) := by
  obtain ⟨v, hv⟩ : ∃ v : Lane, v = { getLane s l with
    calibrating := false, marginal := true, retryDue := some (s.tank.clockUs + 60000000),
    failures := if (getLane s l).failures = 0xFF then 0xFF else (getLane s l).failures + 1 } := ⟨_, rfl⟩
  obtain ⟨u, hu⟩ : ∃ u, u = setLane l v { s with recal := { s.recal with active := none } } := ⟨_, rfl⟩
  obtain ⟨hlanes, hrecal, _, _⟩ := (raise_messages (0x060 + l) 0x11 l u).lanes
  have hlane : getLane (raise (0x060 + l) 0x11 l u) l = v := by rw [getLane_congr hlanes, hu, getLane_set_same]
  refine ⟨raise (0x060 + l) 0x11 l u, ?_, hrecal.trans (by rw [hu]; rfl), ?_⟩
  · show execRecalDecision candidate current set s = _
    unfold execRecalDecision
    rw [ha]
    dsimp only
    rw [if_pos hc, hu, hv]
  · rw [hlane, hv]
    exact ⟨rfl, rfl, rfl, rfl⟩

theorem recalDecision_noGain (hf : (calibration s).2 ≤ candidate.toNat) (hc : candidate.toNat + 10 < current.toNat) :
    ∃ t, exec (.recalDecision candidate current set) s = .next t ∧ t.recal = { s.recal with active := none } ∧
      (getLane t l).calibrating = false ∧ (getLane t l).coeffs = (getLane s l).coeffs ∧ PortCounted (lanePort s l) 23 1 s t := by
  obtain ⟨v, hv⟩ : ∃ v : Lane, v = { getLane s l with calibrating := false } := ⟨_, rfl⟩
  obtain ⟨u, hu⟩ : ∃ u, u = setLane l v { s with recal := { s.recal with active := none } } := ⟨_, rfl⟩
  have hkept : CountKept (lanePort s l) 23 s u := .of_ctr (by rw [hu]; rfl)
  obtain ⟨_, _, _, _, _, hm⟩ := portCount_counts (lanePort s l) 23 1 u
  obtain ⟨t, ht⟩ : ∃ t, t = portCount (lanePort s l) 23 1 u := ⟨_, rfl⟩
  have hsame : t.lanes = u.lanes ∧ t.recal = u.recal := by
    rw [ht, hm]
    exact ⟨rfl, rfl⟩
  have hlane : getLane t l = v := by rw [getLane_congr hsame.1, hu, getLane_set_same]
  refine ⟨t, ?_, hsame.2.trans (by rw [hu]; rfl), by rw [hlane, hv], by rw [hlane, hv],
    hkept.counted (ht ▸ portCount_counted _ _ _ _)⟩
  show execRecalDecision candidate current set s = _
  unfold execRecalDecision
  rw [ha]
  dsimp only
  rw [if_neg (by omega), if_pos hc, ht, hu, hv]

theorem recalDecision_swaps (hf : (calibration s).2 ≤ candidate.toNat) (hc : current.toNat ≤ candidate.toNat + 10) :
    ∃ t, exec (.recalDecision candidate current set) s = .next t ∧ t.recal = { s.recal with active := none } ∧
      (getLane t l).calibrating = false ∧ (getLane t l).coeffs = set ∧ (getLane t l).rollback = (getLane s l).coeffs ∧
      (getLane t l).marginal = false := by
  obtain ⟨v, hv⟩ : ∃ v : Lane, v = { getLane s l with
    calibrating := false, marginal := false, retryDue := none, rollback := (getLane s l).coeffs, coeffs := set, accepted := set,
    snrCal := candidate, snrDue := false } := ⟨_, rfl⟩
  obtain ⟨u, hu⟩ : ∃ u, u = { s with recal := { s.recal with active := none } } := ⟨_, rfl⟩
  have hlane : getLane (setLane l v u) l = v := getLane_set_same u l v
  refine ⟨setLane l v u, ?_, ?_⟩
  · show execRecalDecision candidate current set s = _
    unfold execRecalDecision
    rw [ha]
    dsimp only
    rw [if_neg (by omega), if_neg (by omega), hu, hv]
  · rw [hlane, hv, hu]
    exact ⟨rfl, rfl, rfl, rfl, rfl⟩

end

theorem recalRetry_queues {lane : Fin 16} {s : State} (hm : (getLane s lane.val).marginal = true) (hr : (getLane s lane.val).retryDue ≠ none) :
    exec (.recalRetry lane) s = .next (if mayQueue s lane.val then
      { s with recal := { s.recal with queue := s.recal.queue ++ [lane.val] } } else s) := by
  show execRecalRetry lane s = _
  unfold execRecalRetry
  dsimp only
  rw [if_pos ⟨hm, hr⟩]
  rfl

/-- Settles O41: each command writes its lane's record and the queue; a decision has one lemma for each of its ends. -/
theorem lanesAreWatchedAndRecalibrated : Obligations.LanesAreWatchedAndRecalibrated := by
  unfold Obligations.LanesAreWatchedAndRecalibrated
  rintro lane s l rfl
  refine ⟨fun m => laneQualitySample_sets lane m s, laneSnrLow_queues, recalStart_starts, fun candidate current set ha => ?_, fun hm hr => ?_⟩
  · by_cases hf : candidate.toNat < (calibration s).2
    · obtain ⟨t, ht, hrecal, hcal, hmarg, hcoeffs, hretry⟩ := recalDecision_fails (current := current) set ha hf
      exact ⟨t, ht, hrecal, hcal, fun _ => ⟨hmarg, hcoeffs, hretry⟩, fun h => by omega, fun h => by omega⟩
    · by_cases hc : candidate.toNat + 10 < current.toNat
      · obtain ⟨t, ht, hrecal, hcal, hcoeffs, hcount⟩ := recalDecision_noGain set ha (Nat.le_of_not_lt hf) hc
        exact ⟨t, ht, hrecal, hcal, fun h => absurd h hf, fun _ _ => ⟨hcoeffs, hcount⟩, fun _ h => by omega⟩
      · obtain ⟨t, ht, hrecal, hcal, hcoeffs, hroll, hmarg⟩ := recalDecision_swaps set ha (Nat.le_of_not_lt hf) (Nat.le_of_not_lt hc)
        exact ⟨t, ht, hrecal, hcal, fun h => absurd h hf, fun _ h => absurd h hc, fun _ _ => ⟨hcoeffs, hroll, hmarg⟩⟩
  · rw [recalRetry_queues hm hr]
    cases hq : mayQueue s lane.val with
    | true => exact ⟨_, rfl, rfl, rfl, fun _ => rfl, fun h => absurd h (by simp)⟩
    | false => exact ⟨_, rfl, rfl, rfl, fun h => absurd h (by simp), fun _ => rfl⟩

end Sys2Proof.Safety

namespace Sys2Proof.Safety
open Sys2Proof.Machine

/-! ### QUIESCE_PORT (R67) -/

/-- What every command touches says nothing of a port (R298, R309). -/
theorem Commanded.ports {u t : State} : Commanded u t →
    t.dram = u.dram ∧ (∀ p, getPort t p = getPort u p) ∧ ∀ q, members t q = members u q := by
  rintro ⟨_, _, _, _, _, _, _, _, _, _, _, _, _, rfl⟩
  exact ⟨rfl, fun _ => rfl, fun _ => rfl⟩

theorem quiescePrefix_none {f : ChainFrame} {s : State} (hn : field f.payload 0 1 ≤ 15) (hz : field f.payload 2 2 = 0)
    (hp : (getPort s (field f.payload 0 1)).present = true) (ho : field f.payload 1 1 = 1 ∨ field f.payload 1 1 = 2) :
    quiescePrefix f s = none := by
  unfold quiescePrefix
  dsimp only
  rw [if_neg (by omega), if_neg (by omega), if_neg (by omega), if_neg (by simp [hp])]

/-- The recalibration queues without some lanes: an attempt on one of them is abandoned (R80). -/
def recalWithout (ls : List Nat) (r : Recal) : Recal :=
  { urgent := r.urgent.filter (fun l => !ls.contains l), queue := r.queue.filter (fun l => !ls.contains l),
    active := r.active.filter (fun l => !ls.contains l) }

/-- The lanes' records once an attempt on one of some lanes is abandoned (R80). -/
def lanesWithout (ls : List Nat) (r : Recal) (t : Table Lane) : Table Lane :=
  match r.active with
  | some l => if ls.contains l then Map.set Lane.zero l { Map.get Lane.zero l t with calibrating := false } t else t
  | none => t

theorem abandonRecal_eq (ls : List Nat) (s : State) :
    abandonRecal ls s = { s with recal := recalWithout ls s.recal, lanes := lanesWithout ls s.recal s.lanes } := by
  unfold abandonRecal recalWithout lanesWithout
  cases h : s.recal.active with
  | none => simp [h]
  | some l => by_cases hl : l ∈ ls <;> simp [h, hl, setLane, getLane, Option.filter]

/-- A port as QUIESCE_PORT leaves it, with no attempt at recalibration of its lanes (R67, R80). -/
def portDrains (n : Nat) (s : State) : State :=
  abandonRecal (portLanes (quadMode s (n / 4)).1 n) (setPort n { getPort s n with quiesced := true, draining := true } s)

theorem Commanded.withDrain {u t : State} (n : Nat) : Commanded u t → Commanded (portDrains n u) (portDrains n t) := by
  rintro ⟨c, ch, d, j, k, x, y, z, w, i, st, cd, lr, rfl⟩
  unfold portDrains
  rw [abandonRecal_eq, abandonRecal_eq]
  exact ⟨c, ch, d, j, k, x, y, z, w, i, st, cd, lr, rfl⟩

theorem quiesceRule_drains {f : ChainFrame} {s : State} (hn : field f.payload 0 1 ≤ 15) (hz : field f.payload 2 2 = 0)
    (hp : (getPort s (field f.payload 0 1)).present = true) (ho : field f.payload 1 1 = 1)
    (hq : (getPort s (field f.payload 0 1)).quiesced = false) (hm : members s (field f.payload 0 1 / 4) ≠ [field f.payload 0 1]) :
    quiesceRule f s = accepted [] (portDrains (field f.payload 0 1) s) := by
  unfold quiesceRule
  rw [quiescePrefix_none hn hz hp (.inl ho)]
  dsimp only
  rw [if_neg (by simp [hq]), if_neg hm]
  rfl

theorem resumeRule_resumes {f : ChainFrame} {s : State} (hn : field f.payload 0 1 ≤ 15) (hz : field f.payload 2 2 = 0)
    (hp : (getPort s (field f.payload 0 1)).present = true) (ho : field f.payload 1 1 = 2) :
    resumeRule f s = accepted [] (changePort (field f.payload 0 1) (fun r => { r with quiesced := false, draining := false }) s) := by
  unfold resumeRule
  rw [quiescePrefix_none hn hz hp (.inr ho)]

/-- Settles O8: both operations are read off their rules, in a state that differs from `s` in nothing that a port's record shows. -/
theorem quiesceTakesPortOut : Obligations.QuiesceTakesPortOut := by
  unfold Obligations.QuiesceTakesPortOut
  rintro p f s n
  refine ⟨?_, fun q hd => ?_⟩
  · rintro hr rfl hn hz hp
    refine ⟨fun ho hq hm => ?_, fun ho => ?_⟩
    · obtain ⟨t, ht, hc, hans⟩ := runCommand_carried (rule := quiesceRule f) (u := portDrains (field f.payload 0 1) s) (pl := []) hr (.inr rfl)
        fun s1 h1 => by
          obtain ⟨_, hport, hmem⟩ := h1.ports
          rw [quiesceRule_drains hn hz (by rw [hport, hp]) ho (by rw [hport, hq]) (by rw [hmem]; exact hm)]
          exact ⟨rfl, rfl, h1.withDrain _⟩
      refine ⟨t, ?_, hans, hc⟩
      show execQuiescePort p f s = _
      unfold execQuiescePort
      rw [if_neg (by omega), ht]
    · have hrule (s1 : State) (h1 : Commanded s s1) : resumeRule f s1 =
          accepted [] (changePort (field f.payload 0 1) (fun r => { r with quiesced := false, draining := false }) s1) := by
        obtain ⟨_, hport, _⟩ := h1.ports
        exact resumeRule_resumes hn hz (by rw [hport, hp]) ho
      obtain ⟨t, s1, ht, h1, hc, hans⟩ := runCommand_acts (rule := resumeRule f) (pl := []) hr (.inr rfl) fun s1 h1 => by
        rw [hrule s1 h1]
        exact ⟨rfl, rfl⟩
      rw [hrule s1 h1] at hc
      obtain ⟨hdram, hport, _⟩ := hc.ports
      obtain ⟨⟨_, hkept, _⟩, l, hl, _⟩ := changePort_frame (field f.payload 0 1) (fun r => { r with quiesced := false, draining := false }) s1
      have hfin : getPort t (field f.payload 0 1) = _ := (hport _).trans hl
      refine ⟨t, ?_, hans, by rw [hfin], by rw [hfin], hdram.trans (hkept.trans h1.ports.1)⟩
      show execQuiescePortResume p f s = _
      unfold execQuiescePortResume
      rw [if_pos ho, ht]
  · show execQuiesceDrainEnd q s = _
    unfold execQuiesceDrainEnd
    dsimp only
    rw [if_pos hd]

end Sys2Proof.Safety

namespace Sys2Proof.Safety
open Sys2Proof.Machine

/-! ## Requests and their contexts

What the rules of the remote memory service change: one frame for what serving a QP touches, and one relation between a context and
itself after its order has been settled. -/

/-! ### What serving a QP changes (R88, R95, R96) -/

/-- Nothing but the QP contexts, the tenants' counters with the minute records they feed, the journal, and what a frame that leaves a
data port touches differs (R81, R88, R125). -/
def Serves (u t : State) : Prop :=
  ∃ (q : Table Qp) (x : Table Nat) (r : Records) (j : Journal),
    Sends { u with qps := q, ctr := { u.ctr with tenant := x }, records := r, journal := j } t

theorem Sends.serves {s t : State} (h : Sends s t) : Serves s t := ⟨s.qps, s.ctr.tenant, s.records, s.journal, h⟩

theorem Events.serves {s t : State} : Events s t → Serves s t := by
  rintro ⟨j, h⟩
  exact ⟨s.qps, s.ctr.tenant, s.records, j, h.counts.sends⟩

theorem Serves.refl (s : State) : Serves s s := (Sends.refl s).serves

theorem Serves.trans {a b c : State} : Serves a b → Serves b c → Serves a c := by
  rintro ⟨q, x, r, j, d, p, y, i, st, cd, lr, rfl⟩ ⟨q', x', r', j', d', p', y', i', st', cd', lr', rfl⟩
  exact ⟨q', x', r', j', d', p', y', i', st', cd', lr', rfl⟩

theorem setQp_serves (n : BitVec 24) (v : Qp) (s : State) : Serves s (setQp n v s) := ⟨_, _, _, _, .refl _⟩

theorem tenantCount_serves (tenant k add : Nat) (s : State) : Serves s (tenantCount tenant k add s) := by
  have hset (x : Table Nat) (r : Records) : Serves s { s with ctr := { s.ctr with tenant := x }, records := r } := ⟨_, _, _, _, .refl _⟩
  unfold tenantCount
  dsimp only
  split
  · exact (hset _ _).trans (raise_messages _ _ _ _).events.serves
  · exact hset _ _

theorem tenantCount_qps (tenant k add : Nat) (s : State) : (tenantCount tenant k add s).qps = s.qps := by
  obtain ⟨_, _, hqps⟩ := (tenantCount_trails 0 tenant k add s).flushes.kept
  exact hqps

theorem Serves.path {s t : State} : Serves s t → t.path = s.path := by
  rintro ⟨_, _, _, _, _, _, _, _, _, _, _, rfl⟩
  rfl

theorem Serves.trackers {s t : State} : Serves s t → t.trackers = s.trackers := by
  rintro ⟨_, _, _, _, _, _, _, _, _, _, _, rfl⟩
  rfl

/-- The stored memories of requests: no byte of the array, no region entry, no key slot and no flash byte differs. -/
structure StoreKept (s t : State) : Prop where
  dram : t.dram = s.dram
  regions : t.regions = s.regions
  keys : t.keys = s.keys
  flash : t.flash = s.flash

theorem StoreKept.trans {a b c : State} (h : StoreKept a b) (h' : StoreKept b c) : StoreKept a c :=
  ⟨h'.dram.trans h.dram, h'.regions.trans h.regions, h'.keys.trans h.keys, h'.flash.trans h.flash⟩

theorem Serves.store {s t : State} : Serves s t → StoreKept s t := by
  rintro ⟨_, _, _, _, _, _, _, _, _, _, _, rfl⟩
  exact ⟨rfl, rfl, rfl, rfl⟩

/-! ### What settling an order leaves of its context (R88, R95) -/

/-- Two contexts that agree in what the checks of requests read beside the open WRITE: only the order, what it is acknowledged by, and
the like differ. -/
structure Reordered (q r : Qp) : Prop where
  state : r.state = q.state
  epsn : r.epsn = q.epsn
  seqNak : r.seqNak = q.seqNak
  outstanding : r.outstanding = q.outstanding
  mtu : r.mtu = q.mtu

theorem Reordered.refl (q : Qp) : Reordered q q := ⟨rfl, rfl, rfl, rfl, rfl⟩

theorem Reordered.trans {a b c : Qp} (h : Reordered a b) (h' : Reordered b c) : Reordered a c :=
  ⟨h'.state.trans h.state, h'.epsn.trans h.epsn, h'.seqNak.trans h.seqNak, h'.outstanding.trans h.outstanding, h'.mtu.trans h.mtu⟩

/-- Nothing but the frame of `Serves` differs, of the contexts only that of `n`, and of that only its order and acknowledgement. -/
structure Replies (n : BitVec 24) (s t : State) : Prop where
  frame : Serves s t
  own : Reordered (getQp s n) (getQp t n)
  others : ∀ x, x ≠ n → getQp t x = getQp s x

theorem Replies.refl (n : BitVec 24) (s : State) : Replies n s s := ⟨.refl s, .refl _, fun _ _ => rfl⟩

theorem Replies.trans {n : BitVec 24} {a b c : State} (h : Replies n a b) (h' : Replies n b c) : Replies n a c :=
  ⟨h.frame.trans h'.frame, h.own.trans h'.own, fun x hx => (h'.others x hx).trans (h.others x hx)⟩

theorem Serves.replies {s t : State} (h : Serves s t) (hq : t.qps = s.qps) (n : BitVec 24) : Replies n s t :=
  ⟨h, by rw [getQp_congr hq]; exact .refl _, fun x _ => getQp_congr hq x⟩

theorem setQp_replies {n : BitVec 24} {v : Qp} {s : State} (h : Reordered (getQp s n) v) : Replies n s (setQp n v s) :=
  ⟨setQp_serves n v s, by rw [getQp_set_same]; exact h, fun _ hx => getQp_set_other s hx v⟩

theorem tenantCount_replies (n : BitVec 24) (tenant k add : Nat) (s : State) : Replies n s (tenantCount tenant k add s) :=
  (tenantCount_serves tenant k add s).replies (tenantCount_qps tenant k add s) n

theorem Sends.replies {s t : State} (h : Sends s t) (n : BitVec 24) : Replies n s t := by
  obtain ⟨_, _, hqps, _⟩ := h.kept
  exact h.serves.replies hqps n

theorem sendAck_replies (n : BitVec 24) (s : State) : Replies n s (sendAck n s) := by
  have h := (sendRdma_sends n 0x11 (ackPsnOf (getQp s n)) (some 0x1F) none s).replies n
  refine h.trans (setQp_replies ?_)
  exact ⟨h.own.state.symm, h.own.epsn.symm, h.own.seqNak.symm, h.own.outstanding.symm, h.own.mtu.symm⟩

theorem sendNak_replies (n psn : BitVec 24) (syn : Byte) (s : State) : Replies n s (sendNak n psn syn s) := by
  have h := (sendRdma_sends n 0x11 psn (some syn) none s).replies n
  refine Replies.trans ?_ (tenantCount_replies n _ _ _ _)
  exact h.trans (setQp_replies ⟨rfl, rfl, rfl, rfl, rfl⟩)

theorem settleOps_replies (n : BitVec 24) (fuel : Nat) (s : State) : Replies n s (settleOps n fuel s) := by
  induction fuel generalizing s with
  | zero => exact .refl n s
  | succ fuel ih =>
    unfold settleOps
    dsimp only
    split
    · exact .refl n s
    · next o rest _ =>
      split
      · have hrest : Reordered (getQp s n) { getQp s n with ops := rest } := ⟨rfl, rfl, rfl, rfl, rfl⟩
        exact ((setQp_replies hrest).trans (sendNak_replies n _ _ _)).trans (ih _)
      · split
        · have hdone : Reordered (getQp s n) (notePacketDone o { getQp s n with ops := rest }) := ⟨rfl, rfl, rfl, rfl, rfl⟩
          exact (setQp_replies hdone).trans (ih _)
        · exact .refl n s

theorem settleQp_replies (n : BitVec 24) (s : State) : Replies n s (settleQp n s) := by
  have h := settleOps_replies n (getQp s n).ops.length s
  unfold settleQp
  dsimp only
  split
  · exact h.trans (sendAck_replies n _)
  · exact h

theorem countDone_replies (n : BitVec 24) (waited : Bool) (s : State) : Replies n s (countDone n waited s) :=
  setQp_replies ⟨rfl, rfl, rfl, rfl, rfl⟩

theorem countApplied_replies (n : BitVec 24) (tenant : Nat) (o : QpOp) (s : State) : Replies n s (countApplied tenant o s) := by
  have h := (tenantCount_replies n tenant 1 o.len s).trans (tenantCount_replies n tenant 4 1 _)
  unfold countApplied
  dsimp only
  split
  · exact h.trans (tenantCount_replies n tenant 3 1 _)
  · exact h

/-! ### A request joins the order (R88, R94 to R96) -/

/-- A context with one more request in its order, under the next serial number. -/
def joined (q : Qp) (o : QpOp) : Qp :=
  { q with ops := q.ops.insertIdx (opPlace o.psn q.ops) { o with serial := q.serial }, serial := q.serial + 1 }

theorem insertOp_eq (n : BitVec 24) (o : QpOp) (s : State) : insertOp n o s = setQp n (joined (getQp s n) o) s := rfl

theorem insertOp_replies (n : BitVec 24) (o : QpOp) (s : State) : Replies n s (insertOp n o s) :=
  setQp_replies ⟨rfl, rfl, rfl, rfl, rfl⟩

theorem mem_joined (q : Qp) (o : QpOp) : { o with serial := q.serial } ∈ (joined q o).ops := by
  have hplace : opPlace o.psn q.ops ≤ q.ops.length := (List.takeWhile_prefix _).length_le
  exact (List.mem_insertIdx hplace).mpr (.inl rfl)

/-- A context with one more READ or atomic in its order, and one more of its slots taken. -/
def slotTaken (q : Qp) (o : QpOp) : Qp :=
  { joined q o with outstanding := q.outstanding + 1, oldestPsn := oldestOutstanding (joined q o).ops }

theorem getQp_takeSlot (n : BitVec 24) (o : QpOp) (s : State) : getQp (takeSlot n o s) n = slotTaken (getQp s n) o := by
  unfold takeSlot
  rw [insertOp_eq]
  show getQp (setQp n _ _) n = _
  rw [getQp_set_same, getQp_set_same]
  rfl

theorem takeSlot_store (n : BitVec 24) (o : QpOp) (s : State) : StoreKept s (takeSlot n o s) := by
  unfold takeSlot
  exact (insertOp_replies n o s).frame.store.trans ⟨rfl, rfl, rfl, rfl⟩

/-! ### A NAK takes its place (R90, R93, R96) -/

theorem queueNak_replies (n psn : BitVec 24) (syn : Byte) (s : State) : Replies n s (queueNak n psn syn false s) := by
  unfold queueNak
  simp only [Bool.false_eq_true, if_false]
  exact (insertOp_replies n _ s).trans (settleQp_replies n _)

theorem dropOps_context (n : BitVec 24) (keep : Nat) (s : State) : (getQp (dropOps n keep s) n).state = (getQp s n).state ∧
    (getQp (dropOps n keep s) n).epsn = (getQp s n).epsn := by
  have h : getQp (dropOps n keep s) n = getQp (setQp n { getQp s n with
      ops := (getQp s n).ops.take keep,
      outstanding := (getQp s n).outstanding - (((getQp s n).ops.drop keep).filter holdsTracker).length,
      oldestPsn := oldestOutstanding ((getQp s n).ops.take keep) } s) n := rfl
  rw [h, getQp_set_same]
  exact ⟨rfl, rfl⟩

/-- An established QP that a fatal NAK is decided for is in error; its expected PSN stands (R96). -/
theorem enterError_established {n : BitVec 24} {s : State} (h : (getQp s n).state = .established) (keep : Nat) :
    (getQp (enterError n keep s) n).state = .error ∧ (getQp (enterError n keep s) n).epsn = (getQp s n).epsn ∧
      (enterError n keep s).dram = s.dram := by
  obtain ⟨hstate, hepsn⟩ := dropOps_context n keep s
  have heq : enterError n keep s = tenantCount (getQp (dropOps n keep s) n).tenant 25 1
      (setQp n { getQp (dropOps n keep s) n with state := .error } (dropOps n keep s)) := by
    unfold enterError errorQp
    simp [h, hstate]
  rw [heq, getQp_congr (tenantCount_qps _ _ _ _), getQp_set_same]
  exact ⟨rfl, hepsn, (tenantCount_serves _ _ _ _).store.dram⟩

theorem queueNak_fatal {n psn : BitVec 24} {syn : Byte} {s : State} (h : (getQp s n).state = .established) :
    (getQp (queueNak n psn syn true s) n).state = .error ∧ (getQp (queueNak n psn syn true s) n).epsn = (getQp s n).epsn ∧
      (queueNak n psn syn true s).dram = s.dram := by
  have hjoin := insertOp_replies n { QpOp.zero with psn := psn, syndrome := syn } s
  obtain ⟨hstate, hepsn, hdram⟩ := enterError_established (hjoin.own.state.trans h) (opPlace psn (getQp s n).ops + 1)
  have hset := settleQp_replies n (enterError n (opPlace psn (getQp s n).ops + 1)
    (insertOp n { QpOp.zero with psn := psn, syndrome := syn } s))
  exact ⟨hset.own.state.trans hstate, (hset.own.epsn.trans hepsn).trans hjoin.own.epsn, hset.frame.store.dram.trans hdram⟩

/-! ### Line requests enter their queues (R192) -/

/-- Nothing but the memory path's queues and the Tank's pending-write lists differs. -/
def Queues (s t : State) : Prop := ∃ p k, t = { s with path := p, tank := k }

theorem Queues.refl (s : State) : Queues s s := ⟨_, _, rfl⟩

theorem Queues.trans {a b c : State} : Queues a b → Queues b c → Queues a c := by
  rintro ⟨_, _, rfl⟩ ⟨p, k, rfl⟩
  exact ⟨p, k, rfl⟩

theorem enterClass_queues (r : LineReq) (s : State) : Queues s (enterClass r s) := by
  unfold enterClass
  dsimp only
  split
  · exact ⟨_, _, rfl⟩
  · exact ⟨_, s.tank, rfl⟩

theorem drainList_queues (l : List LineReq) (blocked : List (BitVec 24)) (s : State) : Queues s (drainList l blocked s) := by
  induction l generalizing blocked s with
  | nil => exact .refl s
  | cons r l ih =>
    unfold drainList
    split
    · exact Queues.trans ⟨_, s.tank, rfl⟩ (ih _ _)
    · exact (enterClass_queues r s).trans (ih _ _)

theorem submit_queues (l : List LineReq) (s : State) : Queues s (submit l s) :=
  Queues.trans (b := { s with path := { s.path with backlog := s.path.backlog ++ l } }) ⟨_, s.tank, rfl⟩
    (Queues.trans ⟨_, s.tank, rfl⟩ (drainList_queues _ _ _))

theorem Queues.qps {s t : State} : Queues s t → t.qps = s.qps := by
  rintro ⟨_, _, rfl⟩
  rfl

theorem Queues.store {s t : State} : Queues s t → StoreKept s t := by
  rintro ⟨_, _, rfl⟩
  exact ⟨rfl, rfl, rfl, rfl⟩

end Sys2Proof.Safety

namespace Sys2Proof.Safety
open Sys2Proof.Machine

/-! ## Request packets (R83, R90 to R99)

### The checks that every packet passes (R90) -/

theorem establish_context (n : BitVec 24) (s : State) : (getQp (establish n s) n).state = .established ∧
    (getQp (establish n s) n).wasEstablished = true ∧ ∀ x, x ≠ n → getQp (establish n s) x = getQp s x := by
  have hqps (ty : Byte) (a : List Byte) (u : State) : (journalEvent 0x080 ty 0 a u).qps = u.qps := by
    obtain ⟨_, _, _, _, _, h⟩ := journalEvent_events 0x080 ty 0 a u
    rw [h]
  unfold establish
  dsimp only
  simp only [getQp_congr (hqps _ _ _), getQp_congr (tenantCount_qps _ _ _ _), getQp_set_same, true_and]
  exact fun x hx => getQp_set_other s hx _

theorem establish_serves (n : BitVec 24) (s : State) : Serves s (establish n s) :=
  ((setQp_serves _ _ s).trans (tenantCount_serves _ _ _ _)).trans (journalEvent_events _ _ _ _ _).serves

theorem noteCe_replies (k : Pkt) (s : State) : Replies k.dqp s (noteCe k s) := by
  have hcount := (portCount_counts k.port.val 17 1 s).sends.replies k.dqp
  have hqp : getQp (portCount k.port.val 17 1 s) k.dqp = getQp s k.dqp := getQp_congr (portCount_counts _ _ _ _).qps _
  unfold noteCe
  split
  · exact .refl _ s
  · dsimp only
    split
    · split
      · exact hcount
      · refine ((hcount.trans (setQp_replies ?_)).trans ((sendFrame_sends (by rfl) _ _ _).replies _)).trans (tenantCount_replies _ _ _ _ _)
        rw [hqp]
        exact ⟨rfl, rfl, rfl, rfl, rfl⟩
    · exact hcount

/-- A packet that passes checks 1 to 4 finds its QP established, or establishes it (R90, R103). -/
theorem admitPacket_admitted {k : Pkt} {s u : State} (h : admitPacket k s = (true, u)) :
    Serves s u ∧ (getQp u k.dqp).state = .established := by
  unfold admitPacket at h
  dsimp only at h
  split_ifs at h with _ _ _ hfree hdead _ _ hconn
  all_goals simp only [Prod.mk.injEq, Bool.false_eq_true, false_and, true_and] at h
  · rw [← h]
    have hce := noteCe_replies k (establish k.dqp s)
    exact ⟨(establish_serves _ s).trans hce.frame, hce.own.state.trans (establish_context k.dqp s).1⟩
  · rw [← h]
    have hce := noteCe_replies k s
    refine ⟨hce.frame, hce.own.state.trans ?_⟩
    cases hst : (getQp s k.dqp).state <;> simp_all

/-! ### How a request packet reaches its rule (R90, R92) -/

theorem exec_request {k : Pkt} {o : ReqOp} {c : Instr} (h : RequestOf k o c) (s : State) : exec c s = .next (takeRequest o k s) := by
  simp only [RequestOf, List.mem_cons, Prod.mk.injEq, List.not_mem_nil, or_false] at h
  rcases h with ⟨rfl, rfl⟩ | ⟨rfl, rfl⟩ | ⟨rfl, rfl⟩ | ⟨rfl, rfl⟩ | ⟨rfl, rfl⟩ | ⟨rfl, rfl⟩ | ⟨rfl, rfl⟩ <;> rfl

theorem psnClass_eq (psn epsn : BitVec 24) : psnClass psn epsn =
    if (psn - epsn).toNat = 0 then .expected else if (psn - epsn).toNat ≤ 2 ^ 23 - 1 then .ahead else .duplicate := by
  have hlt : (psn - epsn).toNat < 2 ^ 23 ↔ (psn - epsn).toNat ≤ 2 ^ 23 - 1 := by omega
  unfold psnClass
  simp only [hlt]

theorem psnClass_self (psn : BitVec 24) : psnClass psn psn = .expected := by simp [psnClass]

section
variable {k : Pkt} {s u : State} (hr : packetsRun s k.port.val = true)
include hr

theorem takeRequest_rejected (o : ReqOp) (ha : admitPacket k s = (false, u)) : takeRequest o k s = u := by
  unfold takeRequest
  simp [hr, ha]

variable (ha : admitPacket k s = (true, u))
include ha

theorem takeRequest_expected (o : ReqOp) (hc : psnClass k.psn (getQp u k.dqp).epsn = .expected) :
    takeRequest o k s = takeExpected o k u := by
  unfold takeRequest
  simp [hr, ha, hc]

theorem takeRequest_ahead (o : ReqOp) (hc : psnClass k.psn (getQp u k.dqp).epsn = .ahead) : takeRequest o k s = takeAhead k u := by
  unfold takeRequest
  simp [hr, ha, hc]

theorem takeRequest_duplicate (o : ReqOp) (hc : psnClass k.psn (getQp u k.dqp).epsn = .duplicate) :
    takeRequest o k s = takeDuplicate o k u := by
  unfold takeRequest
  simp [hr, ha, hc]

end

/-! ### Checks 6 to 17 (R90) -/

theorem checkRequest_congr {s t : State} (h : t.regions = s.regions) (q : Qp) (o : ReqOp) (k : Pkt) (dup reused : Bool) :
    checkRequest t q o k dup reused = checkRequest s q o k dup reused := by
  unfold checkRequest getRegion
  rw [h]

/-- The flag of a NAK sent for sequence is no matter of the checks. -/
theorem checkRequest_seqNak (s : State) (q : Qp) (b : Bool) (o : ReqOp) (k : Pkt) (dup reused : Bool) :
    checkRequest s { q with seqNak := b } o k dup reused = checkRequest s q o k dup reused := rfl

theorem trackerFree_congr {s t : State} {q r : Qp} (h : t.trackers = s.trackers) (hi : r.iface = q.iface) :
    trackerFree t r = trackerFree s q := by
  unfold trackerFree
  rw [h, hi]

theorem mtuBytes_pos (code : Nat) : 0 < mtuBytes code := Nat.two_pow_pos _

/-- Of the WRITE packets only an Only may have no bytes (R90, check 8). -/
theorem writeOnly_of_empty {s : State} {q : Qp} {o : ReqOp} {k : Pkt} (h : checkRequest s q o k false false = none)
    (ho : o.answers = false) (hp : k.payload = []) : o = .writeOnly := by
  have hlen : lengthsOk q o k = true := by
    unfold checkRequest at h
    dsimp only at h
    split_ifs at h <;> simp_all
  have hmtu := mtuBytes_pos q.mtu.toNat
  cases o <;> simp_all [lengthsOk, ReqOp.answers]

/-! ### Execution (R97, R99) -/

theorem executeRead_context (k : Pkt) (region dma len : Nat) (dup msg : Bool) (s : State) :
    StoreKept s (executeRead k region dma len dup msg s) ∧
      ∃ x, getQp (executeRead k region dma len dup msg s) k.dqp = slotTaken (getQp s k.dqp) x ∧
        x.psn = k.psn ∧ x.kind = .read ∧ x.sent = 0 ∧ x.dup = dup ∧ x.lastOfMsg = msg := by
  unfold executeRead
  extract_lets q _ op s1
  have hcount := tenantCount_serves q.tenant 2 1 s
  have hq := submit_queues ((lineParts dma len).map (fun p => lineReq s .read k region p [])) s1
  refine ⟨(hcount.store.trans (takeSlot_store k.dqp op _)).trans hq.store, op, ?_, rfl, rfl, rfl, rfl, rfl⟩
  rw [getQp_congr hq.qps, getQp_takeSlot, getQp_congr (tenantCount_qps _ _ _ _)]

theorem executeAtomic_context (k : Pkt) (add : Bool) (region dma : Nat) (s : State) :
    StoreKept s (executeAtomic k add region dma s) ∧
      ∃ x, getQp (executeAtomic k add region dma s) k.dqp = slotTaken (getQp s k.dqp) x ∧ x.psn = k.psn ∧ x.kind = .atomic := by
  unfold executeAtomic
  extract_lets _ op s1
  have hq := submit_queues [lineReq s (if add then .fetchAdd else .cmpSwap) k region { dma := dma / 64 * 64, off := dma % 64, len := 8 } []] s1
  exact ⟨(takeSlot_store k.dqp op s).trans hq.store, op, by rw [getQp_congr hq.qps, getQp_takeSlot], rfl, rfl⟩

/-- The request of a WRITE packet in its QP's order. -/
def writeOp (k : Pkt) (dma : Nat) (last : Bool) (now : Nat) : QpOp :=
  { QpOp.zero with
    kind := .write, psn := k.psn, dma := dma, len := k.payload.length, linesLeft := (lineParts dma k.payload.length).length,
    toPass := (lineParts dma k.payload.length).length, doneAt := now, lastOfMsg := last }

theorem lineParts_ne_nil {len : Nat} (h : len ≠ 0) (dma : Nat) : lineParts dma len ≠ [] := by
  unfold lineParts
  simp only [if_neg h, ne_eq, List.map_eq_nil_iff, List.range_eq_nil]
  omega

/-- A WRITE packet without bytes is done at once (R97). -/
theorem executeWrite_empty {k : Pkt} (hp : k.payload = []) (region dma : Nat) (last : Bool) (s : State) :
    executeWrite k region dma last s = settleQp k.dqp (countDone k.dqp false
      (countApplied (getQp s k.dqp).tenant (writeOp k dma last s.tank.clockUs) (insertOp k.dqp (writeOp k dma last s.tank.clockUs) s))) := by
  have hparts : lineParts dma k.payload.length = [] := by simp [lineParts, hp]
  unfold executeWrite
  dsimp only
  rw [if_pos hparts]
  rfl

theorem executeWrite_queued {k : Pkt} (hp : k.payload ≠ []) (region dma : Nat) (last : Bool) (s : State) :
    Queues (insertOp k.dqp (writeOp k dma last s.tank.clockUs) s) (executeWrite k region dma last s) := by
  unfold executeWrite
  dsimp only
  rw [if_neg (lineParts_ne_nil (by simpa using hp) dma)]
  exact submit_queues _ _

theorem executeWrite_context (k : Pkt) (region dma : Nat) (last : Bool) (s : State) :
    StoreKept s (executeWrite k region dma last s) ∧ Reordered (getQp s k.dqp) (getQp (executeWrite k region dma last s) k.dqp) := by
  have hjoin := insertOp_replies k.dqp (writeOp k dma last s.tank.clockUs) s
  by_cases hp : k.payload = []
  · have h := ((hjoin.trans (countApplied_replies _ (getQp s k.dqp).tenant (writeOp k dma last s.tank.clockUs) _)).trans
      (countDone_replies _ false _)).trans (settleQp_replies _ _)
    rw [executeWrite_empty hp]
    exact ⟨h.frame.store, h.own⟩
  · have hq := executeWrite_queued hp region dma last s
    exact ⟨hjoin.frame.store.trans hq.store, by rw [getQp_congr hq.qps]; exact hjoin.own⟩

/-- An accepted READ or atomic takes a slot of its QP (R88, R91). -/
theorem executeRequest_answers {o : ReqOp} (ho : o.answers = true) (k : Pkt) (dup msg : Bool) (s : State) :
    ∃ x, getQp (executeRequest o k dup msg s) k.dqp = slotTaken (getQp s k.dqp) x ∧ x.psn = k.psn ∧
      x.kind = (if o = .read then .read else .atomic) ∧ (o = .read → x.sent = 0 ∧ x.dup = dup ∧ x.lastOfMsg = msg) := by
  unfold executeRequest
  cases o
  case read =>
    obtain ⟨_, x, hx, hpsn, hkind, hrest⟩ := executeRead_context k (rkeyRegion (accessKey (getQp s k.dqp) .read k))
      (accessDma (getRegion s (rkeyRegion (accessKey (getQp s k.dqp) .read k))) (getQp s k.dqp) .read k) k.dmaLen.toNat dup msg s
    exact ⟨x, hx, hpsn, hkind, fun _ => hrest⟩
  case cmpSwap =>
    obtain ⟨_, x, hx, hpsn, hkind⟩ := executeAtomic_context k false (rkeyRegion (accessKey (getQp s k.dqp) .cmpSwap k))
      (accessDma (getRegion s (rkeyRegion (accessKey (getQp s k.dqp) .cmpSwap k))) (getQp s k.dqp) .cmpSwap k) s
    exact ⟨x, hx, hpsn, hkind, fun h => by cases h⟩
  case fetchAdd =>
    obtain ⟨_, x, hx, hpsn, hkind⟩ := executeAtomic_context k true (rkeyRegion (accessKey (getQp s k.dqp) .fetchAdd k))
      (accessDma (getRegion s (rkeyRegion (accessKey (getQp s k.dqp) .fetchAdd k))) (getQp s k.dqp) .fetchAdd k) s
    exact ⟨x, hx, hpsn, hkind, fun h => by cases h⟩
  all_goals simp [ReqOp.answers] at ho

/-- The packet ends its WRITE message. -/
def endsMessage (o : ReqOp) : Bool := o = .writeLast || o = .writeOnly

theorem executeRequest_writes {o : ReqOp} (ho : o.answers = false) (k : Pkt) (dup msg : Bool) (s : State) :
    ∃ region dma, executeRequest o k dup msg s = executeWrite k region dma (endsMessage o) s := by
  unfold executeRequest
  cases o
  case read | cmpSwap | fetchAdd => simp [ReqOp.answers] at ho
  all_goals exact ⟨_, _, rfl⟩

theorem executeRequest_store (o : ReqOp) (k : Pkt) (dup msg : Bool) (s : State) : StoreKept s (executeRequest o k dup msg s) := by
  unfold executeRequest
  cases o
  case read => exact (executeRead_context _ _ _ _ _ _ _).1
  case cmpSwap | fetchAdd => exact (executeAtomic_context _ _ _ _ _).1
  all_goals exact (executeWrite_context _ _ _ _ _).1

/-- A context with the slot taken that an operation needs: one for a READ or an atomic (R88, R91). -/
def slotted (o : ReqOp) (q : Qp) : Qp := { q with outstanding := q.outstanding + (if o.answers then 1 else 0) }

/-- Beside the slot that a READ or atomic takes, an accepted request changes no more of its context than its order and acknowledgement. -/
theorem executeRequest_context (o : ReqOp) (k : Pkt) (dup msg : Bool) (s : State) :
    Reordered (slotted o (getQp s k.dqp)) (getQp (executeRequest o k dup msg s) k.dqp) := by
  unfold slotted
  cases ho : o.answers
  · obtain ⟨region, dma, heq⟩ := executeRequest_writes ho k dup msg s
    obtain ⟨h1, h2, h3, h4, h5⟩ := (executeWrite_context k region dma (endsMessage o) s).2
    rw [heq]
    exact ⟨h1, h2, h3, h4, h5⟩
  · obtain ⟨x, hx, _⟩ := executeRequest_answers ho k dup msg s
    rw [hx]
    exact ⟨rfl, rfl, rfl, rfl, rfl⟩

end Sys2Proof.Safety

namespace Sys2Proof.Safety
open Sys2Proof.Machine

/-! ### The expected packet (R90, R92) -/

/-- A context with no NAK out for sequence. -/
def inSequence (q : Qp) : Qp := { q with seqNak := false }

/-- The QP has no NAK out for sequence any more. -/
def nakCleared (n : BitVec 24) (s : State) : State := setQp n (inSequence (getQp s n)) s

theorem nakCleared_context (n : BitVec 24) (s : State) : getQp (nakCleared n s) n = inSequence (getQp s n) := getQp_set_same s n _

/-- The checks of a request do not read the flag of a NAK for sequence. -/
theorem checkRequest_nakCleared (n : BitVec 24) (s : State) (o : ReqOp) (k : Pkt) (dup reused : Bool) :
    checkRequest (nakCleared n s) (inSequence (getQp s n)) o k dup reused = checkRequest s (getQp s n) o k dup reused :=
  checkRequest_congr rfl _ _ _ _ _

theorem trackerFree_nakCleared (n : BitVec 24) (s : State) :
    trackerFree (nakCleared n s) (inSequence (getQp s n)) = trackerFree s (getQp s n) := rfl

/-- The context once its request is executed: the next PSN is expected, and a WRITE message opens, goes on or ends. -/
def advanced (o : ReqOp) (k : Pkt) (dma : Nat) (q : Qp) : Qp :=
  openMessage o k dma { q with epsn := q.epsn + BitVec.ofNat 24 (psnsOf q o k) }

theorem advanced_frame (o : ReqOp) (k : Pkt) (dma : Nat) (q : Qp) : (advanced o k dma q).epsn = q.epsn + BitVec.ofNat 24 (psnsOf q o k) ∧
    (advanced o k dma q).seqNak = q.seqNak ∧ (advanced o k dma q).state = q.state ∧ (advanced o k dma q).outstanding = q.outstanding ∧
    (advanced o k dma q).ops = q.ops ∧ (advanced o k dma q).donePsn = q.donePsn ∧ (advanced o k dma q).msn = q.msn := by
  unfold advanced
  cases o <;> exact ⟨rfl, rfl, rfl, rfl, rfl, rfl, rfl⟩

section
variable {k : Pkt} {o : ReqOp} {u : State}

theorem takeExpected_refused {syn : Byte} (hc : checkRequest u (getQp u k.dqp) o k false false = some syn) :
    takeExpected o k u = queueNak k.dqp k.psn syn true (nakCleared k.dqp u) := by
  have hcheck := (checkRequest_nakCleared k.dqp u o k false false).trans hc
  unfold takeExpected
  simp only [nakCleared, inSequence] at hcheck ⊢
  rw [hcheck]

variable (hc : checkRequest u (getQp u k.dqp) o k false false = none)
include hc

theorem takeExpected_accepted (ht : o.answers = true → trackerFree u (getQp u k.dqp) = true) : ∃ dma, takeExpected o k u =
    setQp k.dqp (advanced o k dma (getQp (executeRequest o k false true (nakCleared k.dqp u)) k.dqp))
      (executeRequest o k false true (nakCleared k.dqp u)) := by
  have hcheck := (checkRequest_nakCleared k.dqp u o k false false).trans hc
  have hfree : (o.answers && !trackerFree (nakCleared k.dqp u) (inSequence (getQp u k.dqp))) = false := by
    rw [trackerFree_nakCleared]
    cases ha : o.answers
    · rfl
    · rw [ht ha]
      rfl
  unfold takeExpected
  simp only [nakCleared, inSequence] at hcheck hfree ⊢
  rw [hcheck]
  simp only [hfree, Bool.false_eq_true, if_false]
  exact ⟨_, rfl⟩

theorem takeExpected_untracked (ho : o.answers = true) (ht : trackerFree u (getQp u k.dqp) = false) :
    takeExpected o k u = portCount k.port.val 28 1 u := by
  have hcheck := (checkRequest_nakCleared k.dqp u o k false false).trans hc
  have hfull : (o.answers && !trackerFree (nakCleared k.dqp u) (inSequence (getQp u k.dqp))) = true := by
    rw [trackerFree_nakCleared, ho, ht]
    rfl
  unfold takeExpected
  simp only [nakCleared, inSequence] at hcheck hfull ⊢
  rw [hcheck]
  simp only [hfull, if_true]

end

/-- The context after a request that waits for no tracker is executed on an established QP. -/
theorem executed_context (o : ReqOp) (k : Pkt) (u : State) :
    Reordered (slotted o (inSequence (getQp u k.dqp))) (getQp (executeRequest o k false true (nakCleared k.dqp u)) k.dqp) := by
  have h := executeRequest_context o k false true (nakCleared k.dqp u)
  rwa [nakCleared_context] at h

/-! ### How far the expected PSN moves (R92) -/

theorem psnsOf_other {o : ReqOp} (h : o ≠ .read) (q : Qp) (k : Pkt) : psnsOf q o k = 1 := if_neg h

theorem psnsOf_empty {k : Pkt} (h : k.dmaLen = 0) (q : Qp) : psnsOf q .read k = 1 := by
  have hmtu := mtuBytes_pos q.mtu.toNat
  have hdiv : (0 + mtuBytes q.mtu.toNat - 1) / mtuBytes q.mtu.toNat = 0 := Nat.div_eq_of_lt (by omega)
  unfold psnsOf readPackets
  rw [if_pos rfl, h]
  show max 1 ((0 + mtuBytes q.mtu.toNat - 1) / mtuBytes q.mtu.toNat) = 1
  rw [hdiv]
  rfl

theorem psnsOf_read {k : Pkt} (h : k.dmaLen ≠ 0) (q : Qp) :
    psnsOf q .read k = (k.dmaLen.toNat + mtuBytes q.mtu.toNat - 1) / mtuBytes q.mtu.toNat := by
  have hlen : k.dmaLen.toNat ≠ 0 := fun hz => h (BitVec.eq_of_toNat_eq hz)
  have hmtu := mtuBytes_pos q.mtu.toNat
  have hpos : 0 < (k.dmaLen.toNat + mtuBytes q.mtu.toNat - 1) / mtuBytes q.mtu.toNat := Nat.div_pos (by omega) hmtu
  unfold psnsOf readPackets
  rw [if_pos rfl]
  omega

/-! ### A WRITE of no bytes (R95, R97) -/

theorem sendAck_context (n : BitVec 24) (s : State) :
    getQp (sendAck n s) n = { nothingDue (getQp s n) with ackPsn := ackPsnOf (getQp s n) } := by
  obtain ⟨_, _, hqps, _⟩ := (sendRdma_sends n 0x11 (ackPsnOf (getQp s n)) (some 0x1F) none s).kept
  exact getQp_set_same _ n _

/-- A done write packet that is alone in its QP's order leaves it (R88, R95). -/
theorem settleQp_alone {n : BitVec 24} {s : State} {x : QpOp} (hops : (getQp s n).ops = [x]) (hk : x.kind = .write)
    (hl : x.linesLeft = 0) (hd : x.dup = false) (hm : x.lastOfMsg = true) : (getQp (settleQp n s) n).ops = [] ∧
      (getQp (settleQp n s) n).donePsn = x.psn ∧ (getQp (settleQp n s) n).msn = (getQp s n).msn + 1 := by
  obtain ⟨t, ht⟩ : ∃ t, t = setQp n (notePacketDone x { getQp s n with ops := [] }) s := ⟨_, rfl⟩
  have hsettle : settleOps n (getQp s n).ops.length s = t := by
    rw [hops, ht]
    show settleOps n 1 s = _
    unfold settleOps
    simp [hops, hk, hl, settleOps]
  have hqp : getQp t n = notePacketDone x { getQp s n with ops := [] } := by rw [ht, getQp_set_same]
  have hdone : (getQp t n).ops = [] ∧ (getQp t n).donePsn = x.psn ∧ (getQp t n).msn = (getQp s n).msn + 1 := by
    rw [hqp]
    simp [notePacketDone, hd, hm]
  unfold settleQp
  rw [hsettle]
  dsimp only
  split
  · rw [sendAck_context]
    exact hdone
  · exact hdone

theorem joined_alone {q : Qp} (h : q.ops = []) (x : QpOp) : (joined q x).ops = [{ x with serial := q.serial }] := by
  simp [joined, h, opPlace]

/-- A WRITE Only without bytes is done at once, and touches no queue (R97). -/
theorem executeRequest_empty {k : Pkt} {s : State} (hp : k.payload = []) (hops : (getQp s k.dqp).ops = []) :
    (executeRequest .writeOnly k false true s).path = s.path ∧
      (getQp (executeRequest .writeOnly k false true s) k.dqp).ops = [] ∧
      (getQp (executeRequest .writeOnly k false true s) k.dqp).donePsn = k.psn ∧
      (getQp (executeRequest .writeOnly k false true s) k.dqp).msn = (getQp s k.dqp).msn + 1 := by
  obtain ⟨region, dma, heq⟩ := executeRequest_writes (o := .writeOnly) rfl k false true s
  rw [heq, executeWrite_empty hp]
  obtain ⟨x, hx⟩ : ∃ x, x = writeOp k dma (endsMessage .writeOnly) s.tank.clockUs := ⟨_, rfl⟩
  rw [← hx]
  have hjoin := insertOp_replies k.dqp x s
  have happlied := countApplied_replies k.dqp (getQp s k.dqp).tenant x (insertOp k.dqp x s)
  have hdone := countDone_replies k.dqp false (countApplied (getQp s k.dqp).tenant x (insertOp k.dqp x s))
  have hset := settleQp_replies k.dqp (countDone k.dqp false (countApplied (getQp s k.dqp).tenant x (insertOp k.dqp x s)))
  have hqps : (countApplied (getQp s k.dqp).tenant x (insertOp k.dqp x s)).qps = (insertOp k.dqp x s).qps := by
    unfold countApplied
    dsimp only
    split <;> simp only [tenantCount_qps]
  have hqp : getQp (countApplied (getQp s k.dqp).tenant x (insertOp k.dqp x s)) k.dqp = joined (getQp s k.dqp) x := by
    rw [getQp_congr hqps, insertOp_eq, getQp_set_same]
  have hcontext : (getQp (countDone k.dqp false (countApplied (getQp s k.dqp).tenant x (insertOp k.dqp x s))) k.dqp).ops =
        [{ x with serial := (getQp s k.dqp).serial }] ∧
      (getQp (countDone k.dqp false (countApplied (getQp s k.dqp).tenant x (insertOp k.dqp x s))) k.dqp).msn = (getQp s k.dqp).msn := by
    unfold countDone
    dsimp only
    rw [getQp_set_same, hqp]
    exact ⟨joined_alone hops x, rfl⟩
  obtain ⟨hone, hmsn⟩ := hcontext
  have hlines : x.linesLeft = 0 := by simp [hx, writeOp, lineParts, hp]
  obtain ⟨h1, h2, h3⟩ := settleQp_alone hone (by rw [hx]; rfl) hlines (by rw [hx]; rfl) (by rw [hx]; rfl)
  refine ⟨?_, h1, h2.trans (by rw [hx]; rfl), h3.trans (by rw [hmsn])⟩
  rw [hset.frame.path, hdone.frame.path, happlied.frame.path, hjoin.frame.path]

/-- Settles O42: the checks find the same after the flag of a NAK is cleared; what a request then leaves in its context is its execution's
and, on top of it, the next PSN and the open message. -/
theorem requestsAreTakenInOrder : Obligations.RequestsAreTakenInOrder := by
  unfold Obligations.RequestsAreTakenInOrder
  refine ⟨psnClass_eq, fun k o c s u hreq hr ha hcls hc ht => ?_, fun k o c s u hreq hr ha hcls hc ho ht => ?_⟩
  · obtain ⟨hserve, hstate⟩ := admitPacket_admitted ha
    obtain ⟨dma, heq⟩ := takeExpected_accepted hc ht
    obtain ⟨w, hw⟩ : ∃ w, w = executeRequest o k false true (nakCleared k.dqp u) := ⟨_, rfl⟩
    have hcontext := executed_context o k u
    have hstore : StoreKept s w := by
      rw [hw]
      exact (hserve.store.trans (setQp_serves _ _ u).store).trans (executeRequest_store o k false true _)
    rw [← hw] at heq hcontext
    obtain ⟨hepsn, hnak, hst, hout, hops, hdone, hmsn⟩ := advanced_frame o k dma (getQp w k.dqp)
    refine ⟨_, (exec_request hreq s).trans (by rw [takeRequest_expected hr ha o hcls, heq]), ?_⟩
    rw [getQp_set_same, hepsn, hnak, hst, hout, hops, hdone, hmsn, hcontext.epsn]
    refine ⟨fun hne => by rw [psnsOf_other hne]; rfl, ?_, ?_, hcontext.seqNak, hcontext.state.trans hstate, hcontext.outstanding,
      fun hans => ?_, fun hans hp => ?_, ?_, ?_, fun hans hp hnil => ?_, hstore.dram, hstore.regions, hstore.keys, hstore.flash⟩
    · rintro rfl hlen
      rw [psnsOf_empty hlen]
      rfl
    · rintro mtu rfl hlen rfl
      rw [psnsOf_read hlen, hcontext.mtu]
      rfl
    · obtain ⟨x, hx, hpsn, hkind, _⟩ := executeRequest_answers hans k false true (nakCleared k.dqp u)
      rw [hw, hx]
      exact ⟨_, mem_joined _ x, hpsn, hkind⟩
    · obtain ⟨region, dma', hexec⟩ := executeRequest_writes hans k false true (nakCleared k.dqp u)
      rw [hw, hexec, getQp_congr (executeWrite_queued hp region dma' _ _).qps, insertOp_eq, getQp_set_same]
      exact ⟨_, mem_joined _ _, rfl, rfl⟩
    · rintro rfl
      exact ⟨rfl, rfl, rfl⟩
    · rintro rfl
      rfl
    · obtain rfl := writeOnly_of_empty hc hans hp
      obtain ⟨hpath, hnone, hpsn, hmsg⟩ := executeRequest_empty (s := nakCleared k.dqp u) hp (by rw [nakCleared_context]; exact hnil)
      rw [hw]
      rw [nakCleared_context] at hmsg
      exact ⟨hnone, hpsn, hmsg, hpath.trans hserve.path⟩
  · refine ⟨_, (exec_request hreq s).trans (by rw [takeRequest_expected hr ha o hcls]), ?_⟩
    rw [takeExpected_untracked hc ho ht]
    exact ⟨portCount_counts _ _ _ _, portCount_counted _ _ _ _⟩

end Sys2Proof.Safety

namespace Sys2Proof.Safety
open Sys2Proof.Machine

/-! ### Packets that fail checks 1 to 4 (R90) -/

section
variable {k : Pkt} {s : State}

theorem admitPacket_sram (h : k.sramBad = true) : admitPacket k s = (false, portCount k.port.val 29 1 s) := by
  unfold admitPacket
  simp [h]

variable (hsram : k.sramBad = false)
include hsram

theorem admitPacket_icrc (h : k.icrcOk = false) : admitPacket k s = (false, portCount k.port.val 24 1 s) := by
  unfold admitPacket
  simp [hsram, h]

variable (hicrc : k.icrcOk = true)
include hicrc

theorem admitPacket_header (h : k.tver ≠ 0 ∨ k.pkey ≠ 0xFFFF ∨ k.padOk = false) :
    admitPacket k s = (false, portCount k.port.val 25 1 s) := by
  have hbad : (decide (k.tver ≠ 0) || decide (k.pkey ≠ 0xFFFF) || !k.padOk) = true := by simpa [or_assoc] using h
  unfold admitPacket
  simp only [hsram, hicrc, hbad, Bool.false_eq_true, Bool.not_true, if_false, if_true]

variable (htver : k.tver = 0) (hpkey : k.pkey = 0xFFFF) (hpad : k.padOk = true)
include htver hpkey hpad

theorem admitPacket_unknown (h : qpnExists k.dqp = false ∨ (getQp s k.dqp).state = .free) :
    admitPacket k s = (false, portCount k.port.val 26 1 s) := by
  have hbad : (!qpnExists k.dqp || decide ((getQp s k.dqp).state = .free)) = true := by simpa using h
  unfold admitPacket
  simp [hsram, hicrc, htver, hpkey, hpad, hbad]

variable (hq : qpnExists k.dqp = true)
include hq

theorem admitPacket_dead (h : (getQp s k.dqp).state = .error ∨ (getQp s k.dqp).state = .disconnecting) : admitPacket k s = (false, s) := by
  unfold admitPacket
  rcases h with h | h <;> simp [hsram, hicrc, htver, hpkey, hpad, hq, h]

variable (hst : (getQp s k.dqp).state = .connecting ∨ (getQp s k.dqp).state = .established)
include hst

theorem admitPacket_stranger (h : (getQp s k.dqp).remote ≠ k.srcIp) : admitPacket k s = (false, portCount k.port.val 27 1 s) := by
  unfold admitPacket
  rcases hst with hst | hst <;> simp [hsram, hicrc, htver, hpkey, hpad, hq, hst, h]

theorem admitPacket_elsewhere (h : (getQp s k.dqp).remote = k.srcIp) (hi : (getQp s k.dqp).iface ≠ k.port.val / 4) :
    admitPacket k s = (false, portCount k.port.val 7 1 s) := by
  unfold admitPacket
  rcases hst with hst | hst <;> simp [hsram, hicrc, htver, hpkey, hpad, hq, hst, h, hi]

end

/-! ### Packets ahead of their order (R93) -/

theorem takeAhead_silent {k : Pkt} {u : State} (h : (getQp u k.dqp).seqNak = true) : takeAhead k u = u := by
  unfold takeAhead
  simp [h]

/-- A packet ahead leaves a NAK for sequence out, and the expected PSN and the state of its QP as they were. -/
theorem takeAhead_context (k : Pkt) (u : State) : (getQp (takeAhead k u) k.dqp).seqNak = true ∧
    (getQp (takeAhead k u) k.dqp).epsn = (getQp u k.dqp).epsn ∧ (getQp (takeAhead k u) k.dqp).state = (getQp u k.dqp).state ∧
    (takeAhead k u).dram = u.dram := by
  cases hn : (getQp u k.dqp).seqNak
  · have heq : takeAhead k u = queueNak k.dqp (getQp u k.dqp).epsn 0x60 false (setQp k.dqp { getQp u k.dqp with seqNak := true } u) := by
      unfold takeAhead
      simp [hn]
    have h := queueNak_replies k.dqp (getQp u k.dqp).epsn 0x60 (setQp k.dqp { getQp u k.dqp with seqNak := true } u)
    have hown := h.own
    rw [getQp_set_same] at hown
    rw [heq]
    exact ⟨hown.seqNak, hown.epsn, hown.state, h.frame.store.dram⟩
  · rw [takeAhead_silent hn]
    exact ⟨hn, rfl, rfl, rfl⟩

/-! ### Unsupported opcodes (R83, R90) -/

/-- A duplicate is counted for the tenant first (R94, R125). -/
def duplicateCounted (k : Pkt) (u : State) : State := tenantCount (getQp u k.dqp).tenant 8 1 u

theorem duplicateCounted_frame (k : Pkt) (u : State) : Serves u (duplicateCounted k u) ∧ (duplicateCounted k u).qps = u.qps :=
  ⟨tenantCount_serves _ _ _ _, tenantCount_qps _ _ _ _⟩

theorem supportedOpcode_low {b : Byte} (h : supportedOpcode b = true) : b.toNat < 0x20 := by
  simp only [supportedOpcode, Bool.or_eq_true, decide_eq_true_eq] at h
  rcases h with (((((rfl | rfl) | rfl) | rfl) | rfl) | rfl) | rfl <;> decide

section
variable {k : Pkt} {s u : State} (hr : packetsRun s k.port.val = true) (ha : admitPacket k s = (true, u))
include hr ha

theorem unsupportedOpcode_foreign (h : 0x20 ≤ k.opcode.toNat) : exec (.unsupportedOpcode k) s = .next u := by
  have hs : supportedOpcode k.opcode = false := by
    by_contra hs
    have := supportedOpcode_low (Bool.eq_true_of_not_eq_false hs)
    omega
  show execUnsupportedOpcode k s = _
  unfold execUnsupportedOpcode
  simp [hr, ha, hs, h]

/-- An opcode of the reliable-connection group that is not supported draws a fatal NAK (R83, R96). -/
theorem unsupportedOpcode_fails (hs : supportedOpcode k.opcode = false) (hop : k.opcode.toNat < 0x20)
    (hc : psnClass k.psn (getQp u k.dqp).epsn ≠ .ahead) : ∃ v, (getQp v k.dqp).state = (getQp u k.dqp).state ∧ v.dram = u.dram ∧
      exec (.unsupportedOpcode k) s = .next (queueNak k.dqp k.psn 0x61 true v) := by
  have hlow : ¬ 0x20 ≤ k.opcode.toNat := by omega
  show ∃ v, _ ∧ _ ∧ execUnsupportedOpcode k s = _
  unfold execUnsupportedOpcode
  simp only [hr, ha, hs, hlow, decide_false, Bool.not_true, Bool.or_false, Bool.false_eq_true, if_false]
  cases hcls : psnClass k.psn (getQp u k.dqp).epsn
  case expected => exact ⟨nakCleared k.dqp u, by rw [nakCleared_context]; rfl, rfl, rfl⟩
  case ahead => exact absurd hcls hc
  case duplicate =>
    obtain ⟨hserve, hqps⟩ := duplicateCounted_frame k u
    exact ⟨duplicateCounted k u, by rw [getQp_congr hqps], hserve.store.dram, rfl⟩

end

/-! ### Duplicates (R94) -/

theorem checkRequest_duplicateCounted (k : Pkt) (u : State) (o : ReqOp) (reused : Bool) :
    checkRequest (duplicateCounted k u) (getQp u k.dqp) o k true reused = checkRequest u (getQp u k.dqp) o k true reused :=
  checkRequest_congr (duplicateCounted_frame k u).1.store.regions _ _ _ _ _

/-- The atomic of a PSN that a QP has at work. -/
def atWork (q : Qp) (psn : BitVec 24) : Bool := q.ops.any (fun x => x.kind = .atomic && x.psn = psn)

section
variable {k : Pkt} {o : ReqOp} {u : State}

/-- An atomic of the replay ring is answered from it. -/
theorem takeDuplicate_replayed {e : RingEntry} (ho : o.atomic = true)
    (hring : (getQp u k.dqp).ring.find? (fun x => x.psn = k.psn) = some e) : takeDuplicate o k u =
      tenantCount (getQp u k.dqp).tenant 7 1 (insertOp k.dqp
        { QpOp.zero with kind := .atomic, psn := k.psn, result := some e.orig, fetchAdd := e.fetchAdd, dup := true } (duplicateCounted k u)) := by
  unfold takeDuplicate
  simp only [ho, if_true, hring]
  rfl

section
variable (ho : o.atomic = true) (hring : (getQp u k.dqp).ring.find? (fun x => x.psn = k.psn) = none)
include ho hring

/-- An atomic of which neither the ring nor the order holds anything is refused. -/
theorem takeDuplicate_lost (hw : atWork (getQp u k.dqp) k.psn = false) :
    ∃ syn, takeDuplicate o k u = queueNak k.dqp k.psn syn true (duplicateCounted k u) := by
  have hread : o ≠ .read := by
    rintro rfl
    simp [ReqOp.atomic] at ho
  unfold atWork at hw
  unfold takeDuplicate
  simp only [ho, if_true, hring, hw, Bool.and_false, hread, if_false, Option.isSome_none, Bool.or_self]
  split
  · exact ⟨_, rfl⟩
  · exact ⟨0x61, by simp only [Bool.false_eq_true, if_false]; rfl⟩

theorem takeDuplicate_running (hw : atWork (getQp u k.dqp) k.psn = true) (hc : checkRequest u (getQp u k.dqp) o k true true = none) :
    takeDuplicate o k u = duplicateCounted k u := by
  rw [← checkRequest_duplicateCounted] at hc
  unfold duplicateCounted at hc ⊢
  unfold atWork at hw
  unfold takeDuplicate
  simp only [ho, if_true, hring, hw, Bool.and_self, Bool.true_or, hc]

end

/-- A WRITE packet is not applied again. -/
theorem takeDuplicate_write (ho : o.answers = false) (hc : checkRequest u (getQp u k.dqp) o k true false = none) :
    takeDuplicate o k u = duplicateWrite k (duplicateCounted k u) := by
  have hread : o ≠ .read := by
    rintro rfl
    simp [ReqOp.answers] at ho
  have hatomic : o.atomic = false := by cases o <;> simp_all [ReqOp.atomic, ReqOp.answers]
  rw [← checkRequest_duplicateCounted] at hc
  unfold duplicateCounted at hc ⊢
  unfold takeDuplicate
  simp only [hatomic, hread, Bool.false_and, Bool.false_eq_true, if_false, Option.isSome_none, Bool.or_self, hc, ne_eq, not_false_eq_true,
    if_true]

section
variable (hc : checkRequest u (getQp u k.dqp) .read k true false = none) (ho : originalRead (getQp u k.dqp) k.psn = none)
include hc ho

theorem takeDuplicate_readAgain (ht : trackerFree u (getQp u k.dqp) = true) :
    takeDuplicate .read k u = executeRequest .read k true false (duplicateCounted k u) := by
  rw [← trackerFree_congr (t := duplicateCounted k u) (duplicateCounted_frame k u).1.trackers rfl] at ht
  rw [← checkRequest_duplicateCounted] at hc
  unfold duplicateCounted at hc ht ⊢
  unfold takeDuplicate
  simp only [ReqOp.atomic, reduceCtorEq, decide_false, Bool.or_self, Bool.false_and, Bool.false_eq_true, if_false, if_true, ho,
    Option.isSome_none, hc, ne_eq, not_true_eq_false, ht]

theorem takeDuplicate_readUntracked (ht : trackerFree u (getQp u k.dqp) = false) :
    takeDuplicate .read k u = portCount k.port.val 28 1 (duplicateCounted k u) := by
  rw [← trackerFree_congr (t := duplicateCounted k u) (duplicateCounted_frame k u).1.trackers rfl] at ht
  rw [← checkRequest_duplicateCounted] at hc
  unfold duplicateCounted at hc ht ⊢
  unfold takeDuplicate
  simp only [ReqOp.atomic, reduceCtorEq, decide_false, Bool.or_self, Bool.false_and, Bool.false_eq_true, if_false, if_true, ho,
    Option.isSome_none, hc, ne_eq, not_true_eq_false, ht]

end

/-- A READ that is still being answered gives way to its duplicate. -/
theorem takeDuplicate_readInstead {x : QpOp} (hc : checkRequest u (getQp u k.dqp) .read k true true = none)
    (ho : originalRead (getQp u k.dqp) k.psn = some x) :
    takeDuplicate .read k u = executeRequest .read k true x.lastOfMsg (abandonRead k.dqp x (duplicateCounted k u)) := by
  rw [← checkRequest_duplicateCounted] at hc
  unfold duplicateCounted at hc ⊢
  unfold takeDuplicate
  simp only [ReqOp.atomic, reduceCtorEq, decide_false, Bool.or_self, Bool.false_and, Bool.false_eq_true, if_false, if_true, ho,
    Option.isSome_some, Bool.false_or, hc, ne_eq, not_true_eq_false]

end

/-- A QP whose original READ is abandoned: the slot is free for the duplicate (R94). -/
theorem abandonRead_context (n : BitVec 24) (x : QpOp) (s : State) : (getQp (abandonRead n x s) n).epsn = (getQp s n).epsn ∧
    (getQp (abandonRead n x s) n).outstanding = (getQp s n).outstanding - 1 ∧ (abandonRead n x s).dram = s.dram := by
  have h : getQp (abandonRead n x s) n = getQp (setQp n { getQp s n with
      ops := (getQp s n).ops.filter (· ≠ x), outstanding := (getQp s n).outstanding - 1 } s) n := rfl
  rw [h, getQp_set_same]
  exact ⟨rfl, rfl, rfl⟩

theorem duplicateWrite_replies (k : Pkt) (s : State) : Replies k.dqp s (duplicateWrite k s) :=
  ((insertOp_replies k.dqp { QpOp.zero with kind := .write, psn := k.psn, doneAt := s.tank.clockUs, dup := true } s).trans
    (countDone_replies _ _ _)).trans (settleQp_replies _ _)

/-- A READ that is executed for a duplicate takes its place and a slot. -/
theorem executeRead_duplicate (k : Pkt) (msg : Bool) (s : State) :
    (getQp (executeRequest .read k true msg s) k.dqp).epsn = (getQp s k.dqp).epsn ∧
      (getQp (executeRequest .read k true msg s) k.dqp).outstanding = (getQp s k.dqp).outstanding + 1 ∧
      (∃ x ∈ (getQp (executeRequest .read k true msg s) k.dqp).ops,
        x.kind = .read ∧ x.psn = k.psn ∧ x.sent = 0 ∧ x.dup = true ∧ x.lastOfMsg = msg) ∧
      (executeRequest .read k true msg s).dram = s.dram := by
  have hcontext := executeRequest_context .read k true msg s
  obtain ⟨x, hx, hpsn, hkind, hrest⟩ := executeRequest_answers (o := .read) rfl k true msg s
  obtain ⟨hsent, hdup, hmsg⟩ := hrest rfl
  refine ⟨hcontext.epsn, hcontext.outstanding, ?_, (executeRequest_store _ _ _ _ _).dram⟩
  rw [hx]
  exact ⟨_, mem_joined _ x, hkind, hpsn, hsent, hdup, hmsg⟩

end Sys2Proof.Safety

namespace Sys2Proof.Safety
open Sys2Proof.Machine

/-! ### The outcomes of the checks and of duplicates (R83, R90 to R94) -/

section
variable {k : Pkt} {o : ReqOp} {c : Instr} {s : State} (hreq : RequestOf k o c) (hr : packetsRun s k.port.val = true)
include hreq hr

/-- A packet that an early check rejects is counted, and nothing else happens. -/
theorem request_counted {n : Nat} (ha : admitPacket k s = (false, portCount k.port.val n 1 s)) :
    ∃ t, exec c s = .next t ∧ PortCounts s t ∧ PortCounted k.port.val n 1 s t :=
  ⟨_, (exec_request hreq s).trans (by rw [takeRequest_rejected hr o ha]), portCount_counts _ _ _ _, portCount_counted _ _ _ _⟩

variable {u : State} (ha : admitPacket k s = (true, u))
include ha

theorem request_ahead (hc : psnClass k.psn (getQp u k.dqp).epsn = .ahead) :
    ∃ t, exec c s = .next t ∧ (getQp t k.dqp).seqNak = true ∧ (getQp t k.dqp).epsn = (getQp u k.dqp).epsn ∧
      (getQp t k.dqp).state = .established ∧ t.dram = s.dram := by
  obtain ⟨hserve, hstate⟩ := admitPacket_admitted ha
  obtain ⟨hnak, hepsn, hst, hdram⟩ := takeAhead_context k u
  exact ⟨_, (exec_request hreq s).trans (by rw [takeRequest_ahead hr ha o hc]), hnak, hepsn, hst.trans hstate, hdram.trans hserve.store.dram⟩

theorem request_refused {syn : Byte} (he : (getQp u k.dqp).epsn = k.psn) (hc : checkRequest u (getQp u k.dqp) o k false false = some syn) :
    ∃ t, exec c s = .next t ∧ (getQp t k.dqp).state = .error ∧ (getQp t k.dqp).epsn = k.psn ∧ t.dram = s.dram := by
  obtain ⟨hserve, hstate⟩ := admitPacket_admitted ha
  have hcls : psnClass k.psn (getQp u k.dqp).epsn = .expected := by rw [he, psnClass_self]
  have hst : (getQp (nakCleared k.dqp u) k.dqp).state = .established := by rw [nakCleared_context]; exact hstate
  obtain ⟨herr, hepsn, hdram⟩ := queueNak_fatal (psn := k.psn) (syn := syn) hst
  refine ⟨_, (exec_request hreq s).trans (by rw [takeRequest_expected hr ha o hcls, takeExpected_refused hc]), herr, ?_,
    hdram.trans hserve.store.dram⟩
  rw [hepsn, nakCleared_context]
  exact he

variable (hd : psnClass k.psn (getQp u k.dqp).epsn = .duplicate)
include hd

theorem exec_duplicate : exec c s = .next (takeDuplicate o k u) :=
  (exec_request hreq s).trans (by rw [takeRequest_duplicate hr ha o hd])

theorem duplicate_replayed {e : RingEntry} (ho : o.atomic = true)
    (hring : (getQp u k.dqp).ring.find? (fun x => x.psn = k.psn) = some e) :
    ∃ t, exec c s = .next t ∧ (getQp t k.dqp).epsn = (getQp u k.dqp).epsn ∧ (getQp t k.dqp).outstanding = (getQp u k.dqp).outstanding ∧
      (∃ x ∈ (getQp t k.dqp).ops, x.kind = .atomic ∧ x.psn = k.psn ∧ x.result = some e.orig ∧ x.dup = true) ∧
      t.path = u.path ∧ t.dram = u.dram := by
  obtain ⟨hserve, hqps⟩ := duplicateCounted_frame k u
  obtain ⟨x, hx⟩ : ∃ x, x = { QpOp.zero with
    kind := .atomic, psn := k.psn, result := some e.orig, fetchAdd := e.fetchAdd, dup := true } := ⟨_, rfl⟩
  have heq : takeDuplicate o k u = tenantCount (getQp u k.dqp).tenant 7 1 (insertOp k.dqp x (duplicateCounted k u)) := by
    rw [takeDuplicate_replayed ho hring, hx]
  have h := ((hserve.replies hqps k.dqp).trans (insertOp_replies k.dqp x _)).trans (tenantCount_replies _ (getQp u k.dqp).tenant 7 1 _)
  refine ⟨_, (exec_duplicate hreq hr ha hd).trans (by rw [heq]), h.own.epsn, h.own.outstanding, ?_, h.frame.path, h.frame.store.dram⟩
  rw [getQp_congr (tenantCount_qps _ _ _ _), insertOp_eq, getQp_set_same]
  exact ⟨_, mem_joined _ x, by rw [hx], by rw [hx], by rw [hx], by rw [hx]⟩

theorem duplicate_lost (ho : o.atomic = true) (hring : (getQp u k.dqp).ring.find? (fun x => x.psn = k.psn) = none)
    (hw : atWork (getQp u k.dqp) k.psn = false) : ∃ t, exec c s = .next t ∧ (getQp t k.dqp).state = .error ∧ t.dram = u.dram := by
  obtain ⟨hserve, hqps⟩ := duplicateCounted_frame k u
  obtain ⟨syn, heq⟩ := takeDuplicate_lost ho hring hw
  have hst : (getQp (duplicateCounted k u) k.dqp).state = .established := by rw [getQp_congr hqps]; exact (admitPacket_admitted ha).2
  obtain ⟨herr, _, hdram⟩ := queueNak_fatal (psn := k.psn) (syn := syn) hst
  exact ⟨_, (exec_duplicate hreq hr ha hd).trans (by rw [heq]), herr, hdram.trans hserve.store.dram⟩

theorem duplicate_running (ho : o.atomic = true) (hring : (getQp u k.dqp).ring.find? (fun x => x.psn = k.psn) = none)
    (hw : atWork (getQp u k.dqp) k.psn = true) (hc : checkRequest u (getQp u k.dqp) o k true true = none) :
    ∃ t, exec c s = .next t ∧ getQp t k.dqp = getQp u k.dqp ∧ t.path = u.path ∧ t.dram = u.dram := by
  obtain ⟨hserve, hqps⟩ := duplicateCounted_frame k u
  exact ⟨_, (exec_duplicate hreq hr ha hd).trans (by rw [takeDuplicate_running ho hring hw hc]), getQp_congr hqps _, hserve.path,
    hserve.store.dram⟩

theorem duplicate_write (ho : o.answers = false) (hc : checkRequest u (getQp u k.dqp) o k true false = none) :
    ∃ t, exec c s = .next t ∧ (getQp t k.dqp).epsn = (getQp u k.dqp).epsn ∧
      (getQp t k.dqp).outstanding = (getQp u k.dqp).outstanding ∧ t.path = u.path ∧ t.dram = u.dram := by
  obtain ⟨hserve, hqps⟩ := duplicateCounted_frame k u
  have h := (hserve.replies hqps k.dqp).trans (duplicateWrite_replies k _)
  exact ⟨_, (exec_duplicate hreq hr ha hd).trans (by rw [takeDuplicate_write ho hc]), h.own.epsn, h.own.outstanding, h.frame.path,
    h.frame.store.dram⟩

end

section
variable {k : Pkt} {c : Instr} {s u : State} (hreq : RequestOf k .read c) (hr : packetsRun s k.port.val = true)
  (ha : admitPacket k s = (true, u)) (hd : psnClass k.psn (getQp u k.dqp).epsn = .duplicate)
include hreq hr ha hd

section
variable (ho : originalRead (getQp u k.dqp) k.psn = none) (hc : checkRequest u (getQp u k.dqp) .read k true false = none)
include ho hc

theorem duplicate_readAgain (ht : trackerFree u (getQp u k.dqp) = true) :
    ∃ t, exec c s = .next t ∧ (getQp t k.dqp).epsn = (getQp u k.dqp).epsn ∧
      (getQp t k.dqp).outstanding = (getQp u k.dqp).outstanding + 1 ∧
      (∃ x ∈ (getQp t k.dqp).ops, x.kind = .read ∧ x.psn = k.psn ∧ x.sent = 0 ∧ x.dup = true ∧ x.lastOfMsg = false) ∧
      t.dram = u.dram := by
  obtain ⟨hserve, hqps⟩ := duplicateCounted_frame k u
  obtain ⟨hepsn, hout, hmem, hdram⟩ := executeRead_duplicate k false (duplicateCounted k u)
  rw [getQp_congr hqps] at hepsn hout
  exact ⟨_, (exec_duplicate hreq hr ha hd).trans (by rw [takeDuplicate_readAgain hc ho ht]), hepsn, hout, hmem,
    hdram.trans hserve.store.dram⟩

theorem duplicate_readUntracked (ht : trackerFree u (getQp u k.dqp) = false) :
    ∃ t, exec c s = .next t ∧ getQp t k.dqp = getQp u k.dqp ∧ PortCounted k.port.val 28 1 u t := by
  obtain ⟨_, hqps⟩ := duplicateCounted_frame k u
  have hkept : CountKept k.port.val 28 u (duplicateCounted k u) :=
    (tenantCount_trails k.port.val _ _ _ _).counts 28 (by decide) (by decide) (by decide) (by decide)
  refine ⟨_, (exec_duplicate hreq hr ha hd).trans (by rw [takeDuplicate_readUntracked hc ho ht]), ?_,
    hkept.counted (portCount_counted _ _ _ _)⟩
  exact getQp_congr ((portCount_counts _ _ _ _).qps.trans hqps) _

end

theorem duplicate_readInstead {x : QpOp} (ho : originalRead (getQp u k.dqp) k.psn = some x)
    (hc : checkRequest u (getQp u k.dqp) .read k true true = none) :
    ∃ t, exec c s = .next t ∧ (getQp t k.dqp).epsn = (getQp u k.dqp).epsn ∧
      (getQp t k.dqp).outstanding = (getQp u k.dqp).outstanding - 1 + 1 ∧
      (∃ y ∈ (getQp t k.dqp).ops, y.kind = .read ∧ y.psn = k.psn ∧ y.sent = 0 ∧ y.dup = true ∧ y.lastOfMsg = x.lastOfMsg) ∧
      t.dram = u.dram := by
  obtain ⟨hserve, hqps⟩ := duplicateCounted_frame k u
  obtain ⟨hepsn, hout, hmem, hdram⟩ := executeRead_duplicate k x.lastOfMsg (abandonRead k.dqp x (duplicateCounted k u))
  obtain ⟨hepsn', hout', hdram'⟩ := abandonRead_context k.dqp x (duplicateCounted k u)
  rw [getQp_congr hqps] at hepsn' hout'
  exact ⟨_, (exec_duplicate hreq hr ha hd).trans (by rw [takeDuplicate_readInstead hc ho]), hepsn.trans hepsn', hout.trans (by rw [hout']),
    hmem, (hdram.trans hdram').trans hserve.store.dram⟩

end

/-- Settles O43: one lemma for each check that rejects, and one for each way through the duplicates. -/
theorem packetsAreCheckedInOrder : Obligations.PacketsAreCheckedInOrder := by
  unfold Obligations.PacketsAreCheckedInOrder
  rintro k o c s p hreq rfl hr
  refine ⟨?_, fun hsram hicrc htver hpkey hpad hq hdead => ?_, fun u ha => ⟨fun hc hn => ?_, request_ahead hreq hr ha,
    fun syn => request_refused hreq hr ha, fun hs hop hc => ?_, unsupportedOpcode_foreign hr ha, ?_⟩⟩
  · rintro n (⟨h, rfl⟩ | ⟨hsram, h, rfl⟩ | ⟨hsram, hicrc, h, rfl⟩ |
      ⟨hsram, hicrc, htver, hpkey, hpad, ⟨h, rfl⟩ | ⟨hq, hst, ⟨h, rfl⟩ | ⟨h, hi, rfl⟩⟩⟩)
    · exact request_counted hreq hr (admitPacket_sram h)
    · exact request_counted hreq hr (admitPacket_icrc hsram h)
    · exact request_counted hreq hr (admitPacket_header hsram hicrc h)
    · exact request_counted hreq hr (admitPacket_unknown hsram hicrc htver hpkey hpad h)
    · exact request_counted hreq hr (admitPacket_stranger hsram hicrc htver hpkey hpad hq hst h)
    · exact request_counted hreq hr (admitPacket_elsewhere hsram hicrc htver hpkey hpad hq hst h hi)
  · rw [exec_request hreq, takeRequest_rejected hr o (admitPacket_dead hsram hicrc htver hpkey hpad hq hdead)]
  · rw [exec_request hreq, takeRequest_ahead hr ha o hc, takeAhead_silent hn]
  · obtain ⟨hserve, hstate⟩ := admitPacket_admitted ha
    obtain ⟨v, hst, hdram, hexec⟩ := unsupportedOpcode_fails hr ha hs hop hc
    obtain ⟨herr, _, hkept⟩ := queueNak_fatal (psn := k.psn) (syn := 0x61) (hst.trans hstate)
    exact ⟨_, hexec, herr, (hkept.trans hdram).trans hserve.store.dram⟩
  · rintro q rfl hd
    refine ⟨fun e => duplicate_replayed hreq hr ha hd, fun ho hring => ⟨duplicate_lost hreq hr ha hd ho hring,
      duplicate_running hreq hr ha hd ho hring⟩, duplicate_write hreq hr ha hd, ?_, ?_⟩
    · rintro rfl ho hc
      exact ⟨duplicate_readAgain hreq hr ha hd ho hc, duplicate_readUntracked hreq hr ha hd ho hc⟩
    · rintro x rfl ho hc
      exact duplicate_readInstead hreq hr ha hd ho hc

end Sys2Proof.Safety

namespace Sys2Proof.Safety
open Sys2Proof.Machine

/-! ## Connections (R86, R87, R96, R100 to R106)

### One context changes -/

/-- No context but that of `n`, and no byte of the array, differs. -/
structure Alone (n : BitVec 24) (s t : State) : Prop where
  others : ∀ x, x ≠ n → getQp t x = getQp s x
  dram : t.dram = s.dram

theorem Alone.trans {n : BitVec 24} {a b c : State} (h : Alone n a b) (h' : Alone n b c) : Alone n a c :=
  ⟨fun x hx => (h'.others x hx).trans (h.others x hx), h'.dram.trans h.dram⟩

theorem Alone.of_eq {n : BitVec 24} {s t : State} (hq : t.qps = s.qps) (hd : t.dram = s.dram) : Alone n s t :=
  ⟨fun x _ => getQp_congr hq x, hd⟩

theorem Replies.alone {n : BitVec 24} {s t : State} (h : Replies n s t) : Alone n s t := ⟨h.others, h.frame.store.dram⟩

theorem setQp_alone (n : BitVec 24) (v : Qp) (s : State) : Alone n s (setQp n v s) := ⟨fun _ hx => getQp_set_other s hx v, rfl⟩

theorem tenantCount_alone (n : BitVec 24) (tenant k add : Nat) (s : State) : Alone n s (tenantCount tenant k add s) :=
  (tenantCount_replies n tenant k add s).alone

theorem Sends.alone {s t : State} (h : Sends s t) (n : BitVec 24) : Alone n s t := (h.replies n).alone

theorem Events.qps {s t : State} : Events s t → t.qps = s.qps := by
  rintro ⟨_, _, _, _, _, rfl⟩
  rfl

theorem establish_alone (n : BitVec 24) (s : State) : Alone n s (establish n s) :=
  ⟨(establish_context n s).2.2, (establish_serves n s).store.dram⟩

theorem freeQp_frees (n : BitVec 24) (hold : Bool) (s : State) : getQp (freeQp n hold s) n = Qp.zero ∧ Alone n s (freeQp n hold s) := by
  have hqps : (freeQp n hold s).qps = (setQp n Qp.zero s).qps := rfl
  exact ⟨by rw [getQp_congr hqps, getQp_set_same], (setQp_alone n Qp.zero s).trans (.of_eq hqps rfl)⟩

theorem freeQpCause_frees (n : BitVec 24) (cause : Nat) (s : State) :
    getQp (freeQpCause n cause s) n = Qp.zero ∧ Alone n s (freeQpCause n cause s) := by
  obtain ⟨hzero, halone⟩ := freeQp_frees n true s
  unfold freeQpCause
  dsimp only
  split
  · have hev := journalEvent_events 0x080 0x41 0 (beBytes 3 n.toNat ++ beBytes 1 (if (getQp s n).outOfUse && cause ≠ 2 then 3 else cause) ++
      beBytes 2 (getQp s n).tenant ++ [0, 0] ++ beBytes 16 (ipNat (getQp s n).remote)) (freeQp n true s)
    exact ⟨by rw [getQp_congr hev.qps, hzero], halone.trans (.of_eq hev.qps hev.serves.store.dram)⟩
  · exact ⟨hzero, halone⟩

theorem Loses.onward {s t : State} : Loses s t → Onward s t := by
  rintro ⟨_, _, _, _, _, _, _, _, _, _, _, rfl⟩
  exact .of_eq rfl rfl

theorem freeQpCause_onward (n : BitVec 24) (cause : Nat) (s : State) : Onward s (freeQpCause n cause s) := by
  have hfree := (freeQp_loses n true s).onward
  unfold freeQpCause
  dsimp only
  split
  · exact hfree.trans (journalEvent_events _ _ _ _ _).loses.onward
  · exact hfree

/-! ### A disconnecting context (R104) -/

theorem settleWrites_frame (l : List LineReq) (s : State) : ∃ k, forEach l (fun r t => writeSettled r t) s = { s with tank := k } :=
  forEach_relates (R := fun s t => ∃ k, t = { s with tank := k }) (fun s => ⟨s.tank, rfl⟩)
    (by rintro a b c ⟨_, rfl⟩ ⟨k, rfl⟩; exact ⟨k, rfl⟩) (fun _ _ => ⟨_, rfl⟩) l s

/-- A context leaves service with the requests that have passed their ordering points; what the order then owes is sent. -/
theorem disconnect_eq (n : BitVec 24) (s : State) : ∃ v q, disconnect n s = settleQp n v ∧ q.state = .disconnecting ∧
    v.qps = (setQp n q s).qps ∧ v.dram = s.dram ∧ v.dataSent = s.dataSent ∧ v.ports = s.ports := by
  unfold disconnect
  extract_lets keep queued gone _ s1 q ops out k s2
  obtain ⟨w, hw⟩ := settleWrites_frame (queued.filter (fun r => isWrite r.kind)) (keepOrphans n q.tenant (out.filter (fun o => !waitsFor gone o))
    { s2 with trackers := Map.modify 0 q.iface (fun v => v - k) s2.trackers })
  exact ⟨_, { q with state := .disconnecting, ops := ops, outstanding := q.outstanding - k, oldestPsn := oldestOutstanding ops }, rfl, rfl,
    by rw [hw]; rfl, by rw [hw]; rfl, by rw [hw]; rfl, by rw [hw]; rfl⟩

theorem disconnect_ends (n : BitVec 24) (s : State) : (getQp (disconnect n s) n).state = .disconnecting ∧ Alone n s (disconnect n s) ∧
    Onward s (disconnect n s) := by
  obtain ⟨v, q, heq, hst, hqps, hdram, hsent, hports⟩ := disconnect_eq n s
  have hset := settleQp_replies n v
  have hv : getQp v n = q := by rw [getQp_congr hqps, getQp_set_same]
  have hstate : (getQp v n).state = .disconnecting := by rw [hv, hst]
  rw [heq]
  exact ⟨hset.own.state.trans hstate, ((setQp_alone n q s).trans (.of_eq hqps hdram)).trans hset.alone,
    (Onward.of_eq hsent hports).trans (settleQp_settles n v).onward⟩

/-! ### MADs (R73, R84, R100) -/

theorem sendControl_sends {f : TxFrame} (hf : plain f = true) (q p : Nat) (s : State) : Sends s (sendControl q p f s) := by
  unfold sendControl
  split
  · exact sendFrame_sends hf _ _ s
  · exact .refl s

/-- The frame that is acted on has left its reserve. -/
def withSlow (w : Slow) (s : State) : State := { s with slow := w }

/-- A MAD in order is acted on in a state that differs in the reserve that it leaves. -/
theorem takeMad_open {m : Mad} {s : State} (hc : coreRuns s = true) (ho : slowOpen s m.port.val = true) (ht : m.tver = 0)
    (hp : m.pkey = 0xFFFF) (hm : madOk m = true) : ∃ w, ∀ act, takeMad m act s = act (withSlow w s) := by
  obtain ⟨r, hr⟩ := takeReserve_frame (m.port.val / 4) s
  refine ⟨{ s.slow with reserve := r }, fun act => ?_⟩
  have hhead : (decide (m.tver ≠ 0) || decide (m.pkey ≠ 0xFFFF)) = false := by simp [ht, hp]
  unfold takeMad
  rw [slowPath_open hc ho, hr]
  simp only [hhead, hm, Bool.false_eq_true, if_false, if_true]
  rfl

theorem takeLater_open {m : Mad} {s : State} (hc : coreRuns s = true) (ho : slowOpen s m.port.val = true) (ht : m.tver = 0)
    (hp : m.pkey = 0xFFFF) (hm : madOk m = true) (hv : m.classVersion = 2) : ∃ w, ∀ act, takeLater m act s = act (withSlow w s) := by
  obtain ⟨w, hw⟩ := takeMad_open hc ho ht hp hm
  refine ⟨w, fun act => ?_⟩
  unfold takeLater
  rw [hw]
  exact if_pos hv

/-! ### A matched REQ (R87, R101, R102) -/

theorem qpnFree_congr {s t : State} (hq : t.qps = s.qps) (hf : t.qpnFreed = s.qpnFreed) (ht : t.tank = s.tank) (n : Nat) :
    qpnFree t n = qpnFree s n := by
  unfold qpnFree
  rw [hq, hf, ht]

theorem findQpn_congr {s t : State} (h : ∀ n, qpnFree t n = qpnFree s n) (fuel n : Nat) : findQpn t fuel n = findQpn s fuel n := by
  induction fuel generalizing n with
  | zero => rfl
  | succ fuel ih => simp only [findQpn, h, ih]

theorem takeReq_accepts {m : Mad} {s : State} {r : TenantRec} {n : Nat} (hv : m.classVersion = 2) (hs : staleContext s m = none)
    (hm : matchReq s m = none) (ht : tenantOf s m = some r) (hf : findQpn s 262144 s.qpnPtr.toNat = some n) :
    takeReq m s = acceptReq r n m s := by
  unfold takeReq
  simp only [hv, ne_eq, not_true_eq_false, if_false, hs, hm, ht, hf]

/-- The context of a matched REQ, and the REP that leaves. -/
theorem acceptReq_connects (r : TenantRec) (n : Nat) (m : Mad) (s : State) : ∃ comm,
    getQp (acceptReq r n m s) (BitVec.ofNat 24 n) = newContext r m comm ∧
      (∀ i, ifaceOf s (m.port.val / 4) = some i →
        Emitted m.port.val i.controlPrio i (repFrame (BitVec.ofNat 24 n) (newContext r m comm) s) s (acceptReq r n m s)) ∧
      (acceptReq r n m s).qpnPtr = BitVec.ofNat 24 (nextQpn n) ∧ Alone (BitVec.ofNat 24 n) s (acceptReq r n m s) := by
  obtain ⟨q, hq⟩ : ∃ q, q = newContext r m ((Config.draw s.free).setWidth 32) := ⟨_, rfl⟩
  obtain ⟨v, hv⟩ : ∃ v, v = setQp (BitVec.ofNat 24 n) q (drawn { s with qpnPtr := BitVec.ofNat 24 (nextQpn n) }) := ⟨_, rfl⟩
  have hctx : getQp v (BitVec.ofNat 24 n) = q := by rw [hv, getQp_set_same]
  have heq : acceptReq r n m s = sendControl (m.port.val / 4) m.port.val (repFrame (BitVec.ofNat 24 n) q s) v := by
    show sendRep (BitVec.ofNat 24 n) (setQp (BitVec.ofNat 24 n) (newContext r m _) _) = _
    rw [← hq, ← hv]
    unfold sendRep
    dsimp only
    rw [hctx, hq, hv]
    rfl
  have hsends : Sends v (acceptReq r n m s) := heq ▸ sendControl_sends (by rfl) _ _ v
  have hptr : (acceptReq r n m s).qpnPtr = v.qpnPtr := by
    obtain ⟨_, _, _, _, _, _, _, h⟩ := hsends
    rw [h]
  obtain ⟨_, _, hqps, _⟩ := hsends.kept
  refine ⟨_, by rw [getQp_congr hqps, hctx, hq], fun i hi => ?_, by rw [hptr, hv]; rfl, ?_⟩
  · obtain ⟨hemit, _⟩ := sendControl_answers (f := repFrame (BitVec.ofNat 24 n) q s) (by simp [repFrame]) rfl rfl (s := v) (i := i)
      (by rw [hv]; exact hi)
    rw [← heq, hq, hv] at hemit
    exact hemit
  · refine Alone.trans ?_ (hsends.alone _)
    rw [hv]
    exact ⟨fun _ hx => getQp_set_other _ hx q, rfl⟩

/-! ### RTU, REJ, DREQ (R100, R103, R104) -/

section
variable {m : Mad} {s : State} {n : Nat} {q : Qp} (h : matchingContext s m = some (n, q))
include h

theorem takeRtu_establishes (hq : q.state = .connecting) : takeRtu m s = establish (BitVec.ofNat 24 n) s := by
  unfold takeRtu
  rw [h]
  exact if_pos hq

theorem takeRej_frees (hq : q.state = .connecting) : takeRej m s = freeQp (BitVec.ofNat 24 n) false s := by
  unfold takeRej
  rw [h]
  exact if_pos hq

theorem takeDreq_eq : takeDreq m s =
    if q.state = .error then freeQpCause (BitVec.ofNat 24 n) 0
      (tenantCount q.tenant 24 1 (sendControl (m.port.val / 4) m.port.val (drepFrame m) s))
    else disconnect (BitVec.ofNat 24 n) (sendControl (m.port.val / 4) m.port.val (drepFrame m) s) := by
  unfold takeDreq
  rw [h]

/-- The DREP leaves first; then the context is freed or disconnects. -/
theorem takeDreq_ends :
    (∀ i, ifaceOf s (m.port.val / 4) = some i → Departs m.port.val i.controlPrio i (drepFrame m) s (takeDreq m s)) ∧
      (q.state = .error → getQp (takeDreq m s) (BitVec.ofNat 24 n) = Qp.zero) ∧
      (q.state ≠ .error → (getQp (takeDreq m s) (BitVec.ofNat 24 n)).state = .disconnecting) ∧
      Alone (BitVec.ofNat 24 n) s (takeDreq m s) := by
  obtain ⟨u, hu⟩ : ∃ u, u = sendControl (m.port.val / 4) m.port.val (drepFrame m) s := ⟨_, rfl⟩
  have hsends : Sends s u := hu ▸ sendControl_sends (by rfl) _ _ s
  have hdrep (i : Iface) (hi : ifaceOf s (m.port.val / 4) = some i) : Departs m.port.val i.controlPrio i (drepFrame m) s u := by
    rw [hu, sendControl_iface hi]
    exact sendFrame_departs (by simp [drepFrame, answerFrame]) hi _
  rw [takeDreq_eq h, ← hu]
  by_cases hq : q.state = .error
  · obtain ⟨hzero, halone⟩ := freeQpCause_frees (BitVec.ofNat 24 n) 0 (tenantCount q.tenant 24 1 u)
    have honward := (tenantCount_onward q.tenant 24 1 u).trans (freeQpCause_onward (BitVec.ofNat 24 n) 0 _)
    rw [if_pos hq]
    exact ⟨fun i hi => (hdrep i hi).onward honward, fun _ => hzero, fun hne => absurd hq hne,
      (hsends.alone _).trans ((tenantCount_alone _ _ _ _ u).trans halone)⟩
  · obtain ⟨hst, halone, honward⟩ := disconnect_ends (BitVec.ofNat 24 n) u
    rw [if_neg hq]
    exact ⟨fun i hi => (hdrep i hi).onward honward, fun he => absurd he hq, fun _ => hst, (hsends.alone _).trans halone⟩

end

/-! ### The ends of a context (R96, R103 to R105) -/

/-- A disconnecting context without requests acknowledges what it still owes, and is freed. -/
theorem disconnectComplete_frees {n : BitVec 24} {s : State} (hq : (getQp s n).state = .disconnecting) (ho : (getQp s n).ops = []) :
    ∃ t, exec (.disconnectComplete n) s = .next t ∧ getQp t n = Qp.zero ∧ Alone n s t := by
  obtain ⟨u, hu⟩ : ∃ u, u = if 0 < (getQp s n).unacked then sendAck n s else s := ⟨_, rfl⟩
  have halone : Alone n s u := by
    rw [hu]
    split
    · exact (sendAck_replies n s).alone
    · exact .of_eq rfl rfl
  obtain ⟨hzero, hfree⟩ := freeQpCause_frees n 0 (tenantCount (getQp s n).tenant 24 1 u)
  refine ⟨_, ?_, hzero, (halone.trans (tenantCount_alone _ _ _ _ u)).trans hfree⟩
  show execDisconnectComplete n s = _
  unfold execDisconnectComplete
  simp [hq, ho, hu]

theorem qpErrorTimeout_frees {n : BitVec 24} {s : State} (hq : (getQp s n).state = .error) :
    ∃ t, exec (.qpErrorTimeout n) s = .next t ∧ getQp t n = Qp.zero ∧ Alone n s t := by
  obtain ⟨hzero, hfree⟩ := freeQpCause_frees n 1 s
  refine ⟨_, ?_, hzero, hfree⟩
  show execQpErrorTimeout n s = _
  unfold execQpErrorTimeout
  rw [if_pos hq]

/-- The REJ to a requester that has sent no RTU (R103). -/
def timeoutRej (q : Qp) : TxFrame :=
  .mad {
    attr := 0x0012, reason := 4, localComm := q.localComm, remoteComm := q.remoteComm, qpn := 0, ip := q.remote, mac := q.nextHop,
    udp := q.reqUdp, dqp := q.reqQp, rep := none, priv := [] }

/-- A context whose REP has gone out a last time without an RTU is freed. -/
theorem repTimeout_frees {n : BitVec 24} {s : State} (hq : (getQp s n).state = .connecting) (hr : 3 ≤ (getQp s n).repSends) :
    ∃ t, exec (.repTimeout n) s = .next t ∧ getQp t n = Qp.zero ∧ Alone n s t := by
  obtain ⟨u, hu⟩ : ∃ u, u = sendControl (getQp s n).iface (getQp s n).reqPort (timeoutRej (getQp s n)) s := ⟨_, rfl⟩
  have hsends : Sends s u := hu ▸ sendControl_sends (by rfl) _ _ s
  obtain ⟨hzero, hfree⟩ := freeQp_frees n false (tenantCount (getQp s n).tenant 23 1 u)
  refine ⟨_, ?_, hzero, ((hsends.alone n).trans (tenantCount_alone _ _ _ _ _)).trans hfree⟩
  show execRepTimeout n s = _
  unfold execRepTimeout
  dsimp only
  rw [if_neg (by simp [hq]), if_neg (by omega), hu]
  rfl

/-- A REP without an RTU goes out again. -/
theorem repTimeout_repeats {n : BitVec 24} {s : State} {q : Qp} (he : q = getQp s n) (hq : q.state = .connecting) (hr : q.repSends < 3) :
    ∃ t, exec (.repTimeout n) s = .next t ∧ Sends (setQp n { q with repSends := q.repSends + 1 } s) t ∧
      ∀ i, ifaceOf s (q.reqPort / 4) = some i → q.iface = q.reqPort / 4 → Emitted q.reqPort i.controlPrio i (repFrame n q s) s t := by
  obtain ⟨u, hu⟩ : ∃ u, u = setQp n { q with repSends := q.repSends + 1 } s := ⟨_, rfl⟩
  have heq : sendRep n u = sendControl q.iface q.reqPort (repFrame n q s) u := by
    unfold sendRep
    rw [hu, getQp_set_same]
    rfl
  rw [← hu]
  refine ⟨sendRep n u, ?_, heq ▸ sendControl_sends (by rfl) _ _ u, fun i hi hiface => ?_⟩
  · show execRepTimeout n s = _
    unfold execRepTimeout
    dsimp only
    rw [← he, if_neg (by simp [hq]), if_pos hr, hu]
  · obtain ⟨hemit, _⟩ := sendControl_answers (f := repFrame n q s) (by simp [repFrame]) rfl rfl (s := u) (i := i) (by rw [hu]; exact hi)
    rw [heq, hiface]
    rw [hu] at hemit ⊢
    exact hemit

/-- Settles O46: a MAD in order acts where only the reserve that it leaves differs; each act changes one context, and what it sends stays
sent. -/
theorem connectionsAreManaged : Obligations.ConnectionsAreManaged := by
  unfold Obligations.ConnectionsAreManaged
  refine ⟨fun m s hc ho ht hp hm hv => ⟨fun r n hstale hmatch htenant hfind => ?_, fun n q hctx => ⟨fun hq => ⟨?_, ?_⟩, ?_⟩⟩, ?_⟩
  · obtain ⟨w, hw⟩ := takeMad_open hc ho ht hp hm
    obtain ⟨comm, hnew, hemit, hptr, halone⟩ := acceptReq_connects r n m (withSlow w s)
    have hfind' : findQpn (withSlow w s) 262144 s.qpnPtr.toNat = some n := by
      rw [findQpn_congr (s := s) (t := withSlow w s) fun _ => qpnFree_congr rfl rfl rfl _]
      exact hfind
    refine ⟨_, comm, ?_, hnew, hemit, hptr, halone.others, halone.dram⟩
    show execCmReq m s = _
    unfold execCmReq
    rw [hw, takeReq_accepts (s := withSlow w s) hv hstale hmatch htenant hfind']
  · obtain ⟨w, hw⟩ := takeLater_open hc ho ht hp hm hv
    obtain ⟨hst, hwas, _⟩ := establish_context (BitVec.ofNat 24 n) (withSlow w s)
    have halone := establish_alone (BitVec.ofNat 24 n) (withSlow w s)
    refine ⟨_, ?_, hst, hwas, halone.others, halone.dram⟩
    show execCmRtu m s = _
    unfold execCmRtu
    rw [hw, takeRtu_establishes (s := withSlow w s) hctx hq]
  · obtain ⟨w, hw⟩ := takeLater_open hc ho ht hp hm hv
    obtain ⟨hzero, halone⟩ := freeQp_frees (BitVec.ofNat 24 n) false (withSlow w s)
    refine ⟨_, ?_, hzero, halone.others, halone.dram⟩
    show execCmRejReceive m s = _
    unfold execCmRejReceive
    rw [hw, takeRej_frees (s := withSlow w s) hctx hq]
  · obtain ⟨w, hw⟩ := takeLater_open hc ho ht hp hm hv
    obtain ⟨hdrep, herr, hdis, halone⟩ := takeDreq_ends (s := withSlow w s) hctx
    refine ⟨_, ?_, hdrep, herr, hdis, halone.others, halone.dram⟩
    show execCmDreq m s = _
    unfold execCmDreq
    rw [hw]
  · rintro n s q rfl
    refine ⟨fun hq ho => ?_, fun hq hr => repTimeout_repeats rfl hq hr, fun hq hr => ?_, fun hq => ?_⟩
    · obtain ⟨t, ht, hzero, halone⟩ := disconnectComplete_frees hq ho
      exact ⟨t, ht, hzero, halone.others, halone.dram⟩
    · obtain ⟨t, ht, hzero, halone⟩ := repTimeout_frees hq hr
      exact ⟨t, ht, hzero, halone.others, halone.dram⟩
    · obtain ⟨t, ht, hzero, halone⟩ := qpErrorTimeout_frees hq
      exact ⟨t, ht, hzero, halone.others, halone.dram⟩

end Sys2Proof.Safety

namespace Sys2Proof.Safety
open Sys2Proof.Machine

/-! ## The writing of a line (R99, R137, R138, R145, R146, R150, R171)

### What a line is stored with depends on -/

/-- The array, what is held of counter lines, the remap table and the keys are the same: what the storing of a line reads. -/
structure SameLines (s t : State) : Prop where
  dram : t.dram = s.dram
  misread : t.misread = s.misread
  metaCache : t.metaCache = s.metaCache
  pageCache : t.pageCache = s.pageCache
  remap : t.remap = s.remap
  keys : t.keys = s.keys

theorem dataHome_congr {s t : State} (h : t.remap = s.remap) (ch loc : Nat) : dataHome t ch loc = dataHome s ch loc := by
  unfold dataHome committedSpare
  rw [h]

theorem metaHome_congr {s t : State} (h : t.remap = s.remap) (ch loc : Nat) : metaHome t ch loc = metaHome s ch loc := by
  unfold metaHome committedSpare
  rw [h]

theorem copyHome_congr {s t : State} (h : t.remap = s.remap) (ch loc : Nat) : copyHome t ch loc = copyHome s ch loc := by
  unfold copyHome copyingSpare
  rw [h]

theorem SameLines.writeBytes {s t : State} (h : SameLines s t) (line o : Nat) (bs : List Byte) :
    SameLines (writeBytes line o bs s) (writeBytes line o bs t) := by
  obtain ⟨hdram, hrest⟩ := h
  refine ⟨?_, hrest, ‹_›, ‹_›, ‹_›, ‹_›⟩
  unfold Machine.writeBytes clearUpsets
  simp only [hdram]

theorem SameLines.writeLine {s t : State} (h : SameLines s t) (line : Nat) (bs : List Byte) :
    SameLines (writeLine line bs s) (writeLine line bs t) := h.writeBytes line 0 _

theorem SameLines.settleMisread {s t : State} (h : SameLines s t) (line : Nat) :
    SameLines (settleMisread line s) (settleMisread line t) := by
  have hmis : misreadOf t line = misreadOf s line := by
    unfold misreadOf
    rw [h.misread, h.metaCache, h.pageCache]
  unfold Machine.settleMisread
  rw [hmis]
  split
  · next bs _ =>
    have hw := h.writeLine line bs
    refine ⟨hw.dram, ?_, hw.metaCache, hw.pageCache, hw.remap, hw.keys⟩
    unfold dropMisread
    simp only [hw.misread]
  · exact h

theorem SameLines.writeMeta {s t : State} (h : SameLines s t) (ch loc minor : Nat) (tag : BitVec 56) :
    SameLines (writeMeta ch loc minor tag s) (writeMeta ch loc minor tag t) := by
  unfold Machine.writeMeta
  rw [metaHome_congr h.remap, copyHome_congr h.remap]
  have hw := (h.settleMisread (metaHome s ch loc).1).writeBytes (metaHome s ch loc).1 (metaHome s ch loc).2 (metaBytes minor tag)
  dsimp only
  split
  · exact hw.writeBytes _ _ _
  · exact hw

theorem SameLines.writeData {s t : State} (h : SameLines s t) (ch loc : Nat) (ct : List Byte) :
    SameLines (writeData ch loc ct s) (writeData ch loc ct t) := by
  unfold Machine.writeData
  rw [dataHome_congr h.remap, copyHome_congr h.remap]
  have hw := h.writeLine (dataHome s ch loc) ct
  dsimp only
  split
  · exact hw.writeLine _ _
  · exact hw

theorem SameLines.storeLine {s t : State} (h : SameLines s t) (ch loc dma keyId major minor : Nat) (plain : List Byte) :
    SameLines (storeLine ch loc dma keyId major minor plain s) (storeLine ch loc dma keyId major minor plain t) := by
  have hkey : getKey t keyId = getKey s keyId := by
    unfold getKey
    rw [h.keys]
  have hw := (h.writeData ch loc (cipherLine (getKey s keyId) keyId dma major minor plain)).writeMeta ch loc minor
    (tagOf (getKey s keyId) keyId dma major minor (cipherLine (getKey s keyId) keyId dma major minor plain))
  unfold Machine.storeLine
  rw [hkey]
  exact ⟨hw.dram, hw.misread, hw.metaCache, hw.pageCache, hw.remap, hw.keys⟩

theorem SameLines.counterBytes {s t : State} (h : SameLines s t) (line o n : Nat) : counterBytes t line o n = counterBytes s line o n := by
  unfold Machine.counterBytes misreadOf lineBytes
  rw [h.misread, h.metaCache, h.pageCache, h.dram]

theorem SameLines.metaEntry {s t : State} (h : SameLines s t) (ch loc : Nat) : metaEntry t ch loc = metaEntry s ch loc := by
  unfold Machine.metaEntry
  simp only [metaHome_congr h.remap, h.counterBytes]

/-! ### What storing a line leaves alone -/

/-- Nothing but the array and what is held of counter lines differs. -/
def Rewrites (s t : State) : Prop := ∃ d m, t = { s with dram := d, misread := m }

theorem Rewrites.refl (s : State) : Rewrites s s := ⟨_, _, rfl⟩

theorem Rewrites.trans {a b c : State} : Rewrites a b → Rewrites b c → Rewrites a c := by
  rintro ⟨_, _, rfl⟩ ⟨d, m, rfl⟩
  exact ⟨d, m, rfl⟩

theorem writeBytes_rewrites (line o : Nat) (bs : List Byte) (s : State) : Rewrites s (writeBytes line o bs s) := ⟨_, s.misread, rfl⟩

theorem writeLine_rewrites (line : Nat) (bs : List Byte) (s : State) : Rewrites s (writeLine line bs s) := writeBytes_rewrites _ _ _ s

theorem settleMisread_rewrites (line : Nat) (s : State) : Rewrites s (settleMisread line s) := by
  unfold settleMisread
  split
  · exact (writeLine_rewrites _ _ s).trans ⟨_, _, rfl⟩
  · exact .refl s

theorem writeMeta_rewrites (ch loc minor : Nat) (tag : BitVec 56) (s : State) : Rewrites s (writeMeta ch loc minor tag s) := by
  have hw := (settleMisread_rewrites (metaHome s ch loc).1 s).trans
    (writeBytes_rewrites (metaHome s ch loc).1 (metaHome s ch loc).2 (metaBytes minor tag) _)
  unfold writeMeta
  dsimp only
  split
  · exact hw.trans (writeBytes_rewrites _ _ _ _)
  · exact hw

theorem writeData_rewrites (ch loc : Nat) (ct : List Byte) (s : State) : Rewrites s (writeData ch loc ct s) := by
  have hw := writeLine_rewrites (dataHome s ch loc) ct s
  unfold writeData
  dsimp only
  split
  · exact hw.trans (writeLine_rewrites _ _ _)
  · exact hw

theorem Rewrites.kept {s t : State} : Rewrites s t → t.path = s.path ∧ t.sep = s.sep ∧ t.remap = s.remap := by
  rintro ⟨_, _, rfl⟩
  exact ⟨rfl, rfl, rfl⟩

/-- Of the memory path, the storing of a line changes the round keys kept alone (R133). -/
theorem storeLine_path (ch loc dma keyId major minor : Nat) (plain : List Byte) (s : State) :
    (∃ k, (storeLine ch loc dma keyId major minor plain s).path = { s.path with roundKeys := k }) ∧
      (storeLine ch loc dma keyId major minor plain s).sep = s.sep := by
  obtain ⟨hpath, hsep, _⟩ := ((writeData_rewrites ch loc (cipherLine (getKey s keyId) keyId dma major minor plain) s).trans
    (writeMeta_rewrites ch loc minor
      (tagOf (getKey s keyId) keyId dma major minor (cipherLine (getKey s keyId) keyId dma major minor plain)) _)).kept
  unfold storeLine
  dsimp only [useRoundKeys]
  rw [hpath]
  exact ⟨⟨_, rfl⟩, hsep⟩

/-! ### What the end of a request leaves alone (R171, R193, R206) -/

/-- Nothing but counters, the minute records they feed, waiting fault messages, the channels' and banks' timing, the classes on the
channels, and the Tank differs. -/
def Timed (u t : State) : Prop := ∃ (c : Counters) (r : Records) (h : Table Chan) (b : Table DBank) (k : Table ClsCh) (w : Tank),
  Messages { u with ctr := c, records := r, chans := h, banks := b, clsCh := k, tank := w } t

theorem Messages.timed {s t : State} (h : Messages s t) : Timed s t := ⟨_, _, _, _, _, _, h⟩

theorem Timed.refl (s : State) : Timed s s := (Messages.refl s).timed

theorem Timed.trans {a b c : State} : Timed a b → Timed b c → Timed a c := by
  rintro ⟨_, _, _, _, _, _, _, _, _, _, rfl⟩ ⟨c, r, h, b, k, w, i, st, cd, lr, rfl⟩
  exact ⟨c, r, h, b, k, w, i, st, cd, lr, rfl⟩

theorem Timed.kept {s t : State} : Timed s t → t.dram = s.dram ∧ t.path = s.path ∧ t.sep = s.sep := by
  rintro ⟨_, _, _, _, _, _, _, _, _, _, rfl⟩
  exact ⟨rfl, rfl, rfl⟩

theorem setCtr_timed (c : Counters) (s : State) : Timed s { s with ctr := c } := ⟨c, _, _, _, _, _, .refl _⟩

theorem setChan_timed (ch : Nat) (v : Chan) (s : State) : Timed s (setChan ch v s) := ⟨_, _, _, _, _, _, .refl _⟩

theorem setBank_timed (ch b : Nat) (v : DBank) (s : State) : Timed s (setBank ch b v s) := ⟨_, _, _, _, _, _, .refl _⟩

theorem setCls_timed (ch c : Nat) (v : ClsCh) (s : State) : Timed s (setCls ch c v s) := ⟨_, _, _, _, _, _, .refl _⟩

theorem writeSettled_timed (r : LineReq) (s : State) : Timed s (writeSettled r s) := ⟨_, _, _, _, _, _, .refl _⟩

theorem tenantCount_timed (tenant n add : Nat) (s : State) : Timed s (tenantCount tenant n add s) := by
  have hset (c : Counters) (r : Records) : Timed s { s with ctr := c, records := r } := ⟨c, r, _, _, _, _, .refl _⟩
  unfold tenantCount
  dsimp only
  split
  · exact (hset _ _).trans (raise_messages _ _ _ _).timed
  · exact hset _ _

theorem classCount_timed (ch : Nat) (c : Option Nat) (i flag n : Nat) (s : State) : Timed s (classCount ch c i flag n s) := by
  unfold classCount
  extract_lets
  split
  · exact .refl s
  · split
    · exact (setCtr_timed _ s).trans (raise_messages _ _ _ _).timed
    · exact setCtr_timed _ s

theorem binCount_timed (ch c bin : Nat) (s : State) : Timed s (binCount ch c bin s) := by
  unfold binCount
  extract_lets
  split
  · exact .refl s
  · split
    · exact (setCtr_timed _ s).trans (raise_messages _ _ _ _).timed
    · exact setCtr_timed _ s

theorem completeReq_timed (ch : Nat) (r : LineReq) (s : State) : Timed s (completeReq ch r s) :=
  ((setCls_timed _ _ _ s).trans (classCount_timed _ _ _ _ _ _)).trans (binCount_timed _ _ _ _)

theorem autoPrecharge_timed (ch b : Nat) (s : State) : Timed s (autoPrecharge ch b s) := by
  unfold autoPrecharge
  dsimp only
  split
  · exact .refl s
  · split
    · exact .refl s
    · exact setBank_timed _ _ _ s

theorem releaseBank_timed (ch b : Nat) (wrote : Bool) (s : State) : Timed s (releaseBank ch b wrote s) := by
  unfold releaseBank
  extract_lets now k c s1
  have h1 : Timed s s1 := by
    dsimp only [s1]
    split
    · exact setChan_timed _ _ s
    · exact .refl s
  exact (h1.trans (setBank_timed _ _ _ _)).trans (autoPrecharge_timed _ _ _)

/-- A line's lock is given up, and the array, the separate input and the rest of the memory path stand. -/
structure Unlocks (key : Nat) (s t : State) : Prop where
  dram : t.dram = s.dram
  sep : t.sep = s.sep
  path : t.path = { s.path with locks := NSet.del key s.path.locks }

/-- The lock of a number is given up. -/
def unlocked (key : Nat) (s : State) : State := { s with path := { s.path with locks := NSet.del key s.path.locks } }

theorem Timed.unlocks {key : Nat} {a b t : State} (h : Timed a b) (h' : Timed (unlocked key b) t) : Unlocks key a t := by
  obtain ⟨hdram, hpath, hsep⟩ := h.kept
  obtain ⟨hdram', hpath', hsep'⟩ := h'.kept
  refine ⟨hdram'.trans hdram, hsep'.trans hsep, ?_⟩
  rw [hpath', ← hpath]
  rfl

theorem Unlocks.released {key : Nat} {s t : State} (h : Unlocks key s t) : NSet.has key t.path.locks = false := by
  rw [h.path]
  exact NSet.has_del _ _

theorem Unlocks.halves {key : Nat} {s t : State} (h : Unlocks key s t) (ch : Nat) : halves t ch = halves s ch := by
  unfold Machine.halves
  rw [h.path]

/-! ### The write half of a read-modify-write (R99, R145) -/

/-- A read-modify-write whose line is done: its line's lock and its bank are given back, it completes, and a partial write is counted. -/
def rmwEnded (ch : Nat) (r : LineReq) (tenant : Nat) (wrote : Bool) (s : State) : State :=
  let s1 := writeSettled r (unlockLine r.dma s)
  let s2 := completeReq ch r (releaseBank ch (reqBank s1 ch r) wrote s1)
  if r.kind = .partWrite then tenantCount tenant 15 1 s2 else s2

theorem rmwEnded_timed (ch : Nat) (r : LineReq) (tenant : Nat) (wrote : Bool) (s : State) :
    Timed (unlocked (r.dma / 64) s) (rmwEnded ch r tenant wrote s) := by
  unfold rmwEnded
  extract_lets s1 s2
  have h : Timed (unlocked (r.dma / 64) s) s2 :=
    ((writeSettled_timed r (unlockLine r.dma s)).trans (releaseBank_timed _ _ _ _)).trans (completeReq_timed _ _ _)
  split
  · exact h.trans (tenantCount_timed _ _ _ _)
  · exact h

/-- What a read-modify-write makes of its line is put there. -/
theorem finishRmw_puts {r : LineReq} {plain l : List Byte} (hl : modified r plain = some l) (ch : Nat) (s : State) :
    Unlocks (r.dma / 64) (putLine r.region r.dma l s) (finishRmw ch r plain s) := by
  have heq : finishRmw ch r plain s =
      rmwEnded ch r (regionTenant s r.region) true (served ch r.cls (putLine r.region r.dma l s)) := by
    unfold finishRmw
    simp only [hl]
    rfl
  rw [heq]
  exact (classCount_timed _ _ _ _ _ _).unlocks (rmwEnded_timed _ _ _ _ _)

/-- A read-modify-write that makes nothing of its line stores nothing while the minor counter can still rise. -/
theorem finishRmw_leaves {r : LineReq} {plain : List Byte} {s : State} (hl : modified r plain = none)
    (hm : (metaEntry s (homeOf s r.dma).1 (homeOf s r.dma).2).1 < 255) (ch : Nat) :
    Unlocks (r.dma / 64) s (finishRmw ch r plain s) := by
  have hno : ¬((metaEntry s (homeOf s r.dma).1 (homeOf s r.dma).2).1 = 255 ∧
      ((rewriteOf s (r.dma / 4096)).map (fun x => x.moved.getLsbD (r.dma / 64 % 64))).getD false = false) := by
    rintro ⟨h, _⟩
    omega
  have heq : finishRmw ch r plain s = rmwEnded ch r (regionTenant s r.region) false s := by
    unfold finishRmw
    simp only [hl, if_neg hno]
    rfl
  rw [heq]
  exact (Timed.refl s).unlocks (rmwEnded_timed _ _ _ _ _)

theorem putLine_next {s : State} {region dma c loc : Nat} (l : List Byte) (hh : homeOf s dma = (c, loc)) (hr : rewriteOf s (dma / 4096) = none)
    (hm : (metaEntry s c loc).1 < 255) : putLine region dma l s =
      storeLine c loc dma (lineKey s region dma).1 (lineKey s region dma).2 ((metaEntry s c loc).1 + 1) l s := by
  unfold putLine
  simp only [hh, hr, if_pos hm]

/-! ### The write half of a line that is carried (R146, R150) -/

theorem rewriteOf_markMoved {s : State} {page idx : Nat} {x : Rewrite} (h : rewriteOf s page = some x) :
    rewriteOf (markMoved x.page idx s) page = some { x with moved := x.moved ||| (1#64 <<< idx) } := by
  have hsame : (fun w : Rewrite => decide (w.page = page)) ∘
      (fun w => if w.page = x.page then { w with moved := w.moved ||| (1#64 <<< idx) } else w) = fun w => decide (w.page = page) := by
    funext w
    simp only [Function.comp_apply]
    split <;> rfl
  unfold rewriteOf at h ⊢
  unfold markMoved
  dsimp only
  rw [List.find?_map, hsame, h]
  simp

theorem getLsbD_or_bit64 (m : BitVec 64) {idx : Nat} (h : idx < 64) : (m ||| (1#64 <<< idx)).getLsbD idx = true := by
  simp [h]

/-- A line carried is stored under the page's next key and counter, at minor 0, where it has not been moved before. -/
theorem finishCarry_unlocks {ch c loc : Nat} {r : LineReq} {s : State} {x : Rewrite} (plain : List Byte) (hh : homeOf s r.dma = (c, loc))
    (hx : rewriteOf s (r.dma / 4096) = some x) (hm : lineMoved s x r.dma = false) : Unlocks (lockKey r)
      (storeLine c loc r.dma (newKey s x).1 (newKey s x).2 0 plain (markMoved x.page (r.dma / 64 % 64) s)) (finishCarry ch r plain s) := by
  obtain ⟨v, hv⟩ : ∃ v, v = storeLine c loc r.dma (newKey s x).1 (newKey s x).2 0 plain (markMoved x.page (r.dma / 64 % 64) s) := ⟨_, rfl⟩
  have hhome : homeOf (markMoved x.page (r.dma / 64 % 64) s) r.dma = (c, loc) := hh
  have heq : finishCarry ch r plain s = endCarry ch r true (countWork ch r (served ch r.cls v)) := by
    unfold finishCarry carryWith
    simp only [hx, hm, hhome, Bool.false_eq_true, if_false, hv]
  rw [heq, ← hv]
  exact ((classCount_timed _ _ _ _ _ v).trans (classCount_timed _ _ _ _ _ _)).unlocks (releaseBank_timed _ _ _ _)

end Sys2Proof.Safety

namespace Sys2Proof.Safety
open Sys2Proof.Machine

/-! ### WRITE_HALF (R171) -/

/-- The state in which a half is written: it has left its queue, and the class pointer has moved with
the choice. -/
def halfTaken (ch : Nat) (rest : List HalfEntry) (v : Chan) (s : State) : State := setHalves ch rest (setChan ch v s)

theorem halfTaken_sameLines (ch : Nat) (rest : List HalfEntry) (v : Chan) (s : State) : SameLines s (halfTaken ch rest v s) :=
  ⟨rfl, rfl, rfl, rfl, rfl, rfl⟩

theorem halves_halfTaken (ch : Nat) (rest : List HalfEntry) (v : Chan) (s : State) : halves (halfTaken ch rest v s) ch = rest :=
  halves_set_same _ _ _

theorem homeOf_halfTaken (ch : Nat) (rest : List HalfEntry) (v : Chan) (s : State) (dma : Nat) :
    homeOf (halfTaken ch rest v s) dma = homeOf s dma := rfl

theorem rewriteOf_halfTaken (ch : Nat) (rest : List HalfEntry) (v : Chan) (s : State) (page : Nat) :
    rewriteOf (halfTaken ch rest v s) page = rewriteOf s page := rfl

theorem pageWordHome_halfTaken (ch : Nat) (rest : List HalfEntry) (v : Chan) (s : State) (page : Nat) :
    pageWordHome (halfTaken ch rest v s) page = pageWordHome s page := rfl

theorem pageWord_halfTaken (ch : Nat) (rest : List HalfEntry) (v : Chan) (s : State) (page : Nat) :
    pageWord (halfTaken ch rest v s) page = pageWord s page := by
  unfold pageWord
  rw [pageWordHome_halfTaken]
  simp only [(halfTaken_sameLines ch rest v s).counterBytes]

theorem newKey_halfTaken (ch : Nat) (rest : List HalfEntry) (v : Chan) (s : State) (x : Rewrite) :
    newKey (halfTaken ch rest v s) x = newKey s x := by
  unfold newKey oldKey
  rw [pageWord_halfTaken]
  rfl

theorem verifiesUnder_halfTaken (ch : Nat) (rest : List HalfEntry) (v : Chan) (s : State) (dma slot major : Nat) :
    verifiesUnder (halfTaken ch rest v s) dma slot major = verifiesUnder s dma slot major := by
  have hlines := halfTaken_sameLines ch rest v s
  have hkey : getKey (halfTaken ch rest v s) slot = getKey s slot := rfl
  have hdata (l : Nat) : lineData (halfTaken ch rest v s) l = lineData s l := rfl
  unfold verifiesUnder
  simp only [homeOf_halfTaken, hlines.metaEntry, hkey, hdata, dataHome_congr hlines.remap]

theorem lineMoved_halfTaken (ch : Nat) (rest : List HalfEntry) (v : Chan) (s : State) (x : Rewrite) (dma : Nat) :
    lineMoved (halfTaken ch rest v s) x dma = lineMoved s x dma := by
  unfold lineMoved
  rw [newKey_halfTaken, verifiesUnder_halfTaken]

/-- A line whose page is under no rewrite or move has the key of its page word (R136), which the queue of halves does not hold. -/
theorem lineKey_halfTaken {s : State} {dma : Nat} (hr : rewriteOf s (dma / 4096) = none) (ch : Nat) (rest : List HalfEntry) (v : Chan)
    (region : Nat) : lineKey (halfTaken ch rest v s) region dma = lineKey s region dma := by
  unfold lineKey
  rw [rewriteOf_halfTaken, hr, pageWord_halfTaken]
  rfl

theorem halves_markMoved (ch page idx : Nat) (s : State) : halves (markMoved page idx s) ch = halves s ch := rfl

section
variable {ch : Fin 64} {s : State} {h : HalfEntry} {rest : List HalfEntry} (hh : halves s ch.val = h :: rest)
  (ht : turnDue s ch.val = false)
include hh ht

theorem writeHalf_waits (hl : halfLegal s ch.val h.req = false) : exec (.writeHalf ch) s = .next s := by
  show execWriteHalf ch s = _
  unfold execWriteHalf
  simp [hh, ht, hl]

theorem writeHalf_issues (hl : halfLegal s ch.val h.req = true) :
    ∃ v, exec (.writeHalf ch) s = .next (finishHalf ch.val h.req h.plain (halfTaken ch.val rest v s)) := by
  show ∃ v, execWriteHalf ch s = _
  unfold execWriteHalf
  simp only [hh, ht, hl, Bool.and_false, Bool.false_eq_true, Bool.not_true, if_false]
  exact ⟨_, rfl⟩

end

theorem rewriteOf_congr {s t : State} (h : t.sep = s.sep) (page : Nat) : rewriteOf t page = rewriteOf s page := by
  unfold rewriteOf
  rw [h]

theorem halves_storeLine (ch c loc dma keyId major minor : Nat) (plain : List Byte) (s : State) :
    halves (storeLine c loc dma keyId major minor plain s) ch = halves s ch := by
  obtain ⟨k, hk⟩ := (storeLine_path c loc dma keyId major minor plain s).1
  unfold halves
  rw [hk]

section
variable {ch : Fin 64} {s : State} {h : HalfEntry} {rest : List HalfEntry} {c loc : Nat} (hh : halves s ch.val = h :: rest)
  (ht : turnDue s ch.val = false) (hl : halfLegal s ch.val h.req = true) (hhome : homeOf s h.req.dma = (c, loc))
include hh ht hl hhome

/-- A line that is carried is stored under the page's next key and counter, and is then moved (R146, R150). -/
theorem writeHalf_carries {x : Rewrite} (hk : h.req.kind = .carry) (hx : rewriteOf s (h.req.dma / 4096) = some x)
    (hm : lineMoved s x h.req.dma = false) : ∃ t, exec (.writeHalf ch) s = .next t ∧ halves t ch.val = rest ∧
      NSet.has (lockKey h.req) t.path.locks = false ∧
      t.dram = (storeLine c loc h.req.dma (newKey s x).1 (newKey s x).2 0 h.plain s).dram ∧
      ∃ x', rewriteOf t (h.req.dma / 4096) = some x' ∧ x'.moved.getLsbD (h.req.dma / 64 % 64) = true := by
  obtain ⟨v, hexec⟩ := writeHalf_issues hh ht hl
  have hlines := halfTaken_sameLines ch.val rest v s
  have hmark : SameLines s (markMoved x.page (h.req.dma / 64 % 64) (halfTaken ch.val rest v s)) :=
    ⟨hlines.dram, hlines.misread, hlines.metaCache, hlines.pageCache, hlines.remap, hlines.keys⟩
  have hunlock := finishCarry_unlocks (ch := ch.val) (s := halfTaken ch.val rest v s) h.plain hhome hx
    ((lineMoved_halfTaken _ _ _ _ _ _).trans hm)
  rw [newKey_halfTaken] at hunlock
  have hmoved := rewriteOf_markMoved (s := halfTaken ch.val rest v s) (idx := h.req.dma / 64 % 64) hx
  have hbit := getLsbD_or_bit64 x.moved (Nat.mod_lt (h.req.dma / 64) (by decide : 0 < 64))
  refine ⟨finishCarry ch.val h.req h.plain (halfTaken ch.val rest v s), hexec.trans (by rw [finishHalf, if_pos hk]), ?_, hunlock.released, ?_,
    { x with moved := x.moved ||| (1#64 <<< (h.req.dma / 64 % 64)) }, ?_, hbit⟩
  · rw [hunlock.halves, halves_storeLine, halves_markMoved, halves_halfTaken]
  · exact hunlock.dram.trans (hmark.storeLine _ _ _ _ _ _ _).dram
  · rw [rewriteOf_congr (hunlock.sep.trans (storeLine_path _ _ _ _ _ _ _ _).2), hmoved]

/-- A read-modify-write is stored under its line's next minor counter (R99, R145). -/
theorem writeHalf_stores {k : Nat × Nat} (hk : h.req.kind ≠ .carry) (hkey : lineKey s h.req.region h.req.dma = k)
    (hr : rewriteOf s (h.req.dma / 4096) = none) (hm : (metaEntry s c loc).1 < 255) :
    ∃ t, exec (.writeHalf ch) s = .next t ∧ halves t ch.val = rest ∧ isLocked t h.req.dma = false ∧
      (∀ l, modified h.req h.plain = some l → t.dram =
        (storeLine c loc h.req.dma k.1 k.2 ((metaEntry s c loc).1 + 1) l s).dram) ∧
      (modified h.req h.plain = none → t.dram = s.dram) := by
  obtain ⟨v, hexec⟩ := writeHalf_issues hh ht hl
  have hlines := halfTaken_sameLines ch.val rest v s
  have hhome' : homeOf (halfTaken ch.val rest v s) h.req.dma = (c, loc) := hhome
  refine ⟨finishRmw ch.val h.req h.plain (halfTaken ch.val rest v s), hexec.trans (by rw [finishHalf, if_neg hk]), ?_⟩
  cases hl : modified h.req h.plain with
  | none =>
    have hminor : (metaEntry (halfTaken ch.val rest v s) (homeOf (halfTaken ch.val rest v s) h.req.dma).1
        (homeOf (halfTaken ch.val rest v s) h.req.dma).2).1 < 255 := by
      rw [hhome', hlines.metaEntry]
      exact hm
    have hunlock := finishRmw_leaves (s := halfTaken ch.val rest v s) hl hminor ch.val
    exact ⟨by rw [hunlock.halves, halves_halfTaken], hunlock.released, nofun, fun _ => hunlock.dram.trans hlines.dram⟩
  | some l =>
    have hput : putLine h.req.region h.req.dma l (halfTaken ch.val rest v s) =
        storeLine c loc h.req.dma k.1 k.2 ((metaEntry s c loc).1 + 1) l (halfTaken ch.val rest v s) := by
      have hm' := (congrArg Prod.fst (hlines.metaEntry c loc)).trans_lt hm
      rw [putLine_next l hhome' hr hm', lineKey_halfTaken hr, hkey, hlines.metaEntry]
    have hunlock := finishRmw_puts hl ch.val (halfTaken ch.val rest v s)
    rw [hput] at hunlock
    refine ⟨by rw [hunlock.halves, halves_storeLine, halves_halfTaken], hunlock.released, ?_, nofun⟩
    intro l' hl'
    obtain rfl := Option.some.inj hl'
    exact hunlock.dram.trans (hlines.storeLine _ _ _ _ _ _ _).dram

end

/-! ### What is stored reads back (R134, R137, R138, R145) -/

/-- Big-endian bytes hold the low bytes of their number (R3). -/
theorem beNat_beBytes_mod (n v : Nat) : beNat (beBytes n v) = v % 256 ^ n := by
  induction n generalizing v with
  | zero => simp [beBytes, beNat, Nat.mod_one]
  | succ n ih =>
    have hsplit : beBytes (n + 1) v = beBytes n (v / 256) ++ [BitVec.ofNat 8 v] := by
      unfold beBytes
      rw [List.range_succ, List.map_append]
      congr 1
      · refine List.map_congr_left fun i hi => ?_
        have hlt : i < n := List.mem_range.mp hi
        rw [Nat.div_div_eq_div_mul, show (256 : Nat) = 2 ^ 8 from rfl, ← Nat.pow_add,
          show 8 * (n + 1 - 1 - i) = 8 + 8 * (n - 1 - i) by omega]
      · simp
    have hlast (bs : List Byte) (b : Byte) : beNat (bs ++ [b]) = beNat bs * 256 + b.toNat := by simp [beNat]
    rw [hsplit, hlast, ih, Nat.pow_succ, Nat.mul_comm (256 ^ n) 256, Nat.mod_mul]
    simp only [BitVec.toNat_ofNat]
    omega

/-- A metadata entry's bytes give its minor counter and tag (R134). -/
theorem metaBytes_read {minor : Nat} (h : minor < 256) (tag : BitVec 56) : beNat ((metaBytes minor tag).take 1) = minor ∧
    BitVec.ofNat 56 (beNat ((metaBytes minor tag).drop 1)) = tag := by
  have htake : (metaBytes minor tag).take 1 = beBytes 1 minor := rfl
  have hdrop : (metaBytes minor tag).drop 1 = beBytes 7 tag.toNat := rfl
  rw [htake, hdrop, beNat_beBytes_mod, beNat_beBytes_mod]
  refine ⟨Nat.mod_eq_of_lt h, BitVec.eq_of_toNat_eq ?_⟩
  have hlt := tag.isLt
  rw [BitVec.toNat_ofNat, Nat.mod_eq_of_lt (by omega), Nat.mod_eq_of_lt (by omega)]

theorem metaHome_fits (s : State) (ch loc : Nat) : (metaHome s ch loc).2 + 8 ≤ 64 := by
  unfold metaHome
  split
  · simp only [spareMeta]
    omega
  · dsimp only
    omega

/-- The bytes and the poison of a line stand as before. -/
structure LineKept (l : Nat) (s t : State) : Prop where
  bytes : ∀ a, a / 64 = l → Map.get (fillByte a) a t.dram.data = Map.get (fillByte a) a s.dram.data
  poison : isPoisoned t l = isPoisoned s l

theorem LineKept.trans {l : Nat} {a b c : State} (h : LineKept l a b) (h' : LineKept l b c) : LineKept l a c :=
  ⟨fun x hx => (h'.bytes x hx).trans (h.bytes x hx), h'.poison.trans h.poison⟩

theorem LineKept.data {l : Nat} {s t : State} (h : LineKept l s t) : lineData t l = lineData s l := by
  simp only [lineData, lineBytes, Memory.read]
  refine List.map_congr_left fun i hi => h.bytes _ ?_
  rw [List.mem_range] at hi
  omega

/-- Bytes written within a line leave every other line alone. -/
theorem writeBytes_lineKept {l line o : Nat} {bs : List Byte} (h : l ≠ line) (hfit : o + bs.length ≤ 64) (s : State) :
    LineKept l s (writeBytes line o bs s) := by
  refine ⟨fun a ha => writeBytes_outside (by omega), ?_⟩
  unfold isPoisoned writeBytes clearUpsets NSet.has NSet.del
  simp [List.contains_eq_mem, List.mem_filter, h]

theorem writeLine_lineKept {l line : Nat} (h : l ≠ line) (bs : List Byte) (s : State) : LineKept l s (writeLine line bs s) :=
  writeBytes_lineKept h (by simp [padTo]) s

theorem settleMisread_lineKept {l line : Nat} (h : l ≠ line) (s : State) : LineKept l s (settleMisread line s) := by
  unfold settleMisread
  split
  · next bs _ =>
    obtain ⟨hbytes, hpoison⟩ := writeLine_lineKept h bs s
    exact ⟨hbytes, hpoison⟩
  · exact ⟨fun _ _ => rfl, rfl⟩

section
variable {s : State} {ch loc : Nat} (hcopy : copyHome s ch loc = none)
include hcopy

theorem writeData_alone (ct : List Byte) : writeData ch loc ct s = writeLine (dataHome s ch loc) ct s := by
  unfold writeData
  rw [hcopy]

theorem writeMeta_alone (minor : Nat) (tag : BitVec 56) : writeMeta ch loc minor tag s =
    writeBytes (metaHome s ch loc).1 (metaHome s ch loc).2 (metaBytes minor tag) (settleMisread (metaHome s ch loc).1 s) := by
  unfold writeMeta
  rw [hcopy]

end

theorem writeMeta_lineKept {s : State} {ch loc l : Nat} (hcopy : copyHome s ch loc = none) (h : l ≠ (metaHome s ch loc).1) (minor : Nat)
    (tag : BitVec 56) : LineKept l s (writeMeta ch loc minor tag s) := by
  rw [writeMeta_alone hcopy]
  exact (settleMisread_lineKept h s).trans (writeBytes_lineKept h (metaHome_fits s ch loc) _)

theorem metaEntry_writeMeta {s : State} {ch loc minor : Nat} (hcopy : copyHome s ch loc = none) (hm : minor < 256) (tag : BitVec 56) :
    metaEntry (writeMeta ch loc minor tag s) ch loc = (minor, tag) := by
  obtain ⟨_, _, hremap⟩ := (writeMeta_rewrites ch loc minor tag s).kept
  obtain ⟨hminor, htag⟩ := metaBytes_read hm tag
  have hread : counterBytes (writeMeta ch loc minor tag s) (metaHome s ch loc).1 (metaHome s ch loc).2 8 = metaBytes minor tag := by
    rw [writeMeta_alone hcopy]
    exact counterBytes_write _ _ (metaBytes minor tag) _ (misreadOf_settle _ s)
  unfold metaEntry
  rw [metaHome_congr hremap]
  simp only [hread, hminor, htag]

/-- A line stored reads back with its metadata entry; the array is otherwise as it was (R145). -/
theorem storeLine_reads {s : State} {c loc dma slot major minor : Nat} {l ct : List Byte}
    (hct : ct = cipherLine (getKey s slot) slot dma major minor l) (hcopy : copyHome s c loc = none)
    (hne : dataHome s c loc ≠ (metaHome s c loc).1) (hm : minor < 256) :
    lineData (storeLine c loc dma slot major minor l s) (dataHome s c loc) = padTo 64 ct ∧
      metaEntry (storeLine c loc dma slot major minor l s) c loc = (minor, tagOf (getKey s slot) slot dma major minor ct) ∧
      isPoisoned (storeLine c loc dma slot major minor l s) (dataHome s c loc) = false ∧
      ∀ a, a / 64 ≠ dataHome s c loc → a / 64 ≠ (metaHome s c loc).1 →
        Map.get (fillByte a) a (storeLine c loc dma slot major minor l s).dram.data = Map.get (fillByte a) a s.dram.data := by
  obtain ⟨v, hv⟩ : ∃ v, v = writeLine (dataHome s c loc) ct s := ⟨_, rfl⟩
  have hremap : v.remap = s.remap := by rw [hv]; rfl
  have hcopy' : copyHome v c loc = none := by rw [copyHome_congr hremap, hcopy]
  obtain ⟨w, hw⟩ : ∃ w, w = writeMeta c loc minor (tagOf (getKey s slot) slot dma major minor ct) v := ⟨_, rfl⟩
  have hstore : storeLine c loc dma slot major minor l s = useRoundKeys c slot w := by
    unfold storeLine
    dsimp only
    rw [← hct, writeData_alone hcopy, ← hv, ← hw]
  have hmeta (x : Nat) (hx : x ≠ (metaHome s c loc).1) : LineKept x v w := by
    rw [hw]
    exact writeMeta_lineKept hcopy' (by rw [metaHome_congr hremap]; exact hx) _ _
  rw [hstore]
  refine ⟨?_, ?_, ?_, fun a hdata hma => ?_⟩
  · show lineData w (dataHome s c loc) = _
    rw [(hmeta _ hne).data, hv]
    exact lineData_writeLine _ _ _
  · show metaEntry w c loc = _
    rw [hw]
    exact metaEntry_writeMeta hcopy' hm _
  · show isPoisoned w (dataHome s c loc) = false
    rw [(hmeta _ hne).poison, hv]
    exact isPoisoned_writeBytes _ _ _ s
  · show Map.get (fillByte a) a w.dram.data = _
    rw [(hmeta _ hma).bytes a rfl, hv]
    exact (writeLine_lineKept hdata ct s).bytes a rfl

/-- Settles O48: the end of a request changes no byte of the array, so what WRITE_HALF leaves there is what storing the line leaves; and
a line stored reads back. -/
theorem writesTakeTheNextCounter : Obligations.WritesTakeTheNextCounter := by
  unfold Obligations.WritesTakeTheNextCounter
  refine ⟨fun ch s h rest hh ht => ⟨writeHalf_waits hh ht, fun c loc x hl hk hhome hx hm => writeHalf_carries hh ht hl hhome hk hx hm,
    fun c loc k hl hk hhome hkey hr hm => writeHalf_stores hh ht hl hhome hk hkey hr hm⟩, ?_⟩
  rintro s _ c loc dma slot major minor l ct rfl hct hcopy hne hm
  exact storeLine_reads hct hcopy hne hm

end Sys2Proof.Safety

namespace Sys2Proof.Safety
open Sys2Proof.Machine

/-! ### TRIM (R116) -/

/-- The held clock stands at `us` microseconds. -/
def heldClockAt (us : Nat) (s : State) : State :=
  { s with tank := { s.tank with held := some (BitVec.ofNat 32 (us / 60000000), us % 60000000) } }

section
variable {f : ChainFrame} {s : State} {d : Int} (hd : d = signedOf 32 (field f.payload 0 4)) (h0 : d ≠ 0) (hmax : d.natAbs ≤ 1000)
include hd h0 hmax

theorem trimRule_held {h : BitVec 32 × Nat} (ha : s.tank.anchored = false) (hh : s.tank.held = some h) :
    trimRule f s = done (timeBytes s) (heldClockAt (addUs (h.1.toNat * 60000000 + h.2) (d * 1000)) s) := by
  subst hd
  unfold trimRule
  rw [if_neg (by omega), if_pos (by simp [ha]), hh]
  rfl

theorem trimRule_anchored (ha : s.tank.anchored = true) :
    trimRule f s =
      let clock := addUs (deviceUs s - s.tank.holdUs) (d * 1000)
      let t := if deviceUs s ≤ clock then stepForward clock s else { s with tank := { s.tank with holdUs := deviceUs s - clock } }
      done (timeBytes t) t := by
  subst hd
  unfold trimRule
  rw [if_neg (by omega), if_neg (by simp [ha])]

end

/-- A step forward leaves the clock anchored. -/
theorem stepForward_anchored (us : Nat) (s : State) : (stepForward us s).tank.anchored = s.tank.anchored := by
  unfold stepForward
  obtain ⟨x, hx⟩ := settleRound_moves { s with tank := { s.tank with minute := BitVec.ofNat 32 (us / 60000000), usec := us % 60000000, holdUs := 0 } }
  rw [hx]

/-- What a step forward answers is the time that it sets (R115, R116). -/
theorem timeBytes_stepForward (us : Nat) {s : State} (ha : s.tank.anchored = true) :
    timeBytes (stepForward us s) = beBytes 4 (BitVec.ofNat 32 (us / 60000000)).toNat ++ beBytes 4 (us % 60000000) := by
  have hus : us / 60000000 * 60000000 + us % 60000000 = us := Nat.div_add_mod' us 60000000
  obtain ⟨hmin, husec, -, -⟩ := stepForward_clock (us / 60000000) (us % 60000000) (Nat.mod_lt _ (by decide)) s
  rw [hus] at hmin husec
  unfold timeBytes stamp
  rw [if_pos ((stepForward_anchored us s).trans ha), hmin, husec]

/-- Settles O2: the held clock and a clock that stands still are set as the rule says; a step forward sets the clock before its boundaries. -/
theorem trimMovesDeviceTime : Obligations.TrimMovesDeviceTime := by
  unfold Obligations.TrimMovesDeviceTime
  intro p f s d hr hd h0 hmax
  refine ⟨?_, fun ha hlt => ?_, fun ha hle => ?_⟩
  · rintro h v ha hh rfl
    obtain ⟨t, ht, hc, hans⟩ := runCommand_carried (rule := trimRule f) (pl := timeBytes s)
      (u := heldClockAt (addUs (h.1.toNat * 60000000 + h.2) (d * 1000)) s) hr (.inl rfl) fun s1 h1 => by
        rw [trimRule_held hd h0 hmax (by rw [h1.tank]; exact ha) (by rw [h1.tank]; exact hh)]
        refine ⟨rfl, timeBytes_congr h1.tank, ?_⟩
        unfold done heldClockAt
        rw [h1.tank]
        exact h1.withTank _
    exact ⟨t, congrArg _ ht, hans, hc⟩
  · obtain ⟨t, ht, hc, hans⟩ := runCommand_carried (rule := trimRule f) (pl := timeBytes s)
      (u := { s with tank := { s.tank with holdUs := deviceUs s - addUs (deviceUs s - s.tank.holdUs) (d * 1000) } })
      hr (.inl rfl) fun s1 h1 => by
        rw [trimRule_anchored hd h0 hmax (by rw [h1.tank]; exact ha), deviceUs_congr h1.tank, h1.tank]
        dsimp only
        rw [if_neg (by omega)]
        refine ⟨rfl, ?_, h1.withTank _⟩
        show timeBytes _ = timeBytes s
        unfold timeBytes stamp
        rfl
    exact ⟨t, congrArg _ ht, hans, hc⟩
  · generalize hclock : addUs (deviceUs s - s.tank.holdUs) (d * 1000) = clock at hle ⊢
    have hrule (s1 : State) (h1 : Commanded s s1) : trimRule f s1 = done (timeBytes (stepForward clock s1)) (stepForward clock s1) := by
      rw [trimRule_anchored hd h0 hmax (by rw [h1.tank]; exact ha), deviceUs_congr h1.tank, h1.tank, hclock]
      dsimp only
      rw [if_pos hle]
    obtain ⟨t, s1, ht, h1, hc, -⟩ := runCommand_acts (rule := trimRule f) (pl := timeBytes (stepForward clock s)) hr (.inl rfl) fun s1 h1 => by
      rw [hrule s1 h1]
      refine ⟨rfl, ?_⟩
      show timeBytes _ = timeBytes _
      rw [timeBytes_stepForward clock (by rw [h1.tank]; exact ha), timeBytes_stepForward clock ha]
    rw [hrule s1 h1] at hc
    obtain ⟨hmin, husec, hhold, -⟩ := stepForward_clock (clock / 60000000) (clock % 60000000) (Nat.mod_lt _ (by decide)) s1
    rw [Nat.div_add_mod' clock 60000000] at hmin husec hhold
    refine ⟨t, congrArg _ ht, ?_⟩
    rw [hc.tank]
    exact ⟨hhold, hmin, husec⟩

end Sys2Proof.Safety

namespace Sys2Proof.Safety
open Sys2Proof.Machine

/-! ### What work on a region's entry and its lease-state record leaves alone (R112) -/

/-- A relation that holds of each step of a loop over the elements of its list, and composes, holds of the loop. -/
theorem forEach_relates_mem {α : Type} {R : State → State → Prop} {f : α → State → State} (refl : ∀ s, R s s)
    (trans : ∀ {a b c}, R a b → R b c → R a c) {l : List α} (hf : ∀ x ∈ l, ∀ s, R s (f x s)) (s : State) : R s (forEach l f s) := by
  unfold forEach
  induction l generalizing s with
  | nil => exact refl s
  | cons x l ih => exact trans (hf x List.mem_cons_self s) (ih (fun y hy => hf y (List.mem_cons_of_mem _ hy)) (f x s))

theorem LineKept.refl (l : Nat) (s : State) : LineKept l s s := ⟨fun _ _ => rfl, rfl⟩

theorem LineKept.of_dram {l : Nat} {s t : State} (h : t.dram = s.dram) : LineKept l s t := by
  refine ⟨fun _ _ => ?_, ?_⟩
  · rw [h]
  · unfold isPoisoned
    rw [h]

/-- Nothing of what leases rest on differs, but for the entry of region i, the line of its lease-state record, the keys, what waits, and
the records but for the open minute. -/
structure EntryWork (i : Nat) (s t : State) : Prop where
  steady : Steady s t
  others : ∀ j, j ≠ i → getRegion t j = getRegion s j
  openMinute : t.records.openMinute = s.records.openMinute
  relief : t.relief = s.relief
  bist : t.bist = s.bist
  misread : t.misread = s.misread
  metaCache : t.metaCache = s.metaCache
  pageCache : t.pageCache = s.pageCache
  lines : ∀ l, l ≠ (leaseHome s i).1 → LineKept l s t

/-- As `EntryWork`, with the keys, the records, the flash, the Separator and the path as they were. -/
structure LoadWork (i : Nat) (s t : State) : Prop extends EntryWork i s t where
  keys : t.keys = s.keys
  ready : keyReady t = keyReady s
  records : t.records = s.records
  flash : t.flash = s.flash
  sep : t.sep = s.sep
  path : t.path = s.path

/-- As `LoadWork`, with every entry as it was, and what waits for a start. -/
structure RecordWork (i : Nat) (s t : State) : Prop extends LoadWork i s t where
  regions : t.regions = s.regions
  held : t.held = s.held

theorem leaseHome_congr {s t : State} (h : t.relief = s.relief) (i : Nat) : leaseHome t i = leaseHome s i := by
  unfold leaseHome systemHome
  rw [h]

theorem getRegion_congr {s t : State} (h : t.regions = s.regions) (i : Nat) : getRegion t i = getRegion s i := by
  unfold getRegion
  rw [h]

theorem EntryWork.home {i : Nat} {s t : State} (h : EntryWork i s t) (j : Nat) : leaseHome t j = leaseHome s j := leaseHome_congr h.relief j

theorem EntryWork.refl (i : Nat) (s : State) : EntryWork i s s :=
  ⟨.refl s, fun _ _ => rfl, rfl, rfl, rfl, rfl, rfl, rfl, fun _ _ => .refl _ s⟩

theorem EntryWork.trans {i : Nat} {a b c : State} (h : EntryWork i a b) (h' : EntryWork i b c) : EntryWork i a c where
  steady := h.steady.trans h'.steady
  others j hj := (h'.others j hj).trans (h.others j hj)
  openMinute := h'.openMinute.trans h.openMinute
  relief := h'.relief.trans h.relief
  bist := h'.bist.trans h.bist
  misread := h'.misread.trans h.misread
  metaCache := h'.metaCache.trans h.metaCache
  pageCache := h'.pageCache.trans h.pageCache
  lines l hl := (h.lines l hl).trans (h'.lines l (by rw [h.home]; exact hl))

theorem LoadWork.refl (i : Nat) (s : State) : LoadWork i s s := ⟨.refl i s, rfl, rfl, rfl, rfl, rfl, rfl⟩

theorem LoadWork.trans {i : Nat} {a b c : State} (h : LoadWork i a b) (h' : LoadWork i b c) : LoadWork i a c where
  toEntryWork := h.toEntryWork.trans h'.toEntryWork
  keys := h'.keys.trans h.keys
  ready := h'.ready.trans h.ready
  records := h'.records.trans h.records
  flash := h'.flash.trans h.flash
  sep := h'.sep.trans h.sep
  path := h'.path.trans h.path

theorem RecordWork.refl (i : Nat) (s : State) : RecordWork i s s := ⟨.refl i s, rfl, rfl⟩

theorem RecordWork.trans {i : Nat} {a b c : State} (h : RecordWork i a b) (h' : RecordWork i b c) : RecordWork i a c :=
  ⟨h.toLoadWork.trans h'.toLoadWork, h'.regions.trans h.regions, h'.held.trans h.held⟩

theorem RecordWork.entry {i : Nat} {s t : State} (h : RecordWork i s t) (j : Nat) : getRegion t j = getRegion s j := getRegion_congr h.regions j

/-! Reports, draws and decodes. -/

/-- Nothing but reports, the journal, the channel engines, free values and which first generations are drawn differs. -/
def Beside (s t : State) : Prop :=
  ∃ k h l c r j n e g,
    t = { s with churn := k, chain := h, chainSent := l, ctr := c, retiring := r, journal := j, free := n, chans := e, genDrawn := g }

theorem Beside.work {i : Nat} {s t : State} : Beside s t → RecordWork i s t := by
  rintro ⟨_, _, _, _, _, _, _, _, _, rfl⟩
  exact ⟨⟨⟨⟨rfl, rfl, rfl⟩, fun _ _ => rfl, rfl, rfl, rfl, rfl, rfl, rfl, fun _ _ => .of_dram rfl⟩, rfl, rfl, rfl, rfl, rfl, rfl⟩, rfl, rfl⟩

theorem Reports.work {i : Nat} {s t : State} : Reports s t → RecordWork i s t := by
  rintro ⟨_, _, _, _, _, rfl⟩
  exact Beside.work ⟨_, _, _, _, _, _, _, _, _, rfl⟩

theorem Events.work {i : Nat} {s t : State} : Events s t → RecordWork i s t := by
  rintro ⟨_, _, _, _, _, rfl⟩
  exact Beside.work ⟨_, _, _, _, _, _, _, _, _, rfl⟩

theorem journalEvent_work {i src : Nat} {ty : Byte} {r : Nat} {a : List Byte} {s : State} : RecordWork i s (journalEvent src ty r a s) :=
  (journalEvent_events src ty r a s).work

theorem drawn_work {i : Nat} {s : State} : RecordWork i s (drawn s) := Beside.work ⟨_, _, _, _, _, _, _, _, _, rfl⟩

theorem setChan_work {i ch : Nat} {v : Chan} {s : State} : RecordWork i s (setChan ch v s) := Beside.work ⟨_, _, _, _, _, _, _, _, _, rfl⟩

theorem updateSeed_entropyOk (x : BitVec 384) (d : Drbg) : (updateSeed x d).entropyOk = d.entropyOk := by
  unfold updateSeed
  rfl

theorem reseed_entropyOk (s : State) : (reseed s).drbg.entropyOk = s.drbg.entropyOk := by
  simp only [reseed, drawn, updateSeed_entropyOk]

theorem generate_entropyOk (n : Nat) (s : State) : (generate n s).2.drbg.entropyOk = s.drbg.entropyOk := by
  simp only [generate, updateSeed_entropyOk]
  split
  · exact reseed_entropyOk s
  · rfl

/-- A generate request leaves the generator as ready as it was (R132). -/
theorem generate_ready (n : Nat) (s : State) : keyReady (generate n s).2 = keyReady s := by
  unfold keyReady
  rw [generate_instantiated, generate_entropyOk]

theorem generate_work {i : Nat} (n : Nat) (s : State) : RecordWork i s (generate n s).2 := by
  have hready := generate_ready n s
  obtain ⟨_, _, h⟩ := generate_frame n s
  rw [h] at hready ⊢
  exact ⟨⟨⟨⟨rfl, rfl, rfl⟩, fun _ _ => rfl, rfl, rfl, rfl, rfl, rfl, rfl, fun _ _ => .of_dram rfl⟩, rfl, hready, rfl, rfl, rfl, rfl⟩, rfl, rfl⟩

theorem countBurst_work {i line : Nat} {d : Decoded} {s : State} : RecordWork i s (countBurst line d s) := by
  unfold countBurst
  dsimp only
  split
  · exact setChan_work
  · split
    · exact setChan_work.trans (startRetirement_reports _ _).work
    · exact setChan_work
  · exact setChan_work

theorem earlyScrub_work {i ch line : Nat} {dma : Option Nat} {s : State} : RecordWork i s (earlyScrub ch line dma s) := by
  unfold earlyScrub
  dsimp only
  split
  · exact setChan_work
  · exact (headCount_reports _ _ _).work

theorem readSystem_work {i line detail : Nat} {s : State} : RecordWork i s (readSystem line detail s).2 := by
  unfold readSystem
  extract_lets ch d
  have hd : RecordWork i s d.2 := drawn_work.trans countBurst_work
  split
  · exact hd
  · exact (hd.trans (noteCorrection_reports _ _ _ _ _ _ _ _).work).trans earlyScrub_work
  · exact (hd.trans (chanCount_reports _ _ _ _).work).trans (raiseDetail_messages _ _ _ _ _).events.work

/-! The line of a lease-state record (R159). -/

theorem leaseBytes_length (e : LeaseRec) : (leaseBytes e).length = 16 := by simp [leaseBytes, beBytes]

theorem leaseHome_fits (s : State) (i : Nat) : (leaseHome s i).2 + 16 ≤ 64 := by
  unfold leaseHome
  dsimp only
  omega

/-- The records of a group lie in one line (R159). -/
theorem leaseHome_group {i j : Nat} (h : j ∈ recordGroup i) (s : State) : (leaseHome s j).1 = (leaseHome s i).1 := by
  unfold recordGroup upTo at h
  obtain ⟨k, hk, rfl⟩ := List.mem_map.mp h
  have hk4 : k < 4 := List.mem_range.mp hk
  unfold leaseHome
  dsimp only
  rw [show ((i / 256 * 4 + k) * 64 + i % 64) % 64 = i % 64 by omega, show ((i / 256 * 4 + k) * 64 + i % 64) / 64 / 4 = i / 64 / 4 by omega]

/-- Every system line that holds lease-state records lies in the system rows, in place or in a relief area (R158, R186). -/
theorem isSystemLine_leaseHome (s : State) {i : Nat} (h : i < 131072) : isSystemLine (leaseHome s i).1 = true := by
  unfold leaseHome systemHome
  dsimp only
  split
  · split
    · exact (systemIndex_systemLine _ (by omega)).1
    · exact (systemIndex_systemLine _ (by omega)).1
  · exact (systemIndex_systemLine _ (by omega)).1

/-- Work that leaves every line but that of a region's record leaves the tenants' data. -/
theorem EntryWork.tenants {i : Nat} {s t : State} (h : EntryWork i s t) (hi : i < 131072) : TenantsKept s t := by
  have hne (l : Nat) (hl : isSystemLine l = false) : l ≠ (leaseHome s i).1 := by
    rintro rfl
    rw [isSystemLine_leaseHome s hi] at hl
    cases hl
  exact ⟨fun a ha => (h.lines _ (hne _ ha)).bytes a rfl, fun l hl => (h.lines l (hne l hl)).poison⟩

theorem writeBytes_work {i line o : Nat} {bs : List Byte} {s : State} (hl : line = (leaseHome s i).1) (hfit : o + bs.length ≤ 64) :
    RecordWork i s (writeBytes line o bs s) :=
  ⟨⟨⟨⟨rfl, rfl, rfl⟩, fun _ _ => rfl, rfl, rfl, rfl, rfl, rfl, rfl, fun _ h => writeBytes_lineKept (hl ▸ h) hfit s⟩,
    rfl, rfl, rfl, rfl, rfl, rfl⟩, rfl, rfl⟩

theorem writeLine_work {i line : Nat} {bs : List Byte} {s : State} (hl : line = (leaseHome s i).1) : RecordWork i s (writeLine line bs s) :=
  writeBytes_work hl (by simp [padTo])

theorem writeSystem_work {i line o : Nat} {bs : List Byte} {s : State} (hl : line = (leaseHome s i).1) (hfit : o + bs.length ≤ 64) :
    RecordWork i s (writeSystem line o bs s) := by
  unfold writeSystem
  split
  · exact ⟨⟨⟨⟨rfl, rfl, rfl⟩, fun _ _ => rfl, rfl, rfl, rfl, rfl, rfl, rfl, fun _ _ => ⟨fun _ _ => rfl, rfl⟩⟩, rfl, rfl, rfl, rfl, rfl, rfl⟩, rfl, rfl⟩
  · exact writeBytes_work hl hfit

/-- A lost line of records is built again from the entries: no other line changes (R224). -/
theorem rebuildRecs_work (i : Nat) (s : State) : RecordWork i s (rebuildRecs i s) := by
  refine (writeLine_work rfl).trans (forEach_relates_mem (.refl i) .trans (fun j hj t => ?_) _)
  have hgroup := leaseHome_group (List.mem_of_mem_filter hj) t
  split
  · exact writeBytes_work hgroup (by rw [leaseBytes_length]; exact leaseHome_fits t j)
  · exact Beside.work ⟨_, _, _, _, _, _, _, _, _, rfl⟩

theorem readRec_work (i : Nat) (s : State) : RecordWork i s (readRec i s).2 := by
  unfold readRec readLines
  simp only [List.foldl_cons, List.foldl_nil]
  split
  · exact readSystem_work
  · exact readSystem_work.trans (rebuildRecs_work i _)

theorem putRec_work (i : Nat) (e : LeaseRec) (s : State) : RecordWork i s (putRec i e s) := by
  have hread := readRec_work i s
  have hwrite : RecordWork i (readRec i s).2 (writeSystem (leaseHome s i).1 (leaseHome s i).2 (leaseBytes e) (readRec i s).2) :=
    writeSystem_work (by rw [hread.home]) (by rw [leaseBytes_length]; exact leaseHome_fits s i)
  exact (hread.trans hwrite).trans (systemBursts_reports _ _ _).work

theorem saveLease_work (i : Nat) (s : State) : RecordWork i s (saveLease i s) := putRec_work i _ s

theorem markedRow_congr {s t : State} (h : t.bist = s.bist) (line : Nat) : markedRow t line = markedRow s line := by
  unfold markedRow
  rw [h]

/-- A record that is written reads back while no row test holds its row (R112). -/
theorem putRec_reads {i : Nat} {s : State} (hm : markedRow s (leaseHome s i).1 = false) (e : LeaseRec) :
    lineBytes (putRec i e s) (leaseHome s i).1 (leaseHome s i).2 16 = leaseBytes e := by
  have hread := readRec_work i s
  have hbursts (ch n : Nat) (u : State) : (systemBursts ch n u).dram = u.dram := by
    obtain ⟨_, _, _, _, _, h⟩ := systemBursts_reports ch n u
    rw [h]
  have h := lineBytes_writeBytes (leaseHome s i).1 (leaseHome s i).2 (leaseBytes e) (readRec i s).2
  rw [leaseBytes_length] at h
  unfold putRec writeSystem
  dsimp only
  rw [markedRow_congr hread.bist, hm, if_neg (by decide)]
  unfold lineBytes at h ⊢
  rw [hbursts]
  exact h

/-- The record that is saved holds the entry (R112). -/
theorem saveLease_kept {i : Nat} {s : State} (hm : markedRow s (leaseHome s i).1 = false) : RecordKept i s (saveLease i s) := by
  unfold RecordKept
  rw [(saveLease_work i s).entry]
  exact putRec_reads hm _

end Sys2Proof.Safety

namespace Sys2Proof.Safety
open Sys2Proof.Machine

/-! ### REVOKE_LEASE (R124) -/

theorem Commanded.regions {u t : State} : Commanded u t → t.regions = u.regions := by
  rintro ⟨_, _, _, _, _, _, _, _, _, _, _, _, _, rfl⟩
  rfl

theorem tenantCount_regions (tenant n add : Nat) (s : State) : (tenantCount tenant n add s).regions = s.regions := by
  obtain ⟨_, _, _, _, _, _, _, _, _, _, _, h⟩ := tenantCount_loses tenant n add s
  rw [h]

/-- The entry of a region with an accepted revoke. -/
def revokedEntry (id m : BitVec 32) (r : Region) : Region := { r with revoked := true, revokeMinute := m, revokeId := id }

/-- A revoke that meets the conditions is done, and its region's entry alone is another (R124). -/
theorem revokeRule_accepts {f : ChainFrame} {s : State} {w : Nat} {id m : BitVec 32} (hw : w = field f.payload 0 4)
    (hid : id = BitVec.ofNat 32 (field f.payload 4 4)) (hm : m = BitVec.ofNat 32 (field f.payload 8 4)) (hlt : w < 131072)
    (huse : (getRegion s w).inUse = true) (hne : id ≠ 0) (hnamed : (getRegion s w).leaseId = id ∨ (getRegion s w).foId = id)
    (hlate : s.tank.minute.toNat < m.toNat) (hend : m.toNat ≤ namedEnd (getRegion s w) id)
    (hfirst : (getRegion s w).revokeMinute = 0xFFFFFFFF ∨ m.toNat < (getRegion s w).revokeMinute.toNat) :
    (revokeRule f s).status = 0x00 ∧ (revokeRule f s).payload = [] ∧
      (revokeRule f s).st.regions = (setRegion w (revokedEntry id m (getRegion s w)) s).regions := by
  subst hw hid hm
  unfold revokeRule
  dsimp only
  rw [if_neg (by omega), if_neg (by simp [huse]), if_neg, if_neg (by omega), if_neg (by omega), if_neg]
  · refine ⟨rfl, rfl, ?_⟩
    show (tenantCount _ _ _ _).regions = _
    rw [tenantCount_regions, (saveLease_work _ _).regions]
    rfl
  · simp only [Bool.and_eq_true, decide_eq_true_eq, not_and, not_le]
    exact fun h => hfirst.resolve_left h
  · simp only [Bool.or_eq_true, Bool.and_eq_true, decide_eq_true_eq, not_or, not_and, not_not]
    exact ⟨hne, fun h => hnamed.resolve_left h⟩

/-- Settles O3: the rule accepts, and its record and counter touch no entry. -/
theorem revokeLeaseMarksItsRegion : Obligations.RevokeLeaseMarksItsRegion := by
  unfold Obligations.RevokeLeaseMarksItsRegion
  intro p f s w id m hr hw hid hm hlt huse hne hnamed hlate hend hfirst
  have hrule (s1 : State) (h1 : Commanded s s1) : (revokeRule f s1).status = 0x00 ∧ (revokeRule f s1).payload = [] ∧
      (revokeRule f s1).st.regions = (setRegion w (revokedEntry id m (getRegion s w)) s).regions := by
    have hregion : getRegion s1 w = getRegion s w := getRegion_congr h1.regions w
    rw [← hregion] at huse hnamed hend hfirst
    obtain ⟨hst, hpl, hreg⟩ := revokeRule_accepts hw hid hm hlt huse hne hnamed (by rw [h1.tank]; exact hlate) hend hfirst
    refine ⟨hst, hpl, hreg.trans ?_⟩
    unfold setRegion
    rw [hregion, h1.regions]
  obtain ⟨t, s1, ht, h1, hc, hans⟩ := runCommand_acts hr (.inl rfl) fun s1 h1 => ⟨(hrule s1 h1).1, (hrule s1 h1).2.1⟩
  have hregions (i : Nat) : getRegion t i = getRegion (setRegion w (revokedEntry id m (getRegion s w)) s) i :=
    getRegion_congr (hc.regions.trans (hrule s1 h1).2.2) i
  refine ⟨t, congrArg _ ht, hans, ?_, fun i hi => ?_⟩
  · rw [hregions, getRegion_set_same]
    rfl
  · rw [hregions, getRegion_set_other _ hi]

end Sys2Proof.Safety

namespace Sys2Proof.Safety
open Sys2Proof.Machine

/-! ## A region moves to a new key (R148 to R153)

### Keys -/

theorem RecordKept.of_home {i : Nat} {s u t : State} (h : RecordKept i u t) (hr : u.relief = s.relief) : RecordKept i s t := by
  unfold RecordKept at h ⊢
  rwa [leaseHome_congr hr] at h

theorem setRegion_entry (i : Nat) (v : Region) (s : State) : EntryWork i s (setRegion i v s) :=
  ⟨⟨rfl, rfl, rfl⟩, fun _ h => getRegion_set_other s h v, rfl, rfl, rfl, rfl, rfl, rfl, fun _ _ => .of_dram rfl⟩

/-- Changes of the keys, of the Separator's work and of the round keys leave the entries and the array alone. -/
theorem withKeys_entry (i : Nat) (k : Table KeySlot) (x : Separator) (p : Path) (s : State) :
    EntryWork i s { s with keys := k, sep := x, path := p } :=
  ⟨⟨rfl, rfl, rfl⟩, fun _ _ => rfl, rfl, rfl, rfl, rfl, rfl, rfl, fun _ _ => .of_dram rfl⟩

theorem setKey_entry (i k : Nat) (v : KeySlot) (s : State) : EntryWork i s (setKey k v s) := withKeys_entry i _ s.sep s.path s

/-- A key drawn for a region is the generator's next output, in the lowest free slot, and nothing else but the generator differs (R120,
R131, R132). -/
structure KeyDrawn (region slot : Nat) (st : SlotState) (s t : State) : Prop where
  entry : EntryWork region s t
  regions : t.regions = s.regions
  sep : t.sep = s.sep
  key : getKey t slot = { key := (generate 256 s).1, hash := hashSubkey (generate 256 s).1, state := st, region := region }

theorem setKey_drawn {region slot : Nat} {st : SlotState} {s u : State} {v : KeySlot} (h : RecordWork region s u)
    (hv : v = { key := (generate 256 s).1, hash := hashSubkey (generate 256 s).1, state := st, region := region }) :
    KeyDrawn region slot st s (setKey slot v u) where
  entry := h.toEntryWork.trans (setKey_entry region slot v u)
  regions := h.regions
  sep := h.sep
  key := (getKey_set_same u slot v).trans hv

/-- A key is drawn when the generator is ready and a slot is free. -/
theorem drawKey_draws {s : State} {slot : Nat} (hr : keyReady s = true) (hf : firstFree s 8192 0 = some slot) (region : Nat) (st : SlotState) :
    ∃ t, drawKey region st s = some (slot, t) ∧ KeyDrawn region slot st s t := by
  unfold drawKey
  rw [hr, hf]
  exact ⟨_, rfl, setKey_drawn (generate_work 256 s) rfl⟩

/-! ### An entry that is written with its record (R112) -/

/-- An entry is written and its record saved: both show it, and nothing else rests on another line. -/
structure EntrySaved (i : Nat) (r : Region) (u t : State) : Prop where
  entry : EntryWork i u t
  shown : getRegion t i = r
  keys : t.keys = u.keys
  sep : t.sep = u.sep
  path : t.path = u.path
  records : t.records = u.records
  kept : markedRow u (leaseHome u i).1 = false → RecordKept i u t

theorem saveLease_saved (i : Nat) (r : Region) (u : State) : EntrySaved i r u (saveLease i (setRegion i r u)) := by
  have hset := setRegion_entry i r u
  have hsave := saveLease_work i (setRegion i r u)
  exact ⟨hset.trans hsave.toEntryWork, (hsave.entry i).trans (getRegion_set_same _ _ _), hsave.keys, hsave.sep, hsave.path, hsave.records,
    fun hm => (saveLease_kept (s := setRegion i r u) hm).of_home (u := setRegion i r u) hset.relief⟩

/-! ### The record of a re-key -/

theorem rekeyOf_region {s : State} {i : Nat} {k : Rekey} (h : rekeyOf s i = some k) : k.region = i := by
  simpa using List.find?_some h

theorem rekeyOf_congr {s t : State} (h : t.sep.rekeys = s.sep.rekeys) (i : Nat) : rekeyOf t i = rekeyOf s i := by
  unfold rekeyOf
  rw [h]

theorem rekeyOf_changeRekey {s : State} {i : Nat} {k : Rekey} {f : Rekey → Rekey} (h : rekeyOf s i = some k)
    (hf : ∀ x, (f x).region = x.region) : rekeyOf (changeRekey i f s) i = some (f k) := by
  have hregion := rekeyOf_region h
  unfold rekeyOf at h
  unfold rekeyOf changeRekey
  have hp : ((fun x : Rekey => decide (x.region = i)) ∘ fun x => if x.region = i then f x else x) = fun x => decide (x.region = i) := by
    funext x
    dsimp only [Function.comp]
    split
    · rw [hf]
    · rfl
  rw [List.find?_map, hp, h, Option.map_some, if_pos hregion]

/-! ### KEY_DRAW (R149, R151) -/

/-- The next key of a region enters its entry. -/
def nextKeyed (slot : Nat) (r : Region) : Region := { r with nextSlot := slot, nextValid := true }

theorem execKeyDraw_draws {region : Fin 131072} {s t : State} {k : Rekey} {slot : Nat} (hk : rekeyOf s region.val = some k)
    (hst : k.state = .draw) (hup : upkeepRuns s = true) (hd : drawKey region.val .next s = some (slot, t)) :
    exec (.keyDraw region) s = .next (saveLease region.val (setRegion region.val (nextKeyed slot (getRegion t region.val))
      (changeRekey region.val (fun x => { x with state := .move, newSlot := slot }) t))) := by
  show execKeyDraw region s = _
  unfold execKeyDraw
  simp only [hk, hst, hup, hd]
  rfl

theorem keyDraw_draws {region : Fin 131072} {s : State} {k : Rekey} {slot : Nat} (hk : rekeyOf s region.val = some k)
    (hup : upkeepRuns s = true) (hm : markedRow s (leaseHome s region.val).1 = false) (hst : k.state = .draw) (hr : keyReady s = true)
    (hf : firstFree s 8192 0 = some slot) :
    ∃ t, exec (.keyDraw region) s = .next t ∧ (getRegion t region.val).nextSlot = slot ∧ (getRegion t region.val).nextValid = true ∧
      getKey t slot = { key := (generate 256 s).1, hash := hashSubkey (generate 256 s).1, state := .next, region := region.val } ∧
      rekeyOf t region.val = some { k with state := .move, newSlot := slot } ∧ RecordKept region.val s t ∧ TenantsKept s t := by
  obtain ⟨g, hdraw, hg⟩ := drawKey_draws hr hf region.val .next
  refine ⟨_, execKeyDraw_draws hk hst hup hdraw, ?_⟩
  have hrk : rekeyOf g region.val = some k := (rekeyOf_congr (congrArg Separator.rekeys hg.sep) _).trans hk
  have hrk' := rekeyOf_changeRekey hrk (f := fun x => { x with state := .move, newSlot := slot }) fun _ => rfl
  obtain ⟨u, hu⟩ : ∃ u, u = changeRekey region.val (fun x => { x with state := .move, newSlot := slot }) g := ⟨_, rfl⟩
  have hchange : EntryWork region.val g u := by
    rw [hu]
    exact withKeys_entry _ g.keys _ g.path g
  have hkeys : u.keys = g.keys := by rw [hu]; rfl
  have hwork := hg.entry.trans hchange
  have hsaved := saveLease_saved region.val (nextKeyed slot (getRegion g region.val)) u
  rw [← hu] at hrk' ⊢
  refine ⟨by rw [hsaved.shown]; rfl, by rw [hsaved.shown]; rfl, ?_, ?_, ?_, (hwork.trans hsaved.entry).tenants region.isLt⟩
  · rw [← hg.key]
    unfold getKey
    rw [hsaved.keys, hkeys]
  · rw [rekeyOf_congr (congrArg Separator.rekeys hsaved.sep), hrk']
  · exact (hsaved.kept (by rw [markedRow_congr hwork.bist, hwork.home]; exact hm)).of_home hwork.relief

end Sys2Proof.Safety

namespace Sys2Proof.Safety
open Sys2Proof.Machine

/-! ### What the Separator's work on moves leaves alone (R146 to R150) -/

/-- Nothing but the Separator's work, the keys, the entries, counters and waiting fault messages differs. -/
def Separates (s t : State) : Prop :=
  ∃ a k r c x h g, t = { s with sep := a, keys := k, regions := r, ctr := c, records := x, churn := h, stats := g }

theorem Separates.refl (s : State) : Separates s s := ⟨_, _, _, _, _, _, _, rfl⟩

theorem Separates.trans {a b c : State} : Separates a b → Separates b c → Separates a c := by
  rintro ⟨_, _, _, _, _, _, _, rfl⟩ ⟨_, _, _, _, _, _, _, rfl⟩
  exact ⟨_, _, _, _, _, _, _, rfl⟩

theorem Separates.dram {s t : State} : Separates s t → t.dram = s.dram := by
  rintro ⟨_, _, _, _, _, _, _, rfl⟩
  rfl

theorem Separates.pageWord {s t : State} (page : Nat) : Separates s t → pageWord t page = pageWord s page := by
  rintro ⟨_, _, _, _, _, _, _, rfl⟩
  rfl

theorem changeRekey_separates (i : Nat) (f : Rekey → Rekey) (s : State) : Separates s (changeRekey i f s) := ⟨_, _, _, _, _, _, _, rfl⟩

theorem setRegion_separates (i : Nat) (v : Region) (s : State) : Separates s (setRegion i v s) := ⟨_, _, _, _, _, _, _, rfl⟩

/-- What stands of the Separator's work on re-keys and moves: the entries, the re-keys and the writes that wait. -/
structure MovesStand (s t : State) : Prop where
  separates : Separates s t
  regions : t.regions = s.regions
  rekeys : t.sep.rekeys = s.sep.rekeys
  waiting : t.sep.waiting = s.sep.waiting

theorem MovesStand.refl (s : State) : MovesStand s s := ⟨.refl s, rfl, rfl, rfl⟩

theorem MovesStand.trans {a b c : State} (h : MovesStand a b) (h' : MovesStand b c) : MovesStand a c :=
  ⟨h.separates.trans h'.separates, h'.regions.trans h.regions, h'.rekeys.trans h.rekeys, h'.waiting.trans h.waiting⟩

/-- A count for a tenant is its counter, its accumulator and at most a message (R125, R126). -/
theorem tenantCount_frame (tenant n add : Nat) (s : State) :
    ∃ c l h, tenantCount tenant n add s = { s with ctr := c, records := { s.records with live := l }, churn := h } := by
  have hacc (r : Records) : ∃ l, accumulate tenant n add r = { r with live := l } := by
    unfold accumulate
    split
    · exact ⟨_, rfl⟩
    · exact ⟨r.live, rfl⟩
  obtain ⟨l, hl⟩ := hacc s.records
  unfold tenantCount
  dsimp only
  rw [hl]
  split
  · obtain ⟨_, _, _, _, h⟩ := raise_messages 0x081 0x33 (tenant * 4096 + (0x28 + 8 * n))
      { s with ctr := { s.ctr with tenant := Map.set 0 (tenant * 32 + n) (satAdd max64 (Map.get 0 (tenant * 32 + n) s.ctr.tenant) add) s.ctr.tenant },
               records := { s.records with live := l } }
    rw [h]
    exact ⟨_, _, _, rfl⟩
  · exact ⟨_, _, _, rfl⟩

theorem startRewrite_frame (page region major : Nat) (moved : BitVec 64) (s : State) :
    MovesStand s (startRewrite page region major moved s) ∧ ∃ x : Rewrite, x.page = page ∧
      (startRewrite page region major moved s).sep.rewrites = s.sep.rewrites ++ [x] := by
  unfold startRewrite
  obtain ⟨_, _, _, h⟩ := tenantCount_frame (regionTenant s region) 16 1
    { s with sep := { s.sep with rewrites := s.sep.rewrites ++ [{ page := page, region := region, major := major, moved := moved, move := false, recover := false, heldReqs := [] }] },
             stats := { s.stats with pageRewrites := satAdd max48 s.stats.pageRewrites 1 } }
  rw [h]
  exact ⟨⟨⟨_, _, _, _, _, _, _, rfl⟩, rfl, rfl, rfl⟩, _, rfl, rfl⟩

/-- One step of `startDue`: the rewrite of a page that waits for it starts, where it can. -/
def startOneDue (e : Nat × Nat) (t : State) : State :=
  if (rewriteOf t e.1).isSome || !sepRoom t then t
  else
    let w := pageWord t e.1
    let u := { t with sep := { t.sep with due := t.sep.due.filter (fun x => x.1 ≠ e.1) } }
    if pwFresh w || pwMajor w = exhaustedMajor then u else startRewrite e.1 e.2 (pwMajor w) 0 u

theorem startDue_eq (s : State) : startDue s = forEach s.sep.due startOneDue s := rfl

theorem startOneDue_stand (e : Nat × Nat) (t : State) : MovesStand t (startOneDue e t) := by
  have hdue : MovesStand t { t with sep := { t.sep with due := t.sep.due.filter (fun x => x.1 ≠ e.1) } } :=
    ⟨⟨_, _, _, _, _, _, _, rfl⟩, rfl, rfl, rfl⟩
  unfold startOneDue
  dsimp only
  split
  · exact .refl t
  · split
    · exact hdue
    · exact hdue.trans (startRewrite_frame _ _ _ _ _).1

theorem startDue_stand (s : State) : MovesStand s (startDue s) := by
  rw [startDue_eq]
  exact forEach_relates .refl .trans startOneDue_stand _ s

/-- A rewrite that starts is of its own page. -/
theorem startOneDue_rewriteOf {e : Nat × Nat} {page : Nat} (he : e.1 ≠ page) {t : State} (h : rewriteOf t page = none) :
    rewriteOf (startOneDue e t) page = none := by
  unfold startOneDue
  dsimp only
  split
  · exact h
  · split
    · exact h
    · obtain ⟨-, x, hx, hrw⟩ := startRewrite_frame e.1 e.2 (pwMajor (pageWord t e.1)) 0
        { t with sep := { t.sep with due := t.sep.due.filter (fun x => x.1 ≠ e.1) } }
      unfold rewriteOf at h ⊢
      rw [hrw, List.find?_append, h]
      simp [hx, he]

/-- No rewrite starts on a page that waits for none. -/
theorem startDue_rewriteOf {page : Nat} {s : State} (hd : pageDue s page = false) (h : rewriteOf s page = none) :
    rewriteOf (startDue s) page = none := by
  have hne (e : Nat × Nat) (he : e ∈ s.sep.due) : e.1 ≠ page := by
    unfold pageDue at hd
    simpa using List.any_eq_false.mp hd e he
  rw [startDue_eq]
  exact forEach_relates_mem (R := fun a b => rewriteOf a page = none → rewriteOf b page = none) (fun _ => id) (fun h h' => h' ∘ h)
    (fun e he t ht => startOneDue_rewriteOf (hne e he) ht) s h

/-! ### The page word of a page that has moved (R150) -/

theorem writePageWord_rewrites (page : Nat) (w : BitVec 32) (s : State) : Rewrites s (writePageWord page w s) :=
  (settleMisread_rewrites _ s).trans (writeBytes_rewrites _ _ _ _)

/-- The move of a page is noted: one page fewer remains, and its word bears the other key's bit with major counter 0. -/
structure PageMoved (i page : Nat) (fresh : Bool) (s t : State) : Prop where
  remaining : (getRegion t i).pagesRemaining = (getRegion s i).pagesRemaining - 1
  word : pageWord t page = mkPageWord (!(getRegion s i).curBit) fresh 0
  rekey : ∀ k, rekeyOf s i = some k → ∃ k', rekeyOf t i = some k' ∧ k'.moved = k.moved + 1 ∧ k'.sweep = k.sweep

/-- The Separator's rewrites, the writes that wait and the rewrites that are due stand as before. -/
structure ListsStand (s t : State) : Prop where
  rewrites : t.sep.rewrites = s.sep.rewrites
  waiting : t.sep.waiting = s.sep.waiting
  due : t.sep.due = s.sep.due

/-- A page fewer is left to move. -/
def onePageFewer (r : Region) : Region := { r with pagesRemaining := r.pagesRemaining - 1 }

/-- A page has moved, and leaves the lists of its re-key. -/
def pageGone (page : Nat) (k : Rekey) : Rekey :=
  { k with moved := k.moved + 1, lost := k.lost.filter (· ≠ page), exhausted := k.exhausted.filter (· ≠ page) }

theorem writeMoved_eq (i page : Nat) (fresh : Bool) (s : State) : writeMoved i page fresh s =
    let u := changeRekey i (pageGone page) (writePageWord page (mkPageWord (!(getRegion s i).curBit) fresh 0) s)
    setRegion i (onePageFewer (getRegion u i)) u := rfl

theorem writeMoved_moved (i page : Nat) (fresh : Bool) (s : State) :
    PageMoved i page fresh s (writeMoved i page fresh s) ∧ ListsStand s (writeMoved i page fresh s) := by
  rw [writeMoved_eq]
  have hword := pageWord_write page (mkPageWord (!(getRegion s i).curBit) fresh 0) s
  obtain ⟨d, m, h⟩ := writePageWord_rewrites page (mkPageWord (!(getRegion s i).curBit) fresh 0) s
  rw [h] at hword ⊢
  generalize hu : ({ s with dram := d, misread := m } : State) = u at hword
  have hregion : getRegion (changeRekey i (pageGone page) u) i = getRegion s i := by
    subst hu
    rfl
  have hsep : u.sep = s.sep := by
    subst hu
    rfl
  dsimp only
  rw [hregion]
  refine ⟨⟨?_, ?_, fun k hk => ⟨pageGone page k, ?_, rfl, rfl⟩⟩, by rw [← hsep]; rfl, by rw [← hsep]; rfl, by rw [← hsep]; rfl⟩
  · rw [getRegion_set_same]
    rfl
  · rw [((changeRekey_separates i (pageGone page) u).trans (setRegion_separates i _ _)).pageWord, hword]
  · exact rekeyOf_changeRekey ((rekeyOf_congr (congrArg Separator.rekeys hsep) i).trans hk) fun _ => rfl

/-! ### The end of MOVE (R149) -/

/-- The check for the end of MOVE changes at most the state of the re-key and of the old slot. -/
structure FlushNoted (i : Nat) (s t : State) : Prop where
  separates : Separates s t
  regions : t.regions = s.regions
  lists : ListsStand s t
  rekey : ∀ k, rekeyOf s i = some k → ∃ st, rekeyOf t i = some { k with state := st }

theorem maybeFlush_noted (i : Nat) (s : State) : FlushNoted i s (maybeFlush i s) := by
  have hsame : FlushNoted i s s := ⟨.refl s, rfl, ⟨rfl, rfl, rfl⟩, fun k hk => ⟨k.state, hk⟩⟩
  unfold maybeFlush
  dsimp only
  split
  · exact hsame
  · split
    · exact ⟨⟨_, _, _, _, _, _, _, rfl⟩, rfl, ⟨rfl, rfl, rfl⟩, fun k hk =>
        ⟨.flush, rekeyOf_changeRekey hk (f := fun x => { x with state := .flush }) fun _ => rfl⟩⟩
    · exact hsame

/-- While the sweep has pages left MOVE goes on. -/
theorem maybeFlush_early {i : Nat} {s : State} {k : Rekey} (hk : rekeyOf s i = some k) (h : k.sweep < regionPages (getRegion s i)) :
    maybeFlush i s = s := by
  unfold maybeFlush
  simp only [hk]
  rw [if_neg]
  simp only [Bool.and_eq_true, decide_eq_true_eq, not_and]
  intro hc
  omega

/-- MOVE ends when nothing is left to move (R149). -/
theorem maybeFlush_flushes {i : Nat} {s : State} {k : Rekey} (hk : rekeyOf s i = some k) (hst : k.state = .move)
    (hsweep : regionPages (getRegion s i) ≤ k.sweep) (hlost : k.lost = [])
    (hmoved : ∀ j < regionPages (getRegion s i), unmoved s i ((getRegion s i).slab * 16 + j) = false) :
    rekeyOf (maybeFlush i s) i = some { k with state := .flush } ∧ (getKey (maybeFlush i s) (getRegion s i).curSlot).state = .retiring := by
  unfold maybeFlush
  simp only [hk]
  rw [if_pos]
  · refine ⟨?_, ?_⟩
    · exact rekeyOf_changeRekey hk (f := fun x => { x with state := .flush }) fun _ => rfl
    · rw [getKey_set_same]
  · simpa [hst, hsweep, hlost] using hmoved

theorem maybeFlush_stays {i : Nat} {s : State} {k : Rekey} (hk : rekeyOf s i = some k)
    (h : ¬(k.lost = [] ∧ ∀ j < regionPages (getRegion s i), unmoved s i ((getRegion s i).slab * 16 + j) = false)) : maybeFlush i s = s := by
  unfold maybeFlush
  simp only [hk]
  rw [if_neg]
  simp only [Bool.and_eq_true, decide_eq_true_eq, List.all_eq_true, List.mem_range, Bool.not_eq_true', not_and]
  rintro ⟨-, hlost⟩ hall
  exact h ⟨hlost, hall⟩

/-- A page moved stays so through the check. -/
theorem PageMoved.flush {i page : Nat} {fresh : Bool} {s t u : State} (h : PageMoved i page fresh s t) (hf : FlushNoted i t u) :
    PageMoved i page fresh s u where
  remaining := by rw [getRegion_congr hf.regions, h.remaining]
  word := by rw [hf.separates.pageWord, h.word]
  rekey k hk := by
    obtain ⟨k', hk', hmoved, hsweep⟩ := h.rekey k hk
    obtain ⟨st, hst⟩ := hf.rekey k' hk'
    exact ⟨_, hst, hmoved, hsweep⟩

/-! ### PAGE_MOVE (R150, R151) -/

/-- The record that the move of a page begins with. -/
def moveRecord (s : State) (i page : Nat) : Rewrite :=
  { page := page, region := i, major := pwMajor (pageWord s page), moved := 0, move := true, recover := false, heldReqs := [] }

theorem beginMove_fresh {s : State} {page : Nat} {lost : Bool} (h : lost = false ∧ pwFresh (pageWord s page) = true) (i : Nat) :
    beginMove i page lost s = writeMoved i page true s := by
  unfold beginMove
  rw [if_pos (by simp [h.1, h.2])]

theorem beginMove_records {s : State} {page : Nat} {lost : Bool} (h : ¬(lost = false ∧ pwFresh (pageWord s page) = true)) (i : Nat) :
    beginMove i page lost s = { s with sep := { s.sep with rewrites := s.sep.rewrites ++ [moveRecord s i page] } } := by
  unfold beginMove
  rw [if_neg]
  · rfl
  · simpa using h

/-- A page's move that begins with its record is found by its page, the array as it was. -/
theorem rewriteOf_begun {s : State} {page : Nat} (h : rewriteOf s page = none) (i : Nat) :
    rewriteOf { s with sep := { s.sep with rewrites := s.sep.rewrites ++ [moveRecord s i page] } } page = some (moveRecord s i page) := by
  unfold rewriteOf at h ⊢
  rw [List.find?_append, h]
  simp [moveRecord]

theorem rewriteOf_page {s : State} {page : Nat} {x : Rewrite} (h : rewriteOf s page = some x) : x.page = page := by
  simpa using List.find?_some h

theorem rewriteOf_of_rewrites {s t : State} (h : t.sep.rewrites = s.sep.rewrites) (page : Nat) : rewriteOf t page = rewriteOf s page := by
  unfold rewriteOf
  rw [h]

/-- A page that is not busy is in no rewrite. -/
theorem rewriteOf_idle {s : State} {page : Nat} (h : pageBusy s page = false) : rewriteOf s page = none := by
  unfold pageBusy at h
  simp only [Bool.or_eq_false_iff, Option.isSome_eq_false_iff, Option.isNone_iff_eq_none] at h
  exact h.2

section
variable {region : Fin 131072} {s : State} {page : Nat} {k : Rekey}

theorem pageMove_missing (h : pageCount ≤ page) : exec (.pageMove region page) s = .fault .noSuchObject := by
  show execPageMove region page s = _
  unfold execPageMove
  rw [if_pos h]

theorem pageMove_closed (h : page < pageCount) (hk : rekeyOf s region.val = some k) (ho : pageOpen s page = false) :
    exec (.pageMove region page) s = .next s := by
  show execPageMove region page s = _
  unfold execPageMove
  rw [if_neg (by omega)]
  simp only [hk]
  split
  · next x hx =>
    rw [if_neg]
    unfold moveReady
    simp [rewriteOf_page hx, ho]
  · split
    · rw [if_neg]
      simp [ho]
    · rfl

theorem pageMove_begins {lost : Bool} (h : page < pageCount) (hk : rekeyOf s region.val = some k)
    (hst : k.state = .move ∨ (lost = true ∧ k.state = .flush)) (hn : nextListed s k = some (page, lost)) (hb : pageBusy s page = false)
    (ho : pageOpen s page = true) :
    exec (.pageMove region page) s = .next (maybeFlush region.val (beginMove region.val page lost s)) := by
  show execPageMove region page s = _
  unfold execPageMove
  rw [if_neg (by omega)]
  simp only [hk, rewriteOf_idle hb, hn]
  rw [if_pos]
  simpa [hb, ho] using hst

theorem pageMove_ends {x : Rewrite} (h : page < pageCount) (hk : rekeyOf s region.val = some k) (hx : rewriteOf s page = some x)
    (hr : moveReady s region.val x = true) : exec (.pageMove region page) s = .next (maybeFlush region.val (endMove x s)) := by
  show execPageMove region page s = _
  unfold execPageMove
  rw [if_neg (by omega)]
  simp only [hk, hx]
  rw [if_pos hr]

end

theorem moveReady_region {s : State} {i : Nat} {x : Rewrite} (h : moveReady s i x = true) : x.region = i := by
  unfold moveReady at h
  simp only [Bool.and_eq_true, decide_eq_true_eq] at h
  exact h.1.1.2

/-- The end of a move: its page has moved, its writes wait for their turn, and its record is released (R150). -/
theorem endMove_ends {s : State} {x : Rewrite} {page : Nat} (hx : rewriteOf s page = some x) :
    PageMoved x.region page false s (endMove x s) ∧ (endMove x s).sep.waiting = s.sep.waiting ++ x.heldReqs ∧
      (pageDue s page = false → rewriteOf (endMove x s) page = none) := by
  obtain rfl := rewriteOf_page hx
  have hheld : (dropRewrite x.page s).sep.waiting = s.sep.waiting ++ x.heldReqs := by
    unfold dropRewrite
    rw [hx]
    rfl
  have hgone : rewriteOf (dropRewrite x.page s) x.page = none := by
    unfold rewriteOf dropRewrite
    simp [List.find?_eq_none]
  obtain ⟨hmoved, hlists⟩ := writeMoved_moved x.region x.page false (dropRewrite x.page s)
  have hstand := startDue_stand (writeMoved x.region x.page false (dropRewrite x.page s))
  unfold endMove
  refine ⟨⟨?_, ?_, fun k hk => ?_⟩, ?_, fun hd => startDue_rewriteOf ?_ ?_⟩
  · rw [getRegion_congr hstand.regions, hmoved.remaining]
    rfl
  · rw [hstand.separates.pageWord, hmoved.word]
    rfl
  · rw [rekeyOf_congr hstand.rekeys]
    exact hmoved.rekey k hk
  · rw [hstand.waiting, hlists.waiting, hheld]
  · unfold pageDue at hd ⊢
    rw [hlists.due]
    exact hd
  · rw [rewriteOf_of_rewrites hlists.rewrites, hgone]

/-! ### REKEY_SWEEP_STEP (R149, R151) -/

/-- The sweep has passed its page. -/
def sweptPast (k x : Rekey) : Rekey := { x with sweep := k.sweep + 1 }

theorem endMoves_none {i : Nat} {s : State} (h : ∀ x ∈ s.sep.rewrites, moveReady s i x = false) : endMoves i s = s := by
  unfold endMoves
  rw [List.filter_eq_nil_iff.mpr fun x hx => by rw [h x hx]; decide]
  rfl

section
variable {region : Fin 131072} {s : State} {k : Rekey} (hk : rekeyOf s region.val = some k)
include hk

theorem rekeySweepStep_eq (hr : ∀ x ∈ s.sep.rewrites, moveReady s region.val x = false) (hst : k.state = .move) (hup : upkeepRuns s = true) :
    exec (.rekeySweepStep region) s = .next (maybeFlush region.val
      (if regionPages (getRegion s region.val) ≤ k.sweep then s else sweepPage region.val k s)) := by
  show execRekeySweepStep region s = _
  unfold execRekeySweepStep
  dsimp only
  rw [endMoves_none hr]
  simp only [hk, hst, hup]
  rw [if_neg (by decide)]
  split
  · rfl
  · rfl

/-- The re-key with the sweep one page further. -/
theorem rekeyOf_sweptPast : rekeyOf (changeRekey region.val (sweptPast k) s) region.val = some (sweptPast k k) :=
  rekeyOf_changeRekey hk fun _ => rfl

end

section
variable {i page : Nat} {s : State} {k : Rekey} (hp : page = (getRegion s i).slab * 16 + k.sweep)
include hp

theorem sweepPage_passes (h : unmoved s i page = false ∨ page ∈ k.lost ∨ (rewriteOf s page).any (fun x => x.move) = true) :
    sweepPage i k s = changeRekey i (sweptPast k) s := by
  subst hp
  unfold sweepPage
  dsimp only
  rw [if_pos]
  · rfl
  · simpa [or_assoc] using h

theorem sweepPage_waits (h : ¬(unmoved s i page = false ∨ page ∈ k.lost ∨ (rewriteOf s page).any (fun x => x.move) = true))
    (hb : pageBusy s page = true ∨ pageOpen s page = false) : sweepPage i k s = s := by
  subst hp
  unfold sweepPage
  dsimp only
  rw [if_neg, if_pos]
  · simpa using hb
  · simpa [or_assoc] using h

theorem sweepPage_begins (h : ¬(unmoved s i page = false ∨ page ∈ k.lost ∨ (rewriteOf s page).any (fun x => x.move) = true))
    (hb : ¬(pageBusy s page = true ∨ pageOpen s page = false)) :
    sweepPage i k s = beginMove i page false (changeRekey i (sweptPast k) s) := by
  subst hp
  unfold sweepPage
  dsimp only
  rw [if_neg, if_neg]
  · rfl
  · simpa using hb
  · simpa [or_assoc] using h

end

/-! ### KEY_RETIREMENT (R149, R152, R153) -/

/-- A slot that is freed is zero, its round keys are dropped, and nothing else differs (R133, R153). -/
theorem freeKey_frame (i slot : Nat) (s : State) : EntryWork i s (freeKey slot s) ∧ getKey (freeKey slot s) slot = KeySlot.zero ∧
    (∀ j ≠ slot, getKey (freeKey slot s) j = getKey s j) ∧ (∀ e ∈ (freeKey slot s).path.roundKeys, slot ∉ e.2) ∧
    (freeKey slot s).sep = s.sep ∧ (freeKey slot s).regions = s.regions := by
  unfold freeKey
  refine ⟨withKeys_entry i _ s.sep _ s, getKey_set_same s slot KeySlot.zero, fun j hj => getKey_set_other s hj KeySlot.zero, fun e he => ?_, rfl, rfl⟩
  unfold dropRoundKeys at he
  obtain ⟨x, -, rfl⟩ := List.mem_map.mp (List.mem_of_mem_filter he)
  simp

/-- The entry of a region whose next key has become the current one (R149). -/
def swapped (r : Region) : Region :=
  { r with curSlot := r.nextSlot, nextSlot := 0, nextValid := false, curBit := !r.curBit, rekeying := false, pagesRemaining := 0 }

/-- The keys of a region whose entry was `r` have been swapped. -/
structure KeysSwapped (i : Nat) (r : Region) (s t : State) : Prop where
  entry : EntryWork i s t
  shown : getRegion t i = swapped r
  current : (getKey t r.nextSlot).state = .current
  zero : r.curSlot ≠ r.nextSlot → getKey t r.curSlot = KeySlot.zero
  roundKeys : ∀ e ∈ t.path.roundKeys, r.curSlot ∉ e.2
  ended : rekeyOf t i = none
  kept : markedRow s (leaseHome s i).1 = false → RecordKept i s t

/-- What the journal and waiting messages take in changes nothing of it. -/
theorem KeysSwapped.events {i : Nat} {r : Region} {s t u : State} (h : KeysSwapped i r s t) (he : Events t u) : KeysSwapped i r s u := by
  have hentry := h.entry.trans (he.work (i := i)).toEntryWork
  obtain ⟨_, _, _, _, _, rfl⟩ := he
  exact ⟨hentry, h.shown, h.current, h.zero, h.roundKeys, h.ended, h.kept⟩

/-- The re-key of a region is over. -/
def rekeyDropped (i : Nat) (s : State) : State := { s with sep := { s.sep with rekeys := s.sep.rekeys.filter (fun x => x.region ≠ i) } }

theorem rekeyOf_dropped (i : Nat) (s : State) : rekeyOf (rekeyDropped i s) i = none := by
  unfold rekeyOf rekeyDropped
  simp [List.find?_eq_none]

theorem swapKeys_eq (i : Nat) (k : Rekey) (s : State) : swapKeys i k s = journalRekeyEnd k (getRegion s i).tenant 0 (rekeyDropped i
    (saveLease i (setRegion i (swapped (getRegion s i)) (setKey (getRegion s i).nextSlot
      { getKey s (getRegion s i).nextSlot with state := .current } (freeKey (getRegion s i).curSlot s))))) := rfl

theorem swapKeys_swaps {i : Nat} (k : Rekey) (s : State) : KeysSwapped i (getRegion s i) s (swapKeys i k s) := by
  rw [swapKeys_eq]
  generalize getRegion s i = r
  refine KeysSwapped.events ?_ (journalEvent_events _ _ _ _ _)
  obtain ⟨hfree, hzero, -, hround, -, -⟩ := freeKey_frame i r.curSlot s
  have hkey := setKey_entry i r.nextSlot { getKey s r.nextSlot with state := .current } (freeKey r.curSlot s)
  have hcur := getKey_set_same (freeKey r.curSlot s) r.nextSlot { getKey s r.nextSlot with state := .current }
  have hold (h : r.curSlot ≠ r.nextSlot) :=
    (getKey_set_other (freeKey r.curSlot s) h { getKey s r.nextSlot with state := .current }).trans hzero
  have hpath : (setKey r.nextSlot { getKey s r.nextSlot with state := .current } (freeKey r.curSlot s)).path = (freeKey r.curSlot s).path := rfl
  generalize setKey r.nextSlot { getKey s r.nextSlot with state := .current } (freeKey r.curSlot s) = b at *
  have hwork := hfree.trans hkey
  have hsaved := saveLease_saved i (swapped r) b
  generalize saveLease i (setRegion i (swapped r) b) = c at *
  have hdrop : EntryWork i c (rekeyDropped i c) := withKeys_entry i c.keys _ c.path c
  have hkeys (j : Nat) : getKey (rekeyDropped i c) j = getKey b j := by
    show Map.get KeySlot.zero j c.keys = _
    rw [hsaved.keys]
    rfl
  refine ⟨(hwork.trans hsaved.entry).trans hdrop, hsaved.shown, ?_, fun h => ?_, ?_, rekeyOf_dropped i c, fun hm => ?_⟩
  · rw [hkeys, hcur]
  · rw [hkeys, hold h]
  · show ∀ e ∈ c.path.roundKeys, _
    rw [hsaved.path, hpath]
    exact hround
  · exact (hsaved.kept (by rw [markedRow_congr hwork.bist, hwork.home]; exact hm)).of_home hwork.relief

/-! The next re-key (R152). -/

/-- An entry differs at most in whether and how far its region re-keys. -/
def SameLease (r v : Region) : Prop := ∃ b n, v = { r with rekeying := b, pagesRemaining := n }

/-- What the start of a re-key of region i leaves. -/
structure RekeyBegins (i : Nat) (s t : State) : Prop where
  entry : EntryWork i s t
  keys : t.keys = s.keys
  path : t.path = s.path
  dram : t.dram = s.dram
  lease : SameLease (getRegion s i) (getRegion t i)
  goesOn : (rekeyOf s i).isSome = true → (rekeyOf t i).isSome = true

theorem RekeyBegins.refl (i : Nat) (s : State) : RekeyBegins i s s := ⟨.refl i s, rfl, rfl, rfl, ⟨_, _, rfl⟩, id⟩

theorem RekeyBegins.trans {i : Nat} {a b c : State} (h : RekeyBegins i a b) (h' : RekeyBegins i b c) : RekeyBegins i a c := by
  refine ⟨h.entry.trans h'.entry, h'.keys.trans h.keys, h'.path.trans h.path, h'.dram.trans h.dram, ?_, h'.goesOn ∘ h.goesOn⟩
  obtain ⟨b, n, hb⟩ := h.lease
  obtain ⟨b', n', hb'⟩ := h'.lease
  exact ⟨b', n', by rw [hb', hb]⟩

theorem Events.rekeyBegins {i : Nat} {s t : State} (h : Events s t) : RekeyBegins i s t := by
  have hentry := (h.work (i := i)).toEntryWork
  obtain ⟨_, _, _, _, _, rfl⟩ := h
  exact ⟨hentry, rfl, rfl, rfl, ⟨_, _, rfl⟩, id⟩

theorem journalRekey_begins (i page cause : Nat) (s : State) : RekeyBegins i s (journalRekey i page cause s) :=
  (journalEvent_events _ _ _ _ _).rekeyBegins

theorem changeRekey_begins {i : Nat} {f : Rekey → Rekey} (hf : ∀ x, (f x).region = x.region) (s : State) :
    RekeyBegins i s (changeRekey i f s) := by
  refine ⟨withKeys_entry i s.keys _ s.path s, rfl, rfl, rfl, ⟨_, _, rfl⟩, fun h => ?_⟩
  obtain ⟨k, hk⟩ := Option.isSome_iff_exists.mp h
  rw [rekeyOf_changeRekey hk hf]
  rfl

/-- A re-key is recorded, and its region's entry shows it. -/
def recordRekey (i : Nat) (k : Rekey) (r : Region) (s : State) : State :=
  setRegion i { r with rekeying := true, pagesRemaining := regionPages r } { s with sep := { s.sep with rekeys := s.sep.rekeys ++ [k] } }

theorem recordRekey_begins {i : Nat} {k : Rekey} (hk : k.region = i) (s : State) :
    RekeyBegins i s (recordRekey i k (getRegion s i) s) ∧ (rekeyOf (recordRekey i k (getRegion s i) s) i).isSome = true := by
  have hsome : (rekeyOf (recordRekey i k (getRegion s i) s) i).isSome = true := by
    show (List.find? _ (s.sep.rekeys ++ [k])).isSome = true
    simp [hk]
  refine ⟨⟨(withKeys_entry i s.keys _ s.path s).trans (setRegion_entry i _ _), rfl, rfl, rfl, ?_, fun _ => hsome⟩, hsome⟩
  refine ⟨true, regionPages (getRegion s i), ?_⟩
  unfold recordRekey
  rw [getRegion_set_same]

theorem startRekey_begins (i page cause : Nat) (s : State) :
    RekeyBegins i s (startRekey i page cause s) ∧ (rekeyOf (startRekey i page cause s) i).isSome = true := by
  unfold startRekey
  dsimp only
  split
  · next k hk =>
    have hsome : (rekeyOf s i).isSome = true := by rw [hk]; rfl
    split
    · have h := (changeRekey_begins (i := i) (f := fun k => { k with lost := k.lost ++ [page] }) (fun _ => rfl) s).trans
        (journalRekey_begins i page cause _)
      exact ⟨h, h.goesOn hsome⟩
    · split
      · have h := changeRekey_begins (i := i) (f := fun k =>
          if k.exhausted.length < 64 && !k.exhausted.contains page then { k with exhausted := k.exhausted ++ [page] } else k)
          (fun x => by split <;> rfl) s
        exact ⟨h, h.goesOn hsome⟩
      · have h := changeRekey_begins (i := i) (f := fun k => if k.again.contains page then k else { k with again := k.again ++ [page] })
          (fun x => by split <;> rfl) s
        exact ⟨h, h.goesOn hsome⟩
  · next hk =>
    generalize hnew : ({ region := i, state := .draw, exhausted := if cause = 0 then [page] else [], lost := if cause = 1 then [page] else [],
                         again := [], sweep := 0, moved := 0, startUs := s.tank.clockUs, oldSlot := (getRegion s i).curSlot, newSlot := 0 } : Rekey) = k
    have hregion : k.region = i := by
      subst hnew
      rfl
    obtain ⟨hbegin, hsome⟩ := recordRekey_begins hregion s
    have hevents := ((raise_messages 0x083 0x34 i (recordRekey i k (getRegion s i) s)).events.rekeyBegins (i := i)).trans
      (journalRekey_begins i page cause _)
    exact ⟨hbegin.trans hevents, hevents.goesOn hsome⟩

theorem startRekeys_begin (i cause : Nat) (l : List Nat) (s : State) : RekeyBegins i s (forEach l (fun p t => startRekey i p cause t) s) ∧
    (l ≠ [] → (rekeyOf (forEach l (fun p t => startRekey i p cause t) s) i).isSome = true) := by
  have hall (l : List Nat) (u : State) : RekeyBegins i u (forEach l (fun p t => startRekey i p cause t) u) :=
    forEach_relates (.refl i) .trans (fun p t => (startRekey_begins i p cause t).1) l u
  refine ⟨hall l s, fun hne => ?_⟩
  match l, hne with
  | p :: l, _ => exact (hall l (startRekey i p cause s)).goesOn (startRekey_begins i p cause s).2

theorem RecordKept.of_dram {i : Nat} {s t u : State} (h : RecordKept i s t) (hd : u.dram = t.dram)
    (hr : recOf (getRegion u i) = recOf (getRegion t i)) : RecordKept i s u := by
  unfold RecordKept lineBytes at h ⊢
  rw [hd, hr]
  exact h

theorem keyRetirement_swaps {region : Fin 131072} {s : State} {k : Rekey} (hk : rekeyOf s region.val = some k) (hup : upkeepRuns s = true)
    (hst : k.state = .flush) (hlost : k.lost = []) (hq : slotQuiet s (getRegion s region.val).curSlot = true) :
    exec (.keyRetirement region) s =
      .next (forEach k.again (fun p t => startRekey region.val p 0 t) (swapKeys region.val k s)) := by
  show execKeyRetirement region s = _
  unfold execKeyRetirement
  simp only [hk, hst, hlost, hup, hq]
  rfl

theorem keyRetirement_retires {region : Fin 131072} {s : State} {k : Rekey} {i : Nat} {r : Region} (hi : i = region.val) (hr : r = getRegion s i)
    (hk : rekeyOf s i = some k) (hup : upkeepRuns s = true)
    (hm : markedRow s (leaseHome s i).1 = false) (hst : k.state = .flush) (hlost : k.lost = []) (hq : slotQuiet s r.curSlot = true) :
    ∃ t, exec (.keyRetirement region) s = .next t ∧ (getRegion t i).curSlot = r.nextSlot ∧ (getRegion t i).curBit = !r.curBit ∧
      (getKey t r.nextSlot).state = .current ∧ (r.curSlot ≠ r.nextSlot → getKey t r.curSlot = KeySlot.zero) ∧
      (∀ e ∈ t.path.roundKeys, r.curSlot ∉ e.2) ∧ (k.again = [] → rekeyOf t i = none ∧ (getRegion t i).rekeying = false) ∧
      (k.again ≠ [] → (rekeyOf t i).isSome = true) ∧ RecordKept i s t ∧ TenantsKept s t := by
  subst hi hr
  refine ⟨_, keyRetirement_swaps hk hup hst hlost hq, ?_⟩
  have hs := swapKeys_swaps (i := region.val) k s
  generalize swapKeys region.val k s = u at *
  obtain ⟨hb, hsome⟩ := startRekeys_begin region.val 0 k.again u
  obtain ⟨b, n, hlease⟩ := hb.lease
  rw [hs.shown] at hlease
  have hkeys (j : Nat) : getKey (forEach k.again (fun p t => startRekey region.val p 0 t) u) j = getKey u j := by
    unfold getKey
    rw [hb.keys]
  refine ⟨by rw [hlease]; rfl, by rw [hlease]; rfl, by rw [hkeys, hs.current], fun h => by rw [hkeys, hs.zero h], ?_, fun h => ?_, hsome, ?_,
    (hs.entry.trans hb.entry).tenants region.isLt⟩
  · rw [hb.path]
    exact hs.roundKeys
  · rw [h]
    refine ⟨hs.ended, ?_⟩
    show (getRegion u region.val).rekeying = false
    rw [hs.shown]
    rfl
  · refine (hs.kept hm).of_dram hb.dram ?_
    rw [hlease, hs.shown]
    rfl

/-! ### The generator and its entropy source (R132) -/

theorem takeSample_good {x : Byte} {s : State} (h : sampleFails x s.drbg = false) :
    takeSample x s = { s with drbg := { testedSample x s.drbg with entropyOk := true, lastGoodUs := s.tank.clockUs } } := by
  unfold takeSample
  dsimp only
  rw [if_neg (by simp [h])]

theorem takeSample_bad {x : Byte} {s : State} (h : sampleFails x s.drbg = true) :
    takeSample x s = { s with drbg := { testedSample x s.drbg with entropyOk := false },
                              stats := { s.stats with entropyDiscards := satAdd max32 s.stats.entropyDiscards 1 } } := by
  unfold takeSample
  dsimp only
  rw [if_pos h]

theorem takeSample_porHigh (x : Byte) (s : State) : porHigh (takeSample x s) = porHigh s := by
  unfold takeSample
  dsimp only
  split
  · rfl
  · rfl

theorem entropySample_takes {s : State} (h : porHigh s = true) (x : Byte) (l : List Byte) :
    exec (.entropySample x l) s = .next ((x :: l).foldl (fun t y => takeSample y t) s) := by
  show execEntropySample x l s = _
  unfold execEntropySample
  rw [if_neg (by simp [h])]

theorem porHigh_of_porN {s : State} (h : s.pins.porN = true) : porHigh s = true := by
  unfold porHigh
  rw [h, Bool.true_or]

/-- A sample that comes with others is taken as if alone, and the others after it. -/
theorem entropySample_cons {s t : State} {x : Byte} (h : porHigh s = true) (ht : exec (.entropySample x []) s = .next t) (y : Byte) (l : List Byte) :
    exec (.entropySample x (y :: l)) s = exec (.entropySample y l) t := by
  rw [entropySample_takes h] at ht ⊢
  obtain rfl : takeSample x s = t := Host.Outcome.next.inj ht
  rw [entropySample_takes ((takeSample_porHigh x s).trans h)]
  rfl

/-- The message of an entropy failure (R132, R337). -/
def entropyMsg : FaultMsg := { source := 0x084, kind := 0x35, cls := 2, severity := 2, addr := 0x10000, ownEntry := false, detail := 0 }

theorem entropyFailure_fails {s : State} (h : porHigh s = true) :
    ∃ t, exec .entropyFailure s = .next t ∧ t.drbg.entropyOk = false ∧ Messages { s with drbg := t.drbg } t ∧
      ((s.churn.inbox.filter (fun x => x.source = 0x084)).length < 8 → t.churn.inbox = s.churn.inbox ++ [entropyMsg]) := by
  have hexec : exec .entropyFailure s = .next (pushMsg entropyMsg { s with drbg := { s.drbg with entropyOk := false } }) := by
    show execEntropyFailure s = _
    unfold execEntropyFailure
    rw [if_pos h]
    rfl
  have hmsg := pushMsg_messages entropyMsg { s with drbg := { s.drbg with entropyOk := false } }
  have hdrbg : (pushMsg entropyMsg { s with drbg := { s.drbg with entropyOk := false } }).drbg = { s.drbg with entropyOk := false } := by
    obtain ⟨_, _, _, _, h⟩ := hmsg
    rw [h]
  refine ⟨_, hexec, by rw [hdrbg], ?_, fun hroom => ?_⟩
  · rw [hdrbg]
    exact hmsg
  · rw [pushMsg_room (s := { s with drbg := { s.drbg with entropyOk := false } }) hroom]

theorem drbgReseed_reseeds {s : State} (hi : s.drbg.instantiated = true) (he : s.drbg.entropyOk = true) : exec .drbgReseed s = .next (reseed s) := by
  show execDrbgReseed s = _
  unfold execDrbgReseed
  rw [if_pos (by simp [hi, he])]

/-! ### The moves of a region's pages, as their commands make them -/

section
variable {region : Fin 131072} {s : State} {k : Rekey} {i page : Nat} {r : Region} (hi : i = region.val) (hr : r = getRegion s i)
  (hk : rekeyOf s i = some k)
include hi hr hk

theorem pageMove_moves {lost : Bool} (h : page < pageCount) (hst : k.state = .move ∨ (lost = true ∧ k.state = .flush))
    (hn : nextListed s k = some (page, lost)) (hb : pageBusy s page = false) (ho : pageOpen s page = true) :
    ∃ t, exec (.pageMove region page) s = .next t ∧
      if lost = false ∧ pwFresh (pageWord s page) = true then
        (getRegion t i).pagesRemaining = r.pagesRemaining - 1 ∧ pageWord t page = mkPageWord (!r.curBit) true 0 ∧
          ∃ k', rekeyOf t i = some k' ∧ k'.moved = k.moved + 1
      else t.dram = s.dram ∧ rewriteOf t page = some (moveRecord s i page) := by
  subst hi hr
  refine ⟨_, pageMove_begins h hk hst hn hb ho, ?_⟩
  split
  · next hf =>
    rw [beginMove_fresh hf]
    have hm := (writeMoved_moved region.val page true s).1.flush (maybeFlush_noted region.val _)
    obtain ⟨k', hk', hmoved, -⟩ := hm.rekey k hk
    exact ⟨hm.remaining, hm.word, k', hk', hmoved⟩
  · next hf =>
    rw [beginMove_records hf]
    have hflush := maybeFlush_noted region.val { s with sep := { s.sep with rewrites := s.sep.rewrites ++ [moveRecord s region.val page] } }
    exact ⟨hflush.separates.dram, by rw [rewriteOf_of_rewrites hflush.lists.rewrites, rewriteOf_begun (rewriteOf_idle hb)]⟩

theorem pageMove_completes {x : Rewrite} (h : page < pageCount) (hx : rewriteOf s page = some x) (hready : moveReady s i x = true) :
    ∃ t, exec (.pageMove region page) s = .next t ∧ (getRegion t i).pagesRemaining = r.pagesRemaining - 1 ∧
      pageWord t page = mkPageWord (!r.curBit) false 0 ∧ (∃ k', rekeyOf t i = some k' ∧ k'.moved = k.moved + 1) ∧
      t.sep.waiting = s.sep.waiting ++ x.heldReqs ∧ (pageDue s page = false → rewriteOf t page = none) := by
  subst hi hr
  refine ⟨_, pageMove_ends h hk hx hready, ?_⟩
  obtain ⟨hmoved, hwaiting, hnone⟩ := endMove_ends hx
  rw [moveReady_region hready] at hmoved
  have hflush := maybeFlush_noted region.val (endMove x s)
  have hm := hmoved.flush hflush
  obtain ⟨k', hk', hcount, -⟩ := hm.rekey k hk
  exact ⟨hm.remaining, hm.word, ⟨k', hk', hcount⟩, hflush.lists.waiting.trans hwaiting,
    fun hd => (rewriteOf_of_rewrites hflush.lists.rewrites page).trans (hnone hd)⟩

section
variable (hnone : ∀ x ∈ s.sep.rewrites, moveReady s i x = false) (hst : k.state = .move) (hup : upkeepRuns s = true)
include hnone hst hup

theorem rekeySweepStep_visits (hp : page = r.slab * 16 + k.sweep) (hlt : k.sweep < regionPages r) :
    if unmoved s i page = false ∨ page ∈ k.lost ∨ (rewriteOf s page).any (fun x => x.move) = true then
      ∃ t k', exec (.rekeySweepStep region) s = .next t ∧ rekeyOf t i = some k' ∧ k'.sweep = k.sweep + 1 ∧ t.dram = s.dram ∧
        (getRegion t i).pagesRemaining = r.pagesRemaining
    else if pageBusy s page = true ∨ pageOpen s page = false then exec (.rekeySweepStep region) s = .next s
    else ∃ t k', exec (.rekeySweepStep region) s = .next t ∧ rekeyOf t i = some k' ∧ k'.sweep = k.sweep + 1 ∧
      if pwFresh (pageWord s page) = true then
        (getRegion t i).pagesRemaining = r.pagesRemaining - 1 ∧ pageWord t page = mkPageWord (!r.curBit) true 0
      else t.dram = s.dram ∧ rewriteOf t page = some (moveRecord s i page) := by
  subst hi hr
  have hexec := rekeySweepStep_eq hk hnone hst hup
  rw [if_neg (by omega)] at hexec
  rw [hexec]
  have hswept := rekeyOf_sweptPast hk
  split
  · next hpass =>
    rw [sweepPage_passes hp hpass]
    have hflush := maybeFlush_noted region.val (changeRekey region.val (sweptPast k) s)
    obtain ⟨st, hrk⟩ := hflush.rekey _ hswept
    exact ⟨_, _, rfl, hrk, rfl, hflush.separates.dram, by rw [getRegion_congr hflush.regions]; rfl⟩
  · next hpass =>
    split
    · next hwait => rw [sweepPage_waits hp hpass hwait, maybeFlush_early hk hlt]
    · next hwait =>
      rw [sweepPage_begins hp hpass hwait]
      simp only [not_or, Bool.not_eq_true, Bool.not_eq_false] at hwait
      split
      · next hf =>
        rw [beginMove_fresh (s := changeRekey region.val (sweptPast k) s) ⟨rfl, hf⟩]
        have hm := (writeMoved_moved region.val page true (changeRekey region.val (sweptPast k) s)).1.flush (maybeFlush_noted region.val _)
        obtain ⟨k', hk', -, hsweep⟩ := hm.rekey _ hswept
        exact ⟨_, k', rfl, hk', hsweep, hm.remaining, hm.word⟩
      · next hf =>
        rw [beginMove_records (s := changeRekey region.val (sweptPast k) s) fun h => hf h.2]
        generalize hu : changeRekey region.val (sweptPast k) s = u at hswept
        have hidle : rewriteOf u page = none := by
          subst hu
          exact rewriteOf_idle hwait.1
        have hrecord : moveRecord u region.val page = moveRecord s region.val page := by
          subst hu
          rfl
        have hdram : u.dram = s.dram := by
          subst hu
          rfl
        have hflush := maybeFlush_noted region.val { u with sep := { u.sep with rewrites := u.sep.rewrites ++ [moveRecord u region.val page] } }
        obtain ⟨st, hrk⟩ := hflush.rekey _ hswept
        exact ⟨_, _, rfl, hrk, rfl, hflush.separates.dram.trans hdram, by
          rw [rewriteOf_of_rewrites hflush.lists.rewrites, rewriteOf_begun hidle, hrecord]⟩

theorem rekeySweepStep_finishes (hge : regionPages r ≤ k.sweep) :
    if k.lost = [] ∧ ∀ j < regionPages r, unmoved s i (r.slab * 16 + j) = false then
      ∃ t, exec (.rekeySweepStep region) s = .next t ∧ rekeyOf t i = some { k with state := .flush } ∧ (getKey t r.curSlot).state = .retiring
    else exec (.rekeySweepStep region) s = .next s := by
  subst hi hr
  have hexec := rekeySweepStep_eq hk hnone hst hup
  rw [if_pos hge] at hexec
  rw [hexec]
  split
  · next h =>
    obtain ⟨hlost, hall⟩ := h
    exact ⟨_, rfl, maybeFlush_flushes hk hst hge hlost hall⟩
  · next h => rw [maybeFlush_stays hk h]

end

end

/-- Settles O51: each command's clause is the frame of the operation that it comes to, with a move's page word and a swap's record read back. -/
theorem regionsRekey : Obligations.RegionsRekey := by
  unfold Obligations.RegionsRekey
  refine ⟨fun region s k i r hi hr hk => ⟨?_, fun page => pageMove_missing, fun page h ho => pageMove_closed h (hi ▸ hk) ho,
    fun page lost h hst hn hb ho => pageMove_moves hi hr hk h hst hn hb ho, fun page x h hx hready => pageMove_completes hi hr hk h hx hready,
    fun hnone hst hup => ⟨fun page hp hlt => rekeySweepStep_visits hi hr hk hnone hst hup hp hlt, rekeySweepStep_finishes hi hr hk hnone hst hup⟩,
    fun hup hm hst hlost hq => keyRetirement_retires hi hr hk hup hm hst hlost hq⟩, fun s => ⟨fun hin hok => ?_, fun hp => ?_⟩⟩
  · subst hi
    exact fun hup hm hst hready slot hf => keyDraw_draws hk hup hm hst hready hf
  · rw [drbgReseed_reseeds hin hok]
    rfl
  · have hpor := porHigh_of_porN hp
    refine ⟨fun x hx => ?_, fun x hx => ?_, fun x y l t ht => entropySample_cons hpor ht y l, entropyFailure_fails hpor⟩
    · rw [entropySample_takes hpor, List.foldl_cons, List.foldl_nil, takeSample_good hx]
    · rw [entropySample_takes hpor, List.foldl_cons, List.foldl_nil, takeSample_bad hx]

end Sys2Proof.Safety

namespace Sys2Proof.Safety
open Sys2Proof.Machine

/-! ## Plans are laid out (R112, R282, R283, R286)

### A bank is refused -/

/-- A bank is refused for a reason, and what had been prepared is given up. -/
structure BankRefused (k : Bank) (reason det : Nat) (s t : State) : Prop where
  preparing : t.plans.preparing = none
  prepared : t.plans.prepared = false
  dram : t.dram = s.dram
  state : (getBS t k).state = 7
  reason : (getBS t k).reason = BitVec.ofNat 8 reason
  detail : (getBS t k).detail = BitVec.ofNat 32 det

theorem refuseBank_refuses {k : Bank} {s : State} (h : s.plans.preparing = some k) (place reason det : Nat) :
    BankRefused k reason det s (refuseBank k place reason det s) := by
  obtain ⟨u, hu⟩ : ∃ u, u = setBS k 7 reason det (programArm k 0 s) := ⟨_, rfl⟩
  obtain ⟨hstate, hreason, hdetail⟩ := getBS_setBS_same k 7 reason det (programArm k 0 s)
  have hdram : u.dram = s.dram := by
    rw [hu]
    cases k <;> rfl
  rw [← hu] at hstate hreason hdetail
  obtain ⟨hplans, hrest⟩ : (refuseBank k place reason det s).plans = (setLast reason (dropPreparation u)).plans ∧
      (refuseBank k place reason det s).dram = u.dram := by
    unfold refuseBank journalRefusal
    dsimp only
    rw [if_pos (by simp [h]), ← hu]
    obtain ⟨_, _, _, _, _, hevent⟩ := journalEvent_events 0x080 0x24 reason
      ([BitVec.ofNat 8 (bankCode k), BitVec.ofNat 8 place, 0, 0] ++ beBytes 4 (bankWord (setLast reason (dropPreparation u)) k 8) ++ beBytes 4 det)
      (setLast reason (dropPreparation u))
    rw [hevent]
    exact ⟨rfl, rfl⟩
  have hbank : getBS (refuseBank k place reason det s) k = getBS u k := by
    rw [getBS_congr hplans]
    cases k <;> rfl
  exact ⟨by rw [hplans]; rfl, by rw [hplans]; rfl, hrest.trans hdram, by rw [hbank]; exact hstate, by rw [hbank]; exact hreason,
    by rw [hbank]; exact hdetail⟩

/-- A message before the refusal changes nothing of it. -/
theorem refuseBank_refuses_after {k : Bank} {s u : State} (h : s.plans.preparing = some k) (hm : Messages s u) (place reason det : Nat) :
    BankRefused k reason det s (refuseBank k place reason det u) := by
  obtain ⟨hplans, hdram⟩ : u.plans = s.plans ∧ u.dram = s.dram := by
    obtain ⟨_, _, _, _, rfl⟩ := hm
    exact ⟨rfl, rfl⟩
  have hu := refuseBank_refuses (s := u) (by rw [hplans]; exact h) place reason det
  exact { hu with dram := hu.dram.trans hdram }

section
variable {k : Bank} {s : State} (h : s.plans.preparing = some k)
include h

theorem prepareBank_faulty {e : Nat × Nat} (hcheck : checkBank s k = .error e) : BankRefused k e.1 e.2 s (prepareBank k s) := by
  unfold prepareBank
  rw [hcheck]
  have hm : Messages (drawn s) (raiseOwn 1 0x080 0x30 (bankCode k + 1) (drawn s)) := pushMsg_messages _ _
  have hr := refuseBank_refuses_after (s := drawn s) h hm 0 e.1 e.2
  exact { hr with dram := hr.dram }

theorem prepareBank_incompatible {p : Plan} {c : Nat} (hcheck : checkBank s k = .ok p) (hcompat : compat s p p.adoptAt.toNat false = some c) :
    BankRefused k 0x11 c s (prepareBank k s) := by
  unfold prepareBank
  rw [hcheck]
  dsimp only
  rw [hcompat]
  exact refuseBank_refuses_after h (raise_messages _ _ _ _) 0 0x11 c

theorem prepareBank_inadmissible {p : Plan} {c : Nat × Nat} (hcheck : checkBank s k = .ok p)
    (hcompat : compat s p p.adoptAt.toNat false = none) (hadmit : admission p s.retired = some c) :
    BankRefused k 0x10 c.2 s (prepareBank k s) := by
  unfold prepareBank
  rw [hcheck]
  dsimp only
  rw [hcompat, hadmit]
  exact refuseBank_refuses_after h (raise_messages _ _ _ _) 0 0x10 c.2

omit h in
theorem prepareBank_prepares {p : Plan} (hcheck : checkBank s k = .ok p) (hcompat : compat s p p.adoptAt.toNat false = none)
    (hadmit : admission p s.retired = none) :
    prepareBank k s = { s with plans := { s.plans with prepared := true, preparing := none, buffer := some p } } := by
  unfold prepareBank
  rw [hcheck]
  dsimp only
  rw [hcompat, hadmit]

end

theorem adoptionPrepared_decides {k : Bank} {s : State} (h : s.plans.preparing = some k) :
    exec .adoptionPrepared s = .next (prepareBank k s) := by
  show execAdoptionPrepared s = _
  unfold execAdoptionPrepared
  rw [h]

/-! ### An entry is loaded (R112, R283) -/

theorem firstGen_work (i : Nat) (s : State) : RecordWork i s (firstGen i s) := by
  unfold firstGen
  split
  · exact .refl i s
  · exact ((generate_work 15 s).trans (Beside.work ⟨_, _, _, _, _, _, _, _, _, rfl⟩)).trans (putRec_work i _ _)

theorem setRegion_load (i : Nat) (v : Region) (s : State) : LoadWork i s (setRegion i v s) :=
  ⟨setRegion_entry i v s, rfl, rfl, rfl, rfl, rfl, rfl⟩

/-- An entry is written, and its record saved where it changes. -/
theorem seatEntry_load (i : Nat) (r : Region) (e : LeaseRec) (s : State) :
    LoadWork i s (if recOf r = e then setRegion i r s else saveLease i (setRegion i r s)) ∧
      getRegion (if recOf r = e then setRegion i r s else saveLease i (setRegion i r s)) i = r := by
  have hset := setRegion_load i r s
  split
  · exact ⟨hset, getRegion_set_same _ _ _⟩
  · exact ⟨hset.trans (saveLease_work i _).toLoadWork, ((saveLease_work i _).entry i).trans (getRegion_set_same _ _ _)⟩

/-- An entry without a lease in progress is laid out as its plan has it. -/
structure LaidOut (p : RegionRec) (r : Region) : Prop where
  inUse : r.inUse = true
  tenant : r.tenant = p.tenant
  slab : r.slab = p.slab
  slabs : r.slabs = p.slabs
  vbase : r.vbase = p.vbase
  active : r.active = false
  erasePending : r.erasePending = false

theorem LaidOut.seat {p : RegionRec} {r : Region} (h : LaidOut p r) (later : List (Nat × Nat)) (ls : List Lease) (l : Lease) :
    LaidOut p (seatLease later ls l r) := by
  obtain ⟨h1, h2, h3, h4, h5, h6, h7⟩ := h
  exact ⟨h1, h2, h3, h4, h5, h6, h7⟩

theorem loadEntry_unnamed {i : Nat} {s : State} (h : regionRec s i = none) : loadEntry i s = setRegion i Region.unnamed s := by
  unfold loadEntry
  rw [h]

/-- An index that the plan names takes its place from it, and its record is saved where it changes. -/
theorem loadEntry_named {i : Nat} {s : State} {p : RegionRec} (h : regionRec s i = some p) :
    LoadWork i s (loadEntry i s) ∧ LaidOut p (getRegion (loadEntry i s) i) := by
  have hread := ((firstGen_work i s).trans (readRec_work i _)).toLoadWork
  unfold loadEntry
  split
  · next hn => rw [h] at hn; cases hn
  · next p' hp =>
    obtain rfl : p = p' := Option.some.inj (h.symm.trans hp)
    extract_lets d s1 e _ r ls shown r1 s2
    obtain ⟨hload, hentry⟩ := seatEntry_load i r1 e s1
    have hr : LaidOut p r := ⟨rfl, rfl, rfl, rfl, rfl, rfl, rfl⟩
    have hr1 : LaidOut p r1 := by
      dsimp only [r1]
      clear_value shown
      split
      · exact hr.seat _ _ _
      · exact { hr with inUse := hr.inUse }
    exact ⟨hread.trans hload, by rw [hentry]; exact hr1⟩

theorem loadEntry_load (i : Nat) (s : State) : LoadWork i s (loadEntry i s) := by
  cases h : regionRec s i with
  | none =>
    rw [loadEntry_unnamed h]
    exact setRegion_load _ _ _
  | some p => exact (loadEntry_named h).1

end Sys2Proof.Safety

namespace Sys2Proof.Safety
open Sys2Proof.Machine

/-! ### The region table is rewritten (R283) -/

/-- One entry of the rewrite. -/
def rewriteEntry (i : Nat) (t : State) : State := if (getRegion t i).active || (getRegion t i).erasePending then t else loadEntry i t

/-- A region with a lease in progress or an erase under way. -/
def Busy (r : Region) : Prop := r.active = true ∨ r.erasePending = true

theorem not_busy {r : Region} (ha : r.active = false) (he : r.erasePending = false) : ¬ Busy r := by simp [Busy, ha, he]

theorem rewriteEntry_busy {i : Nat} {t : State} (h : Busy (getRegion t i)) : rewriteEntry i t = t := if_pos (by simpa [Busy] using h)

theorem rewriteEntry_idle {i : Nat} {t : State} (h : ¬ Busy (getRegion t i)) : rewriteEntry i t = loadEntry i t :=
  if_neg (by simpa [Busy] using h)

theorem rewriteEntry_load (i : Nat) (t : State) : LoadWork i t (rewriteEntry i t) := by
  by_cases h : Busy (getRegion t i)
  · rw [rewriteEntry_busy h]
    exact .refl i t
  · rw [rewriteEntry_idle h]
    exact loadEntry_load i t

/-- What every entry's rewrite keeps. -/
structure TableWork (s t : State) : Prop where
  plans : t.plans = s.plans
  keys : t.keys = s.keys
  flash : t.flash = s.flash
  busy : ∀ i, Busy (getRegion s i) → getRegion t i = getRegion s i

theorem TableWork.refl (s : State) : TableWork s s := ⟨rfl, rfl, rfl, fun _ _ => rfl⟩

theorem TableWork.trans {a b c : State} (h : TableWork a b) (h' : TableWork b c) : TableWork a c :=
  ⟨h'.plans.trans h.plans, h'.keys.trans h.keys, h'.flash.trans h.flash,
    fun i hi => (h'.busy i (by rw [h.busy i hi]; exact hi)).trans (h.busy i hi)⟩

theorem rewriteEntry_table (i : Nat) (t : State) : TableWork t (rewriteEntry i t) := by
  have h := rewriteEntry_load i t
  refine ⟨h.steady.plans, h.keys, h.flash, fun j hj => ?_⟩
  by_cases hji : j = i
  · subst hji
    rw [rewriteEntry_busy hj]
  · exact h.others j hji

/-- An entry that is neither active nor erase-pending reads as the plan has it. -/
def Rewritten (i : Nat) (t : State) : Prop :=
  (regionRec t i = none → getRegion t i = Region.unnamed) ∧ ∀ p, regionRec t i = some p → LaidOut p (getRegion t i)

theorem loadEntry_rewritten (i : Nat) (t : State) : Rewritten i (loadEntry i t) := by
  have hplans : regionRec (loadEntry i t) i = regionRec t i := by
    unfold regionRec planOf
    rw [(loadEntry_load i t).steady.plans]
  refine ⟨fun h => ?_, fun p h => (loadEntry_named (hplans ▸ h)).2⟩
  rw [loadEntry_unnamed (hplans ▸ h), getRegion_set_same]

theorem Rewritten.idle {i : Nat} {t : State} (h : Rewritten i t) : ¬ Busy (getRegion t i) := by
  cases hp : regionRec t i with
  | none =>
    rw [h.1 hp]
    exact not_busy rfl rfl
  | some p => exact not_busy (h.2 p hp).active (h.2 p hp).erasePending

/-- An idle entry is rewritten by its own step, and another step leaves it. -/
theorem rewriteEntry_idle_step {i j : Nat} {t : State} (h : ¬ Busy (getRegion t i)) :
    (j = i → Rewritten i (rewriteEntry j t)) ∧ (j ≠ i → getRegion (rewriteEntry j t) i = getRegion t i) := by
  refine ⟨?_, fun hj => (rewriteEntry_load j t).others i (Ne.symm hj)⟩
  rintro rfl
  rw [rewriteEntry_idle h]
  exact loadEntry_rewritten j t

theorem rewriteEntry_keeps {i j : Nat} {t : State} (h : Rewritten i t) : Rewritten i (rewriteEntry j t) := by
  obtain ⟨hown, hother⟩ := rewriteEntry_idle_step (j := j) h.idle
  by_cases hj : j = i
  · exact hown hj
  · unfold Rewritten regionRec planOf at h ⊢
    rw [hother hj, (rewriteEntry_load j t).steady.plans]
    exact h

/-- The loop rewrites an idle entry of its list, and leaves an entry that the list does not hold. -/
theorem rewriteEntries_rewrite {i : Nat} {l : List Nat} {s : State} (h : ¬ Busy (getRegion s i)) :
    (i ∈ l → Rewritten i (forEach l rewriteEntry s)) ∧ (i ∉ l → getRegion (forEach l rewriteEntry s) i = getRegion s i) := by
  induction l generalizing s with
  | nil => exact ⟨fun h => absurd h List.not_mem_nil, fun _ => rfl⟩
  | cons j l ih =>
    obtain ⟨hown, hother⟩ := rewriteEntry_idle_step (j := j) h
    show (_ → Rewritten i (forEach l rewriteEntry (rewriteEntry j s))) ∧ (_ → getRegion (forEach l rewriteEntry (rewriteEntry j s)) i = _)
    by_cases hj : j = i
    · exact ⟨fun _ => forEach_keeps (P := Rewritten i) (fun k t ht => rewriteEntry_keeps ht) (hown hj), fun hn => absurd hj.symm (by simp_all)⟩
    · have hsame := hother hj
      obtain ⟨hin, hout⟩ := ih (s := rewriteEntry j s) (by rw [hsame]; exact h)
      refine ⟨fun hi => hin ?_, fun hn => ?_⟩
      · exact (List.mem_cons.mp hi).resolve_left (Ne.symm hj)
      · rw [hout (fun hi => hn (List.mem_cons_of_mem _ hi)), hsame]

/-- The indexes that a rewrite goes over: those with an entry, and those that the plan names. -/
def tableIds (s : State) : List Nat := (planOf s).regions.foldl (fun t r => NSet.add r.index t) (s.regions.map (fun e => e.1))

theorem mem_foldl_add {i : Nat} (l : List RegionRec) (t : NatSet) :
    i ∈ l.foldl (fun t r => NSet.add r.index t) t ↔ i ∈ t ∨ ∃ r ∈ l, r.index = i := by
  induction l generalizing t with
  | nil => simp
  | cons r l ih =>
    rw [List.foldl_cons, ih, NSet.mem_add, List.exists_mem_cons_iff, eq_comm (a := i)]
    tauto

theorem mem_tableIds_of_rec {s : State} {i : Nat} {p : RegionRec} (h : regionRec s i = some p) : i ∈ tableIds s := by
  unfold regionRec at h
  exact (mem_foldl_add _ _).mpr (.inr ⟨p, List.mem_of_find?_eq_some h, by simpa using List.find?_some h⟩)

theorem Map.get_of_not_mem {β : Type} (d : β) {k : Nat} {t : Table β} (h : k ∉ t.map (fun e => e.1)) : Map.get d k t = d := by
  induction t with
  | nil => rfl
  | cons e t ih =>
    simp only [List.map_cons, List.mem_cons, not_or] at h
    unfold Map.get
    rw [if_neg (Ne.symm h.1), ih h.2]

theorem getRegion_of_not_mem_tableIds {s : State} {i : Nat} (h : i ∉ tableIds s) : getRegion s i = Region.zero :=
  Map.get_of_not_mem _ fun hi => h ((mem_foldl_add _ _).mpr (.inl hi))

theorem regionTableRewrite_rewrites {s : State} (h : s.plans.rewritePending = true) :
    exec .regionTableRewrite s =
      .next (forEach (tableIds s) rewriteEntry { s with plans := { s.plans with rewritePending := false, tableWritten := true } }) := by
  show execRegionTableRewrite s = _
  unfold execRegionTableRewrite
  rw [if_neg (by simp [h])]
  rfl

theorem regionTableRewrite_lays {s : State} (h : s.plans.rewritePending = true) :
    ∃ t, exec .regionTableRewrite s = .next t ∧ t.plans.rewritePending = false ∧ t.plans.tableWritten = true ∧ t.keys = s.keys ∧
      t.flash = s.flash ∧ (∀ i, (getRegion s i).active = true ∨ (getRegion s i).erasePending = true → getRegion t i = getRegion s i) ∧
      ∀ i, (getRegion s i).active = false → (getRegion s i).erasePending = false →
        (regionRec s i = none → getRegion t i = Region.unnamed ∨ (getRegion s i = Region.zero ∧ getRegion t i = Region.zero)) ∧
        ∀ p, regionRec s i = some p → (getRegion t i).inUse = true ∧ (getRegion t i).tenant = p.tenant ∧ (getRegion t i).slab = p.slab ∧
          (getRegion t i).slabs = p.slabs ∧ (getRegion t i).vbase = p.vbase := by
  refine ⟨_, regionTableRewrite_rewrites h, ?_⟩
  obtain ⟨u, hu⟩ : ∃ u : State, u = { s with plans := { s.plans with rewritePending := false, tableWritten := true } } := ⟨_, rfl⟩
  have hregion (i : Nat) : getRegion u i = getRegion s i := by rw [hu]; rfl
  have hrec (i : Nat) : regionRec u i = regionRec s i := by rw [hu]; rfl
  have hwork : TableWork u (forEach (tableIds s) rewriteEntry u) := forEach_relates .refl .trans rewriteEntry_table _ u
  have hplans (i : Nat) : regionRec (forEach (tableIds s) rewriteEntry u) i = regionRec s i := by
    rw [← hrec]
    unfold regionRec planOf
    rw [hwork.plans]
  rw [← hu]
  refine ⟨by rw [hwork.plans, hu], by rw [hwork.plans, hu], by rw [hwork.keys, hu], by rw [hwork.flash, hu],
    fun i hi => (hwork.busy i ((hregion i).symm ▸ hi)).trans (hregion i), fun i ha he => ?_⟩
  obtain ⟨hin, hout⟩ := rewriteEntries_rewrite (l := tableIds s) (s := u) (i := i) (by rw [hregion]; exact not_busy ha he)
  refine ⟨fun hn => ?_, fun p hp => ?_⟩
  · by_cases hi : i ∈ tableIds s
    · exact .inl ((hin hi).1 ((hplans i).trans hn))
    · have hzero := getRegion_of_not_mem_tableIds hi
      exact .inr ⟨hzero, by rw [hout hi, hregion, hzero]⟩
  · have hl := (hin (mem_tableIds_of_rec hp)).2 p ((hplans i).trans hp)
    exact ⟨hl.inUse, hl.tenant, hl.slab, hl.slabs, hl.vbase⟩

end Sys2Proof.Safety

namespace Sys2Proof.Safety
open Sys2Proof.Machine

/-! ### What a record read does not look at -/

/-- The array, the relief map, the entries and which first generations are drawn are as they were. -/
structure RecordsStand (s t : State) : Prop where
  dram : t.dram = s.dram
  relief : t.relief = s.relief
  regions : t.regions = s.regions
  genDrawn : t.genDrawn = s.genDrawn

theorem RecordsStand.trans {a b c : State} (h : RecordsStand a b) (h' : RecordsStand b c) : RecordsStand a c :=
  ⟨h'.dram.trans h.dram, h'.relief.trans h.relief, h'.regions.trans h.regions, h'.genDrawn.trans h.genDrawn⟩

theorem RecordsStand.symm {a b : State} (h : RecordsStand a b) : RecordsStand b a :=
  ⟨h.dram.symm, h.relief.symm, h.regions.symm, h.genDrawn.symm⟩

theorem Reports.recordsStand {s t : State} : Reports s t → RecordsStand s t := by
  rintro ⟨_, _, _, _, _, rfl⟩
  exact ⟨rfl, rfl, rfl, rfl⟩

theorem setChan_recordsStand (ch : Nat) (v : Chan) (s : State) : RecordsStand s (setChan ch v s) := ⟨rfl, rfl, rfl, rfl⟩

theorem countBurst_recordsStand (line : Nat) (d : Decoded) (s : State) : RecordsStand s (countBurst line d s) := by
  unfold countBurst
  dsimp only
  split
  · exact setChan_recordsStand _ _ s
  · split
    · exact (setChan_recordsStand _ _ s).trans (startRetirement_reports _ _).recordsStand
    · exact setChan_recordsStand _ _ s
  · exact setChan_recordsStand _ _ s

theorem earlyScrub_recordsStand (ch line : Nat) (dma : Option Nat) (s : State) : RecordsStand s (earlyScrub ch line dma s) := by
  unfold earlyScrub
  dsimp only
  split
  · exact setChan_recordsStand _ _ s
  · exact (headCount_reports _ _ _).recordsStand

theorem readSystem_recordsStand (line detail : Nat) (s : State) : RecordsStand s (readSystem line detail s).2 := by
  have hd : RecordsStand s (decodeLine s line []).2 := RecordsStand.trans (b := drawn s) ⟨rfl, rfl, rfl, rfl⟩ (countBurst_recordsStand _ _ _)
  unfold readSystem
  dsimp only
  split
  · exact hd
  · exact (hd.trans (noteCorrection_reports _ _ _ _ _ _ _ _).recordsStand).trans (earlyScrub_recordsStand _ _ _ _)
  · exact (hd.trans (chanCount_reports _ _ _ _).recordsStand).trans (raiseDetail_messages _ _ _ _ _).reports.recordsStand

/-- What a system line reads as rests on the array, the channel's erased lanes and the next free value. -/
theorem readSystem_congr {s u : State} (hd : u.dram = s.dram) (hc : u.chans = s.chans) (hf : u.free = s.free) (line detail : Nat) :
    (readSystem line detail u).1 = (readSystem line detail s).1 := by
  have ho : decodeOutcome u line [] u.free = decodeOutcome s line [] s.free := by
    rw [hf]
    unfold decodeOutcome getChan lineData lineBytes isPoisoned burstErrors standing
    rw [hd, hc]
  unfold readSystem decodeLine
  dsimp only
  rw [ho]
  split <;> rfl

/-- One record of a lost line is built again, or its region draws anew. -/
def rebuildRecord (j : Nat) (t : State) : State :=
  if (getRegion t j).inUse then writeBytes (leaseHome t j).1 (leaseHome t j).2 (leaseBytes (recOf (getRegion t j))) t
  else { t with genDrawn := NSet.del j t.genDrawn }

theorem rebuildRecs_eq (i : Nat) (s : State) : rebuildRecs i s =
    forEach ((recordGroup i).filter (fun j => NSet.has j s.genDrawn)) rebuildRecord (writeLine (leaseHome s i).1 [] s) := rfl

section
variable {s u : State} (h : RecordsStand s u)
include h

theorem RecordsStand.home (i : Nat) : leaseHome u i = leaseHome s i := leaseHome_congr h.relief i

theorem RecordsStand.entry (i : Nat) : getRegion u i = getRegion s i := getRegion_congr h.regions i

theorem RecordsStand.getRec (i : Nat) : Machine.getRec u i = Machine.getRec s i := by
  unfold Machine.getRec lineBytes
  rw [h.home, h.dram]

theorem RecordsStand.writeBytes (line o : Nat) (bs : List Byte) : RecordsStand (Machine.writeBytes line o bs s) (Machine.writeBytes line o bs u) := by
  refine ⟨?_, h.relief, h.regions, h.genDrawn⟩
  unfold Machine.writeBytes clearUpsets
  dsimp only
  rw [h.dram]

theorem RecordsStand.viewOf (l : List (Nat × List Byte)) : RecordsStand (Machine.viewOf l s) (Machine.viewOf l u) := by
  unfold Machine.viewOf forEach
  induction l generalizing s u with
  | nil => exact h
  | cons e l ih => exact ih (h.writeBytes _ _ _)

theorem RecordsStand.rebuildRecord (j : Nat) : RecordsStand (Safety.rebuildRecord j s) (Safety.rebuildRecord j u) := by
  unfold Safety.rebuildRecord
  rw [h.entry, h.home]
  split
  · exact h.writeBytes _ _ _
  · exact ⟨h.dram, h.relief, h.regions, by rw [h.genDrawn]⟩

/-- The records of a lost line are built again alike. -/
theorem RecordsStand.rebuildRecs (i : Nat) : RecordsStand (Machine.rebuildRecs i s) (Machine.rebuildRecs i u) := by
  rw [rebuildRecs_eq, rebuildRecs_eq, h.home, h.genDrawn]
  unfold forEach
  have hw : RecordsStand (writeLine (leaseHome s i).1 [] s) (writeLine (leaseHome s i).1 [] u) := h.writeBytes _ _ _
  generalize writeLine (leaseHome s i).1 [] s = a, writeLine (leaseHome s i).1 [] u = b, (recordGroup i).filter _ = l at hw
  induction l generalizing a b with
  | nil => exact hw
  | cons j l ih => exact ih _ _ (hw.rebuildRecord j)

end

/-- What a record's line brings beside what the array holds of it. -/
def lineRead (line : Nat) (bs : List Byte) (t : State) : List (Nat × List Byte) := if padTo 64 bs = lineData t line then [] else [(line, bs)]

theorem readRec_read {i : Nat} {s : State} {bs : List Byte} (h : (readSystem (leaseHome s i).1 0 s).1 = some bs) :
    (readRec i s).1 = getRec (viewOf (lineRead (leaseHome s i).1 bs (readSystem (leaseHome s i).1 0 s).2)
      (readSystem (leaseHome s i).1 0 s).2) i := by
  unfold readRec readLines
  dsimp only [List.foldl_cons, List.foldl_nil]
  rw [h]
  rfl

theorem readRec_lost {i : Nat} {s : State} (h : (readSystem (leaseHome s i).1 0 s).1 = none) :
    (readRec i s).1 = getRec (viewOf [] (rebuildRecs i (readSystem (leaseHome s i).1 0 s).2)) i := by
  unfold readRec readLines
  dsimp only [List.foldl_cons, List.foldl_nil]
  rw [h]

/-- A record reads alike in states that differ in nothing that it rests on. -/
theorem readRec_congr {s u : State} (h : RecordsStand s u) (hc : u.chans = s.chans) (hf : u.free = s.free) (i : Nat) :
    (readRec i u).1 = (readRec i s).1 := by
  have hr : RecordsStand (readSystem (leaseHome s i).1 0 s).2 (readSystem (leaseHome s i).1 0 u).2 :=
    ((readSystem_recordsStand _ _ s).symm.trans h).trans (readSystem_recordsStand _ _ u)
  have hword := readSystem_congr h.dram hc hf (leaseHome s i).1 0
  have hhome := h.home i
  cases hread : (readSystem (leaseHome s i).1 0 s).1 with
  | some bs =>
    rw [readRec_read hread, readRec_read (bs := bs) (by rw [hhome, hword, hread]), hhome]
    have hline : lineRead (leaseHome s i).1 bs (readSystem (leaseHome s i).1 0 u).2 =
        lineRead (leaseHome s i).1 bs (readSystem (leaseHome s i).1 0 s).2 := by
      unfold lineRead lineData lineBytes
      rw [hr.dram]
    rw [hline]
    exact (hr.viewOf _).getRec i
  | none =>
    rw [readRec_lost hread, readRec_lost (by rw [hhome, hword, hread]), hhome]
    exact ((hr.rebuildRecs i).viewOf _).getRec i

/-! ### An entry is loaded again (R286) -/

/-- A record that is kept up to date changes no entry. -/
theorem keepRecord_work (i : Nat) (s : State) : RecordWork i s (keepRecord i s) := by
  unfold keepRecord
  dsimp only
  split
  · exact readRec_work i s
  · exact (readRec_work i s).trans (putRec_work i _ _)

/-- An entry that is loaded again from its record has its place from the plan and what its lease needs from the record (R112). -/
structure Reseated (p : RegionRec) (e : LeaseRec) (g r : Region) : Prop where
  tenant : r.tenant = p.tenant
  slab : r.slab = p.slab
  slabs : r.slabs = p.slabs
  vbase : r.vbase = p.vbase
  active : g.erasePending = false → r.active = e.active
  gen : r.gen = e.gen
  curSlot : r.curSlot = e.curSlot
  nextSlot : r.nextSlot = e.nextSlot

/-- The place of an entry is the plan's. -/
def InPlace (p : RegionRec) (r : Region) : Prop := r.tenant = p.tenant ∧ r.slab = p.slab ∧ r.slabs = p.slabs ∧ r.vbase = p.vbase

theorem reseat_load (i : Nat) (s : State) : LoadWork i s (reseat i s) := by
  have hread := (readRec_work i s).toLoadWork
  unfold reseat
  dsimp only
  split
  · exact hread
  · exact (hread.trans (setRegion_load i _ _)).trans (keepRecord_work i _).toLoadWork

theorem reseat_reseats {i : Nat} {s : State} {p : RegionRec} (h : regionRec s i = some p) :
    Reseated p (readRec i s).1 (getRegion s i) (getRegion (reseat i s) i) := by
  have hread := readRec_work i s
  have hentry := hread.entry i
  have hrec : regionRec (readRec i s).2 i = some p := by
    unfold regionRec planOf at h ⊢
    rw [hread.steady.plans]
    exact h
  unfold reseat
  extract_lets e s' g
  have hg : g = getRegion s i := hentry
  split
  · next hn => rw [hrec] at hn; cases hn
  · next p' hp =>
    obtain rfl : p = p' := Option.some.inj (hrec.symm.trans hp)
    extract_lets r r1 r2 r3
    rw [(keepRecord_work i _).entry, getRegion_set_same, ← hg]
    have hr1 : InPlace p r1 := by
      dsimp only [r1]
      split
      · exact ⟨rfl, rfl, rfl, rfl⟩
      · exact ⟨rfl, rfl, rfl, rfl⟩
    have hr3 : InPlace p r3 ∧ r3.active = e.active ∧ r3.gen = e.gen ∧ r3.curSlot = e.curSlot ∧ r3.nextSlot = e.nextSlot := by
      dsimp only [r3]
      split
      · exact ⟨hr1, rfl, rfl, rfl, rfl⟩
      · exact ⟨hr1, rfl, rfl, rfl, rfl⟩
    obtain ⟨⟨htenant, hslab, hslabs, hvbase⟩, hactive, hgen, hcur, hnext⟩ := hr3
    split
    · next he => exact ⟨htenant, hslab, hslabs, hvbase, fun h => absurd (he.symm.trans h) (by decide), hgen, hcur, hnext⟩
    · exact ⟨htenant, hslab, hslabs, hvbase, fun _ => hactive, hgen, hcur, hnext⟩

end Sys2Proof.Safety

namespace Sys2Proof.Safety
open Sys2Proof.Machine

/-- Nothing but the classes' levels on the channels differs. -/
def Relevelled (s t : State) : Prop := ∃ x, t = { s with clsCh := x }

theorem Relevelled.refl (s : State) : Relevelled s s := ⟨s.clsCh, rfl⟩

theorem Relevelled.trans {a b c : State} : Relevelled a b → Relevelled b c → Relevelled a c := by
  rintro ⟨_, rfl⟩ ⟨_, rfl⟩
  exact ⟨_, rfl⟩

theorem setCls_relevelled (ch c : Nat) (v : ClsCh) (s : State) : Relevelled s (setCls ch c v s) := ⟨_, rfl⟩

theorem relevel_frame (s : State) : Relevelled s (relevel s) := by
  unfold relevel
  generalize upTo 64 = chs, upTo 16 = cs
  exact forEach_relates .refl .trans (fun ch t => forEach_relates .refl .trans (fun c u => setCls_relevelled ch c _ u) cs t) chs s

theorem relevel_tenants (s : State) : TenantsKept s (relevel s) := by
  obtain ⟨_, h⟩ := relevel_frame s
  rw [h]
  exact ⟨fun _ _ => rfl, fun _ _ => rfl⟩

/-- The state in which an intact entry is loaded again: its failed reload is no longer remembered. -/
def reloadCleared (item : ReloadItem) (s : State) : State :=
  { s with plans := { s.plans with reloadFailed := NSet.del (waitKey (reloadKey item).2.2) s.plans.reloadFailed } }

theorem reloadCleared_has (item : ReloadItem) (s : State) :
    NSet.has (waitKey (reloadKey item).2.2) (reloadCleared item s).plans.reloadFailed = false := NSet.has_del _ _

theorem reloadCleared_rec (item : ReloadItem) (i : Nat) (s : State) : (readRec i (reloadCleared item s)).1 = (readRec i s).1 := by
  have h : RecordsStand s (reloadCleared item s) := ⟨rfl, rfl, rfl, rfl⟩
  exact readRec_congr h rfl rfl i

/-- An entry of the region table that is loaded again. -/
def reloadRegion (i : Nat) (s : State) : State := if (getRegion s i).active || (getRegion s i).erasePending then reseat i s else loadEntry i s

theorem reloadRegion_load (i : Nat) (s : State) : LoadWork i s (reloadRegion i s) := by
  unfold reloadRegion
  split
  · exact reseat_load i s
  · exact loadEntry_load i s

theorem reloadRegion_inPlace {i : Nat} {s : State} {p : RegionRec} (h : regionRec s i = some p) : InPlace p (getRegion (reloadRegion i s) i) := by
  unfold reloadRegion
  split
  · have hr := reseat_reseats h
    exact ⟨hr.tenant, hr.slab, hr.slabs, hr.vbase⟩
  · obtain ⟨-, hl⟩ := loadEntry_named h
    exact ⟨hl.tenant, hl.slab, hl.slabs, hl.vbase⟩

theorem reloadRegion_active {i : Nat} {s : State} {p : RegionRec} (h : regionRec s i = some p) (ha : (getRegion s i).active = true)
    (he : (getRegion s i).erasePending = false) : let r := getRegion (reloadRegion i s) i
    r.active = (readRec i s).1.active ∧ r.gen = (readRec i s).1.gen ∧ r.curSlot = (readRec i s).1.curSlot ∧ r.nextSlot = (readRec i s).1.nextSlot := by
  unfold reloadRegion
  rw [if_pos (by simp [ha])]
  have hr := reseat_reseats h
  exact ⟨hr.active he, hr.gen, hr.curSlot, hr.nextSlot⟩

section
variable {item : ReloadItem} {k : Bank} {s : State} (hk : s.plans.inForce = some k)
include hk

theorem sectionReload_intact (h : sectionIntact s k (reloadKey item).1 = true) :
    exec (.sectionReload item) s = .next (reloadGood item s) := by
  show execSectionReload item s = _
  unfold execSectionReload reloadItem
  rw [hk]
  dsimp only
  rw [if_pos h]

theorem sectionReload_damaged (h : sectionIntact s k (reloadKey item).1 = false) :
    exec (.sectionReload item) s = .next (reloadBad item k s) := by
  show execSectionReload item s = _
  unfold execSectionReload reloadItem
  rw [hk]
  dsimp only
  rw [if_neg (by simp [h])]

end

/-- An intact entry is loaded again, and no tenant's data changes. -/
theorem reloadGood_loads (item : ReloadItem) (s : State) :
    NSet.has (waitKey (reloadKey item).2.2) (reloadGood item s).plans.reloadFailed = false ∧ TenantsKept s (reloadGood item s) := by
  have hclear := reloadCleared_has item s
  have hlevel : NSet.has (waitKey (reloadKey item).2.2) (relevel (reloadCleared item s)).plans.reloadFailed = false ∧
      TenantsKept s (relevel (reloadCleared item s)) := by
    have htenants := relevel_tenants (reloadCleared item s)
    obtain ⟨_, h⟩ := relevel_frame (reloadCleared item s)
    rw [h] at htenants ⊢
    exact ⟨hclear, htenants⟩
  cases item with
  | region i =>
    have hload := reloadRegion_load i.val (reloadCleared (.region i) s)
    have htenants := hload.tenants i.isLt
    show NSet.has _ (reloadRegion i.val (reloadCleared (.region i) s)).plans.reloadFailed = false ∧
      TenantsKept s (reloadRegion i.val (reloadCleared (.region i) s))
    exact ⟨by rw [hload.steady.plans]; exact hclear, htenants⟩
  | classTable c => exact hlevel
  | escalation c => exact hlevel

/-- The state in which a failed reload is remembered, with its message and its entry. -/
def reloadNoted (item : ReloadItem) (k : Bank) (s : State) : State :=
  let s1 := raiseOwn 1 0x080 0x30 (bankCode k + 1) (putBS k { getBS s k with reason := 0x0A } s)
  journalEvent 0x080 0x25 0x0A ([BitVec.ofNat 8 (bankCode k), BitVec.ofNat 8 (reloadKey item).1, 0, 0] ++ beBytes 4 (reloadKey item).2.1)
    { s1 with plans := { s1.plans with reloadFailed := NSet.add (reloadKey item).2.2 s1.plans.reloadFailed } }

/-- A failed reload is remembered with its reason, and the array is as it was. -/
structure ReloadFailed (item : ReloadItem) (k : Bank) (s t : State) : Prop where
  remembered : NSet.has (reloadKey item).2.2 t.plans.reloadFailed = true
  reason : (getBS t k).reason = 0x0A
  dram : t.dram = s.dram

theorem ReloadFailed.of_plans {item : ReloadItem} {k : Bank} {s t u : State} (h : ReloadFailed item k s t) (hp : u.plans = t.plans)
    (hd : u.dram = t.dram) : ReloadFailed item k s u :=
  ⟨by rw [hp]; exact h.remembered, by rw [getBS_congr hp]; exact h.reason, hd.trans h.dram⟩

theorem reloadNoted_fails (item : ReloadItem) (k : Bank) (s : State) : ReloadFailed item k s (reloadNoted item k s) := by
  obtain ⟨u, hu⟩ : ∃ u, u = putBS k { getBS s k with reason := 0x0A } s := ⟨_, rfl⟩
  have hdram : u.dram = s.dram := by
    rw [hu]
    cases k <;> rfl
  have hreason : (getBS u k).reason = 0x0A := by rw [hu, getBS_put_same]
  obtain ⟨v, hv⟩ : ∃ v, v = raiseOwn 1 0x080 0x30 (bankCode k + 1) u := ⟨_, rfl⟩
  have hm : Messages u v := hv ▸ pushMsg_messages _ u
  obtain ⟨w, hw⟩ : ∃ w : State, w = { v with plans := { v.plans with reloadFailed := NSet.add (reloadKey item).2.2 v.plans.reloadFailed } } := ⟨_, rfl⟩
  have hfailed : ReloadFailed item k s w := by
    have hbank : getBS w k = getBS v k := by
      rw [hw]
      cases k <;> rfl
    refine ⟨by rw [hw]; exact NSet.has_add _ _, by rw [hbank, getBS_messages hm, hreason], ?_⟩
    obtain ⟨_, _, _, _, h⟩ := hm
    rw [hw, h]
    exact hdram
  have hnoted : reloadNoted item k s = journalEvent 0x080 0x25 0x0A
      ([BitVec.ofNat 8 (bankCode k), BitVec.ofNat 8 (reloadKey item).1, 0, 0] ++ beBytes 4 (reloadKey item).2.1) w := by
    rw [hw, hv, hu]
    rfl
  obtain ⟨_, _, _, _, _, hevent⟩ := journalEvent_events 0x080 0x25 0x0A
    ([BitVec.ofNat 8 (bankCode k), BitVec.ofNat 8 (reloadKey item).1, 0, 0] ++ beBytes 4 (reloadKey item).2.1) w
  rw [hnoted, hevent]
  exact hfailed.of_plans rfl rfl

/-- A lease that ends for another cause than a revoke is no longer active, and its erase is to begin (R122). -/
theorem endLease_ends {i m : Nat} {cause : Byte} (hc : cause ≠ 1) (s : State) : ∃ c l h,
    endLease i m cause s = setRegion i { getRegion s i with active := false, erasePending := true, erase := .draining, eraseCause := cause,
                                                            endMinute := BitVec.ofNat 32 m }
      { s with ctr := c, records := { s.records with live := l }, churn := h } := by
  obtain ⟨c, l, h, hcount⟩ := tenantCount_frame (getRegion s i).tenant 11 1 s
  refine ⟨c, l, h, ?_⟩
  unfold endLease
  dsimp only
  rw [if_neg hc, hcount]

theorem reloadBad_fails (item : ReloadItem) (k : Bank) (s : State) : ReloadFailed item k s (reloadBad item k s) ∧
    ∀ i, item = .region i → (getRegion (reloadBad item k s) i.val).active = false := by
  have hnoted := reloadNoted_fails item k s
  have hlevel : ReloadFailed item k s (relevel (reloadNoted item k s)) := by
    obtain ⟨_, h⟩ := relevel_frame (reloadNoted item k s)
    rw [h]
    exact hnoted.of_plans rfl rfl
  cases item with
  | region i =>
    show ReloadFailed (.region i) k s (if (getRegion (reloadNoted (.region i) k s) i.val).active then
      endLease i.val (reloadNoted (.region i) k s).tank.minute.toNat 2 (reloadNoted (.region i) k s) else reloadNoted (.region i) k s) ∧
      ∀ j, ReloadItem.region i = .region j → (getRegion (if (getRegion (reloadNoted (.region i) k s) i.val).active then
        endLease i.val (reloadNoted (.region i) k s).tank.minute.toNat 2 (reloadNoted (.region i) k s) else reloadNoted (.region i) k s)
        j.val).active = false
    generalize reloadNoted (.region i) k s = u at hnoted ⊢
    split
    · obtain ⟨c, l, h, hend⟩ := endLease_ends (i := i.val) (m := u.tank.minute.toNat) (cause := 2) (by decide) u
      rw [hend]
      refine ⟨hnoted.of_plans rfl rfl, ?_⟩
      rintro j ⟨⟩
      rw [getRegion_set_same]
    · next ha =>
      refine ⟨hnoted, ?_⟩
      rintro j ⟨⟩
      exact Bool.eq_false_of_not_eq_true ha
  | classTable c => exact ⟨hlevel, fun _ h => nomatch h⟩
  | escalation c => exact ⟨hlevel, fun _ h => nomatch h⟩

/-- Settles O53: each command's clause is what its operation is shown to do of a bank, of the loop's entries and of an entry. -/
theorem plansAreLaidOut : Obligations.PlansAreLaidOut := by
  unfold Obligations.PlansAreLaidOut
  refine fun s => ⟨fun k hk => ⟨_, adoptionPrepared_decides hk, ?_⟩, regionTableRewrite_lays, fun item k hk => ⟨fun hi => ?_, fun hd => ?_⟩⟩
  · cases hcheck : checkBank s k with
    | error e =>
      have h := prepareBank_faulty hk hcheck
      exact ⟨h.preparing, h.dram, h.state, h.reason, h.prepared⟩
    | ok p =>
      cases hcompat : compat s p p.adoptAt.toNat false with
      | some c =>
        have h := prepareBank_incompatible hk hcheck hcompat
        dsimp only
        rw [hcompat]
        exact ⟨h.preparing, h.dram, h.state, h.reason, h.detail, h.prepared⟩
      | none =>
        dsimp only
        rw [hcompat]
        cases hadmit : admission p s.retired with
        | some c =>
          have h := prepareBank_inadmissible hk hcheck hcompat hadmit
          exact ⟨h.preparing, h.dram, h.state, h.reason, h.detail, h.prepared⟩
        | none =>
          rw [prepareBank_prepares hcheck hcompat hadmit]
          exact ⟨rfl, rfl, rfl⟩
  · obtain ⟨hhas, htenants⟩ := reloadGood_loads item s
    refine ⟨_, sectionReload_intact hk hi, hhas, htenants, ?_⟩
    rintro i p rfl hp
    obtain ⟨htenant, hslab, hslabs, hvbase⟩ := reloadRegion_inPlace (s := reloadCleared (.region i) s) hp
    refine ⟨htenant, hslab, hslabs, hvbase, fun ha he => ?_⟩
    rw [← reloadCleared_rec (.region i)]
    exact reloadRegion_active (s := reloadCleared (.region i) s) hp ha he
  · obtain ⟨hfailed, hinactive⟩ := reloadBad_fails item k s
    exact ⟨_, sectionReload_damaged hk hd, hfailed.remembered, hfailed.reason, hinactive, hfailed.dram⟩

end Sys2Proof.Safety

namespace Sys2Proof.Safety
open Sys2Proof.Machine

/-! ## Leases begin and end (R118 to R123, R126, R127, R283)

### What a minute tick does besides: rows under test are restored and the CE log is copied (R218, R365) -/

/-- Nothing differs but the array, reports, the journal, the channel engines, free values and the tests of the rows. -/
def Tended (s t : State) : Prop :=
  ∃ k h l c r j n e d b, t = { s with churn := k, chain := h, chainSent := l, ctr := c, retiring := r, journal := j, free := n, chans := e,
                                      dram := d, bist := b }

theorem Tended.refl (s : State) : Tended s s := ⟨_, _, _, _, _, _, _, _, _, _, rfl⟩

theorem Tended.trans {a b c : State} : Tended a b → Tended b c → Tended a c := by
  rintro ⟨_, _, _, _, _, _, _, _, _, _, rfl⟩ ⟨_, _, _, _, _, _, _, _, _, _, rfl⟩
  exact ⟨_, _, _, _, _, _, _, _, _, _, rfl⟩

theorem Reports.tended {s t : State} : Reports s t → Tended s t := by
  rintro ⟨_, _, _, _, _, rfl⟩
  exact ⟨_, _, _, _, _, _, _, _, _, _, rfl⟩

theorem forEach_tended {α : Type} {f : α → State → State} (hf : ∀ x s, Tended s (f x s)) (l : List α) (s : State) : Tended s (forEach l f s) :=
  forEach_relates .refl .trans hf l s

theorem setChan_tended (ch : Nat) (v : Chan) (s : State) : Tended s (setChan ch v s) := ⟨_, _, _, _, _, _, _, _, _, _, rfl⟩

theorem writeBytes_tended (line o : Nat) (bs : List Byte) (s : State) : Tended s (writeBytes line o bs s) := ⟨_, _, _, _, _, _, _, _, _, _, rfl⟩

theorem writeSystem_tended (line o : Nat) (bs : List Byte) (s : State) : Tended s (writeSystem line o bs s) := by
  unfold writeSystem
  split
  · exact ⟨_, _, _, _, _, _, _, _, _, _, rfl⟩
  · exact writeBytes_tended _ _ _ _

theorem countBurst_tended (line : Nat) (d : Decoded) (s : State) : Tended s (countBurst line d s) := by
  unfold countBurst
  dsimp only
  split
  · exact setChan_tended _ _ _
  · split
    · exact (setChan_tended _ _ s).trans (startRetirement_reports _ _).tended
    · exact setChan_tended _ _ _
  · exact setChan_tended _ _ _

theorem decodeLine_tended (s : State) (line : Nat) (path : Errors) : Tended s (decodeLine s line path).2 := by
  have hdrawn : Tended s (drawn s) := ⟨_, _, _, _, _, _, _, _, _, _, rfl⟩
  exact hdrawn.trans (countBurst_tended _ _ _)

theorem putPoison_tended (line : Nat) (s : State) : Tended s (putPoison line s) := ⟨_, _, _, _, _, _, _, _, _, _, rfl⟩

theorem restoreLine_tended (ch k bank row j : Nat) (s : State) : Tended s (restoreLine ch k bank row j s) := by
  unfold restoreLine
  extract_lets d
  have hd : Tended s d.2 := decodeLine_tended s _ []
  split
  · exact hd.trans (writeBytes_tended _ _ _ _)
  · exact hd.trans (writeBytes_tended _ _ _ _)
  · exact hd.trans (putPoison_tended _ _)

theorem restoreRows_tended (ch : Nat) (m : Marker) (s : State) : Tended s (restoreRows ch m s) := by
  unfold restoreRows
  generalize upTo 16 = js
  split
  · exact (forEach_tended (fun x t => forEach_tended (fun j u => writeBytes_tended _ _ _ u) js t) _ s).trans (systemBursts_reports _ _ _).tended
  · exact (forEach_tended (fun x t => forEach_tended (fun j u => restoreLine_tended _ _ _ _ _ u) js t) _ s).trans
      (systemBursts_reports _ _ _).tended

theorem endMarker_tended (ch : Nat) (s : State) : Tended s (endMarker ch s) := by
  have hset (v : BistCh) (u : State) : Tended u (setBist ch v u) := ⟨_, _, _, _, _, _, _, _, _, _, rfl⟩
  have hwait (u : State) : Tended u (writeWaiting ch u) :=
    Tended.trans (b := { u with dram := { u.dram with waits := u.dram.waits.filter (fun e => lineChannel e.1 ≠ ch) } })
      ⟨_, _, _, _, _, _, _, _, _, _, rfl⟩ (forEach_tended (fun _ t => writeBytes_tended _ _ _ t) _ _)
  unfold endMarker
  split
  · exact .refl s
  · exact ((restoreRows_tended ch _ s).trans (hset _ _)).trans (hwait _)

theorem abortForLeases_tended (s : State) : Tended s (abortForLeases s) := by
  have habort (p : Nat → Nat → Nat → Bool) : Tended s (abortIf p s) := by
    refine forEach_tended (fun ch t => ?_) _ s
    split
    · split
      · exact endMarker_tended ch t
      · exact .refl t
    · exact .refl t
  unfold abortForLeases
  split
  · exact .refl s
  · exact habort _

theorem copyCeLog_tended (s : State) : Tended s (copyCeLog s) := by
  unfold copyCeLog
  generalize upTo 256 = l
  split
  · exact forEach_tended (fun i t => writeSystem_tended _ _ _ t) l s
  · exact .refl s

end Sys2Proof.Safety

namespace Sys2Proof.Safety
open Sys2Proof.Machine

/-! ### The steps of a boundary, one region at a time (R119) -/

/-- Nothing but counters, records other than the open minute and waiting fault messages differs. -/
def Tallied (s t : State) : Prop := ∃ c r h, t = { s with ctr := c, records := r, churn := h } ∧ r.openMinute = s.records.openMinute

theorem Tallied.entry {i : Nat} {s t : State} : Tallied s t → EntryWork i s t := by
  rintro ⟨_, _, _, rfl, hr⟩
  exact ⟨⟨rfl, rfl, rfl⟩, fun _ _ => rfl, hr, rfl, rfl, rfl, rfl, rfl, fun _ _ => .of_dram rfl⟩

theorem Tallied.regions {s t : State} : Tallied s t → t.regions = s.regions := by
  rintro ⟨_, _, _, rfl, -⟩
  rfl

theorem withHeld_load (i : Nat) (l : List (Nat × Bool)) (s : State) : LoadWork i s { s with held := l } :=
  ⟨⟨⟨rfl, rfl, rfl⟩, fun _ _ => rfl, rfl, rfl, rfl, rfl, rfl, rfl, fun _ _ => .of_dram rfl⟩, rfl, rfl, rfl, rfl, rfl, rfl⟩

theorem tenantCount_tallied (tenant n add : Nat) (s : State) : Tallied s (tenantCount tenant n add s) := by
  obtain ⟨_, _, _, h⟩ := tenantCount_frame tenant n add s
  exact ⟨_, _, _, h, rfl⟩

/-- The leases that a revoke ends are remembered, and nothing else differs (R124). -/
theorem dropChain_frame (i : Nat) (id : BitVec 32) (s : State) :
    ∃ x, dropChain i id s = { s with records := { s.records with revokedLeases := x } } := by
  unfold dropChain
  split
  · exact ⟨_, rfl⟩
  · exact ⟨_, rfl⟩

theorem dropChain_entry (j i : Nat) (id : BitVec 32) (s : State) : EntryWork j s (dropChain i id s) := by
  obtain ⟨_, h⟩ := dropChain_frame i id s
  exact Tallied.entry ⟨_, _, _, h, rfl⟩

theorem dropChain_regions (i : Nat) (id : BitVec 32) (s : State) : (dropChain i id s).regions = s.regions := by
  obtain ⟨_, h⟩ := dropChain_frame i id s
  rw [h]

/-! A lease ends. -/

/-- The entry of a lease that has ended: its erase is to begin (R122). -/
def endedEntry (cause : Byte) (m : Nat) (r : Region) : Region :=
  { r with active := false, erasePending := true, erase := .draining, eraseCause := cause, endMinute := BitVec.ofNat 32 m }

/-- A revoke that ends a lease is remembered with all that it ends (R124, R127). -/
def endRevoke (i tenant : Nat) (id : BitVec 32) (s : State) : State :=
  { dropChain i id s with records := { (dropChain i id s).records with revokeEnded := NSet.add tenant (dropChain i id s).records.revokeEnded } }

theorem endRevoke_tallied (i tenant : Nat) (id : BitVec 32) (s : State) : Tallied s (endRevoke i tenant id s) := by
  obtain ⟨_, h⟩ := dropChain_frame i id s
  unfold endRevoke
  rw [h]
  exact ⟨_, _, _, rfl, rfl⟩

theorem endLease_eq (i m : Nat) (cause : Byte) (s : State) : endLease i m cause s =
    if cause = 1 then endRevoke i (getRegion s i).tenant (getRegion s i).revokeId
      (setRegion i (endedEntry cause m (getRegion s i)) (tenantCount (getRegion s i).tenant 11 1 s))
    else setRegion i (endedEntry cause m (getRegion s i)) (tenantCount (getRegion s i).tenant 11 1 s) := rfl

theorem endLease_entry (i m : Nat) (cause : Byte) (s : State) :
    EntryWork i s (endLease i m cause s) ∧ getRegion (endLease i m cause s) i = endedEntry cause m (getRegion s i) := by
  have hcount := (tenantCount_tallied (getRegion s i).tenant 11 1 s).entry (i := i)
  have hset := hcount.trans (setRegion_entry i (endedEntry cause m (getRegion s i)) _)
  have hshown := getRegion_set_same (tenantCount (getRegion s i).tenant 11 1 s) i (endedEntry cause m (getRegion s i))
  rw [endLease_eq]
  split
  · have hrevoke := endRevoke_tallied i (getRegion s i).tenant (getRegion s i).revokeId
      (setRegion i (endedEntry cause m (getRegion s i)) (tenantCount (getRegion s i).tenant 11 1 s))
    exact ⟨hset.trans hrevoke.entry, (getRegion_congr hrevoke.regions i).trans hshown⟩
  · exact ⟨hset, hshown⟩

/-- Whether a revoke of the entry takes effect at minute m. -/
def RevokedAt (m : Nat) (r : Region) : Prop := r.inUse = true ∧ r.revokeMinute.toNat = m ∧ r.revokeMinute ≠ 0xFFFFFFFF

/-- The entry whose follow-on is revoked. -/
def withoutFollowOn (r : Region) : Region := { r with foEnd := 0, foId := 0, revoked := false, revokeMinute := 0xFFFFFFFF, revokeId := 0 }

/-- The revoke's part of `endStep`. -/
def revokeStep (m i : Nat) (s : State) : State :=
  let r := getRegion s i
  if !r.inUse || r.revokeMinute.toNat ≠ m || r.revokeMinute = 0xFFFFFFFF then s
  else if r.leaseId = r.revokeId then (if r.active then endLease i m 1 s else dropHold i (dropChain i r.revokeId s))
  else saveLease i (setRegion i (withoutFollowOn r) (dropChain i r.revokeId s))

theorem endStep_eq (m i : Nat) (s : State) : endStep m i s =
    if (getRegion (revokeStep m i s) i).active && (getRegion (revokeStep m i s) i).leaseEnd.toNat = m && (getRegion (revokeStep m i s) i).foId = 0
    then endLease i m 0 (revokeStep m i s) else revokeStep m i s := rfl

theorem dropHold_load (i : Nat) (s : State) : LoadWork i s (dropHold i s) := withHeld_load i _ s

theorem revokeStep_none {m i : Nat} {s : State} (h : ¬ RevokedAt m (getRegion s i)) : revokeStep m i s = s := by
  unfold revokeStep
  refine if_pos ?_
  simp only [RevokedAt, ne_eq, not_and, not_not] at h
  simp only [Bool.or_eq_true, Bool.not_eq_true', decide_eq_true_eq]
  by_cases hu : (getRegion s i).inUse = true
  · by_cases hm : (getRegion s i).revokeMinute.toNat = m
    · exact .inr (h hu hm)
    · exact .inl (.inr hm)
  · exact .inl (.inl (Bool.eq_false_of_not_eq_true hu))

/-- A revoke ends the lease that it names, or takes the follow-on that it names from the entry. -/
theorem revokeStep_entry (m i : Nat) (s : State) : EntryWork i s (revokeStep m i s) ∧
    (getRegion (revokeStep m i s) i = getRegion s i ∨ getRegion (revokeStep m i s) i = endedEntry 1 m (getRegion s i) ∨
      getRegion (revokeStep m i s) i = withoutFollowOn (getRegion s i)) := by
  unfold revokeStep
  extract_lets r
  split
  · exact ⟨.refl i s, .inl rfl⟩
  · split
    · split
      · obtain ⟨hw, hr⟩ := endLease_entry i m 1 s
        exact ⟨hw, .inr (.inl hr)⟩
      · exact ⟨(dropChain_entry i i r.revokeId s).trans (dropHold_load i _).toEntryWork, .inl (getRegion_congr (dropChain_regions _ _ _) i)⟩
    · have hsaved := saveLease_saved i (withoutFollowOn r) (dropChain i r.revokeId s)
      exact ⟨(dropChain_entry i i r.revokeId s).trans hsaved.entry, .inr (.inr hsaved.shown)⟩

theorem endStep_entry (m i : Nat) (s : State) : EntryWork i s (endStep m i s) := by
  obtain ⟨hw, -⟩ := revokeStep_entry m i s
  rw [endStep_eq]
  split
  · exact hw.trans (endLease_entry i m 0 _).1
  · exact hw

/-- A lease has ended at minute m, and its erase is to begin. -/
def Ended (m : Nat) (r : Region) : Prop := r.active = false ∧ r.erasePending = true ∧ r.erase = .draining ∧ r.endMinute = BitVec.ofNat 32 m

theorem endedEntry_ended (cause : Byte) (m : Nat) (r : Region) : Ended m (endedEntry cause m r) := ⟨rfl, rfl, rfl, rfl⟩

/-- The step of a region whose lease is over, and has no follow-on, ends it. -/
theorem endStep_ends {m i : Nat} {s : State} (ha : (getRegion s i).active = true) (he : (getRegion s i).leaseEnd.toNat = m)
    (hf : (getRegion s i).foId = 0) : Ended m (getRegion (endStep m i s) i) := by
  obtain ⟨-, hshown⟩ := revokeStep_entry m i s
  rw [endStep_eq]
  split
  · rw [(endLease_entry i m 0 _).2]
    exact endedEntry_ended _ _ _
  · next hn =>
    rcases hshown with h | h | h
    · rw [h] at hn
      exact absurd (by simp [ha, he, hf]) hn
    · rw [h]
      exact endedEntry_ended _ _ _
    · rw [h] at hn
      exact absurd (by simp [withoutFollowOn, ha, he]) hn

/-- The step of a region whose lease has ended leaves it so. -/
theorem endStep_ended {m i : Nat} {s : State} (h : Ended m (getRegion s i)) : Ended m (getRegion (endStep m i s) i) := by
  obtain ⟨-, hshown⟩ := revokeStep_entry m i s
  obtain ⟨ha, hp, he, hm⟩ := h
  have hr : Ended m (getRegion (revokeStep m i s) i) := by
    rcases hshown with h | h | h
    · rw [h]
      exact ⟨ha, hp, he, hm⟩
    · rw [h]
      exact endedEntry_ended _ _ _
    · rw [h]
      exact ⟨ha, hp, he, hm⟩
  rw [endStep_eq, if_neg (by simp [hr.1])]
  exact hr

/-- The step of a region with a follow-on and no revoke due does nothing. -/
theorem endStep_idle {m i : Nat} {s : State} (hr : ¬ RevokedAt m (getRegion s i)) (hf : (getRegion s i).foId ≠ 0) : endStep m i s = s := by
  rw [endStep_eq, revokeStep_none hr, if_neg]
  simp only [Bool.and_eq_true, decide_eq_true_eq]
  exact fun h => hf h.2

/-! A lease goes on, starts or is shown. -/

theorem continueLease_load (i : Nat) (s : State) : LoadWork i s (continueLease i s) := by
  unfold continueLease
  dsimp only
  split
  · exact .refl i s
  · exact ((setRegion_load i _ s).trans (saveLease_work i _).toLoadWork).trans journalEvent_work.toLoadWork

theorem continueStep_load (m i : Nat) (s : State) : LoadWork i s (continueStep m i s) := by
  unfold continueStep
  dsimp only
  split
  · exact continueLease_load i s
  · exact .refl i s

theorem continueStep_idle {m i : Nat} {s : State} (h : (getRegion s i).active = false ∨ (getRegion s i).leaseEnd.toNat ≠ m) :
    continueStep m i s = s := by
  unfold continueStep
  refine if_neg ?_
  rcases h with h | h
  · simp [h]
  · simp [h]

/-- A lease with a follow-on that is open goes on as that one (R121). -/
theorem continueStep_continues {m i : Nat} {s : State} {p : RegionRec} {l : Lease} (ha : (getRegion s i).active = true)
    (he : (getRegion s i).leaseEnd.toNat = m) (hf : (getRegion s i).foId ≠ 0) (hp : regionRec s i = some p)
    (hl : (openLeases s p).find? (fun x => x.id = (getRegion s i).foId) = some l) :
    getRegion (continueStep m i s) i = seatLease s.records.laterRevokes (openLeases s p) l (getRegion s i) := by
  unfold continueStep continueLease
  dsimp only
  rw [if_pos (by simp only [Bool.and_eq_true, decide_eq_true_eq]; exact ⟨⟨ha, he⟩, hf⟩), hp, Option.bind_some, hl, Option.map_some]
  exact (journalEvent_work (i := i).entry i).trans (((saveLease_work i _).entry i).trans (getRegion_set_same _ _ _))

theorem setKey_after {i : Nat} {s u : State} (h : RecordWork i s u) (k : Nat) (v : KeySlot) :
    EntryWork i s (setKey k v u) ∧ (setKey k v u).regions = s.regions := ⟨h.toEntryWork.trans (setKey_entry i k v u), h.regions⟩

theorem drawKey_entry {region slot : Nat} {st : SlotState} {s t : State} (h : drawKey region st s = some (slot, t)) :
    EntryWork region s t ∧ t.regions = s.regions := by
  unfold drawKey at h
  split at h
  · cases h
  · split at h
    · cases h
    · next k _ =>
      simp only [Option.some.injEq, Prod.mk.injEq] at h
      obtain ⟨-, rfl⟩ := h
      exact setKey_after (generate_work 256 s) k _

theorem holdStart_load (i : Nat) (byErase : Bool) (s : State) : LoadWork i s (holdStart i byErase s) := withHeld_load i _ s

/-- The entry of a lease that starts: a new generation, with the key of its slot (R120). -/
def begunEntry (slot : Nat) (r : Region) : Region :=
  { r with active := true, gen := r.gen + 1, curSlot := slot, nextSlot := 0, nextValid := false, curBit := false }

/-- What the start of a lease leaves. -/
structure LeaseBegun (i slot : Nat) (s t : State) : Prop where
  entry : EntryWork i s t
  shown : getRegion t i = begunEntry slot (getRegion s i)
  keys : t.keys = s.keys
  kept : markedRow s (leaseHome s i).1 = false → RecordKept i s t
  held : isHeld t i = false

theorem isHeld_dropHold (i : Nat) (s : State) : isHeld (dropHold i s) i = false := by
  unfold isHeld dropHold
  simp

theorem isHeld_congr {s t : State} (h : t.held = s.held) (i : Nat) : isHeld t i = isHeld s i := by
  unfold isHeld
  rw [h]

/-- The tenant of a lease that has started is counted, and had a lease in this minute (R126, R127). -/
def tallyStart (tenant : Nat) (s : State) : State :=
  tenantCount tenant 10 1 { s with records := { s.records with leased := NSet.add tenant s.records.leased } }

theorem tallyStart_tallied (tenant : Nat) (s : State) : Tallied s (tallyStart tenant s) := by
  obtain ⟨_, _, _, h⟩ := tenantCount_frame tenant 10 1 { s with records := { s.records with leased := NSet.add tenant s.records.leased } }
  exact ⟨_, _, _, h, rfl⟩

theorem beginLease_eq (i slot : Nat) (s : State) : ∃ a, beginLease i slot s = journalEvent 0x081 0x30 0 a
    (tallyStart (getRegion s i).tenant (saveLease i (setRegion i (begunEntry slot (getRegion s i)) (dropHold i s)))) := ⟨_, rfl⟩

theorem Tallied.kept {s t : State} : Tallied s t → t.dram = s.dram ∧ t.keys = s.keys ∧ t.held = s.held := by
  rintro ⟨_, _, _, rfl, -⟩
  exact ⟨rfl, rfl, rfl⟩

theorem Events.kept {s t : State} : Events s t → t.dram = s.dram ∧ t.keys = s.keys ∧ t.held = s.held := by
  rintro ⟨_, _, _, _, _, rfl⟩
  exact ⟨rfl, rfl, rfl⟩

theorem beginLease_begins (i slot : Nat) (s : State) : LeaseBegun i slot s (beginLease i slot s) := by
  obtain ⟨a, heq⟩ := beginLease_eq i slot s
  have hdrop := (dropHold_load i s).toEntryWork
  have hsaved := saveLease_saved i (begunEntry slot (getRegion s i)) (dropHold i s)
  have hheld := (saveLease_work i (setRegion i (begunEntry slot (getRegion s i)) (dropHold i s))).held
  generalize saveLease i (setRegion i (begunEntry slot (getRegion s i)) (dropHold i s)) = u at heq hsaved hheld
  have htally := tallyStart_tallied (getRegion s i).tenant u
  generalize tallyStart (getRegion s i).tenant u = v at heq htally
  have hevent := journalEvent_events 0x081 0x30 0 a v
  rw [← heq] at hevent
  obtain ⟨hdram, hkeys, hheld'⟩ := htally.kept
  obtain ⟨hdram', hkeys', hheld''⟩ := hevent.kept
  have hentry : getRegion (beginLease i slot s) i = getRegion u i :=
    (hevent.work (i := i).entry i).trans (getRegion_congr htally.regions i)
  exact
    { entry := ((hdrop.trans hsaved.entry).trans htally.entry).trans hevent.work.toEntryWork
      shown := hentry.trans hsaved.shown
      keys := (hkeys'.trans hkeys).trans hsaved.keys
      kept := fun hm => ((hsaved.kept hm).of_dram (hdram'.trans hdram) (by rw [hentry])).of_home (u := dropHold i s) (s := s) rfl
      held := (isHeld_congr ((hheld''.trans hheld').trans hheld) i).trans (isHeld_dropHold i s) }

/-- The start of a lease is of its region alone, whatever comes of it. -/
theorem startLease_entry (i : Nat) (s : State) : EntryWork i s (startLease i s) := by
  unfold startLease
  split
  · exact .refl i s
  · split
    · exact (holdStart_load i true s).toEntryWork
    · split
      · exact (holdStart_load i false s).toEntryWork
      · next h => exact (drawKey_entry h).1.trans (beginLease_begins _ _ _).entry

theorem startStep_entry (m : Nat) (p : RegionRec) (s : State) : EntryWork p.index s (startStep m p s) := by
  unfold startStep
  dsimp only
  split
  · exact .refl _ s
  · split
    · split
      · exact (holdStart_load p.index true s).toEntryWork
      · exact .refl _ s
    · exact (loadEntry_load p.index s).toEntryWork.trans (startLease_entry p.index _)

/-- A region whose lease goes on, or whose erase is to begin, keeps its entry when leases start. -/
theorem startStep_keeps {m : Nat} {p : RegionRec} {s : State}
    (h : (getRegion s p.index).active = true ∨ (getRegion s p.index).erasePending = true) :
    getRegion (startStep m p s) p.index = getRegion s p.index := by
  unfold startStep
  dsimp only
  split
  · rfl
  · next ha =>
    rw [if_pos (h.resolve_left fun h => ha (by simp [h]))]
    split
    · rfl
    · rfl

theorem showNext_load (m i : Nat) (s : State) : LoadWork i s (showNext m i s) := by
  unfold showNext
  dsimp only
  split
  · exact loadEntry_load i s
  · exact .refl i s

theorem showNext_keeps {m i : Nat} {s : State} (h : (getRegion s i).active = true ∨ (getRegion s i).erasePending = true) :
    showNext m i s = s := by
  unfold showNext
  refine if_neg ?_
  rcases h with h | h
  · simp [h]
  · simp [h]

end Sys2Proof.Safety

namespace Sys2Proof.Safety
open Sys2Proof.Machine

/-! ### A boundary opens (R119, R126) -/

/-- The Tank's clock, the OTP and the open minute of the records are as they were: what every step of a boundary keeps. -/
structure PlansStep (s t : State) : Prop where
  tank : t.tank = s.tank
  otp : t.otp = s.otp
  openMinute : t.records.openMinute = s.records.openMinute

/-- As `PlansStep`, with the plans as they were. -/
structure RoundStep (s t : State) : Prop extends PlansStep s t where
  plans : t.plans = s.plans

theorem PlansStep.trans {a b c : State} (h : PlansStep a b) (h' : PlansStep b c) : PlansStep a c :=
  ⟨h'.tank.trans h.tank, h'.otp.trans h.otp, h'.openMinute.trans h.openMinute⟩

theorem RoundStep.refl (s : State) : RoundStep s s := ⟨⟨rfl, rfl, rfl⟩, rfl⟩

theorem RoundStep.trans {a b c : State} (h : RoundStep a b) (h' : RoundStep b c) : RoundStep a c :=
  ⟨h.toPlansStep.trans h'.toPlansStep, h'.plans.trans h.plans⟩

theorem EntryWork.round {i : Nat} {s t : State} (h : EntryWork i s t) : RoundStep s t :=
  ⟨⟨h.steady.tank, h.steady.otp, h.openMinute⟩, h.steady.plans⟩

theorem Events.round {s t : State} (h : Events s t) : RoundStep s t := (h.work (i := 0)).round

theorem forEach_round {α : Type} {f : α → State → State} (hf : ∀ x s, RoundStep s (f x s)) (l : List α) (s : State) :
    RoundStep s (forEach l f s) := forEach_relates .refl .trans hf l s

/-- Nothing but counters, waiting fault messages and what the records have gathered of the minutes differs. -/
def Gathered (s t : State) : Prop :=
  ∃ c h r, t = { s with ctr := c, churn := h, records := r } ∧ r.openMinute = s.records.openMinute ∧
    r.revokedLeases = s.records.revokedLeases ∧ r.laterRevokes = s.records.laterRevokes

theorem Gathered.refl (s : State) : Gathered s s := ⟨_, _, _, rfl, rfl, rfl, rfl⟩

theorem Gathered.trans {a b c : State} : Gathered a b → Gathered b c → Gathered a c := by
  rintro ⟨_, _, _, rfl, h1, h2, h3⟩ ⟨_, _, _, rfl, h1', h2', h3'⟩
  exact ⟨_, _, _, rfl, h1'.trans h1, h2'.trans h2, h3'.trans h3⟩

theorem tenantCount_gathered (tenant n add : Nat) (s : State) : Gathered s (tenantCount tenant n add s) := by
  obtain ⟨_, _, _, h⟩ := tenantCount_frame tenant n add s
  exact ⟨_, _, _, h, rfl, rfl, rfl⟩

theorem closeRun_gathered (s : State) : Gathered s (closeRun s) := by
  unfold closeRun
  dsimp only
  split
  · exact .refl s
  · exact ⟨_, _, _, rfl, rfl, rfl, rfl⟩

theorem countSlabs_gathered (c : Nat) (s : State) : Gathered s (countSlabs c s) := by
  refine forEach_relates .refl .trans (fun r t => ?_) _ s
  split
  · exact tenantCount_gathered _ _ _ t
  · exact .refl t

/-- The state in which the Round stands at minute m. -/
def atMinute (m : Nat) (s : State) : State := { s with tank := { s.tank with roundMinute := BitVec.ofNat 32 m } }

/-- The state of a boundary before a plan may be adopted: the minute that ends is accounted for, and the Round stands at the next. -/
def boundaryOpened (m : Nat) (s : State) : State :=
  swapBuffers (countSlabs (m - 1) { closeRun s with tank := { (closeRun s).tank with roundMinute := BitVec.ofNat 32 m } })

theorem boundaryOpened_gathered (m : Nat) (s : State) :
    Gathered (atMinute m s) (boundaryOpened m s) := by
  have hswap (u : State) : Gathered u (swapBuffers u) := ⟨_, _, _, rfl, rfl, rfl, rfl⟩
  have hclose : Gathered (atMinute m s)
      { closeRun s with tank := { (closeRun s).tank with roundMinute := BitVec.ofNat 32 m } } := by
    obtain ⟨_, _, _, h, h1, h2, h3⟩ := closeRun_gathered s
    rw [h]
    exact ⟨_, _, _, rfl, h1, h2, h3⟩
  exact (hclose.trans (countSlabs_gathered _ _)).trans (hswap _)

/-- What conditions on a plan look at is not what the records gather. -/
theorem Gathered.compat_eq {s t : State} (h : Gathered s t) (p : Plan) (m : Nat) : compat t p m false = compat s p m false := by
  obtain ⟨c, x, r, rfl, -, hrevoked, hlater⟩ := h
  have hended : revokedBy { s with ctr := c, churn := x, records := r } = revokedBy s := by
    funext i m' l
    unfold revokedBy endedByRevoke
    rw [hrevoked, hlater]
    rfl
  have hprogress : inProgress { s with ctr := c, churn := x, records := r } = inProgress s := by
    funext i m' l
    unfold inProgress
    rw [hended]
  have hkeeps (new : Plan) (m' : Nat) : keepsLeases { s with ctr := c, churn := x, records := r } new m' false = keepsLeases s new m' false := by
    funext q
    unfold keepsLeases
    rw [hprogress]
    rfl
  have hstarts (old : Plan) (m' : Nat) : startsLater { s with ctr := c, churn := x, records := r } old m' false = startsLater s old m' false := by
    funext q
    unfold startsLater
    rw [hprogress, hended]
    rfl
  unfold compat
  simp only [hkeeps, hstarts]

end Sys2Proof.Safety

namespace Sys2Proof.Safety
open Sys2Proof.Machine

/-! ### A plan is adopted at its minute (R283) -/

theorem setQp_round (n : BitVec 24) (v : Qp) (s : State) : RoundStep s (setQp n v s) := ⟨⟨rfl, rfl, rfl⟩, rfl⟩

theorem enterError_round (n : BitVec 24) (keep : Nat) (s : State) : RoundStep s (enterError n keep s) := by
  have hdrop : RoundStep s (dropOps n keep s) := ⟨⟨rfl, rfl, rfl⟩, rfl⟩
  have herror (u : State) : RoundStep u (errorQp n u) := by
    unfold errorQp
    dsimp only
    split
    · exact .refl u
    · exact (setQp_round _ _ u).trans ((tenantCount_tallied _ _ _ _).entry (i := 0)).round
  unfold enterError
  dsimp only
  split
  · exact hdrop
  · exact hdrop.trans (herror _)

theorem adoptQp_round (p : Plan) (qpn : Nat) (s : State) : RoundStep s (adoptQp p qpn s) := by
  unfold adoptQp
  dsimp only
  split
  · exact setQp_round _ _ s
  · split
    · exact (enterError_round _ _ s).trans (setQp_round _ _ _)
    · exact .refl s

theorem setCls_round (ch c : Nat) (v : ClsCh) (s : State) : RoundStep s (setCls ch c v s) := ⟨⟨rfl, rfl, rfl⟩, rfl⟩

theorem adoptClasses_round (old : Option Plan) (s : State) : RoundStep s (adoptClasses old s) := by
  unfold adoptClasses
  generalize upTo 64 = chs, upTo 16 = cs
  refine forEach_round (fun ch t => forEach_round (fun c u => ?_) cs t) chs s
  split
  · exact setCls_round _ _ _ u
  · exact setCls_round _ _ _ u

theorem setParlour_round (ch : Nat) (v : Parlour) (s : State) : RoundStep s (setParlour ch v s) := ⟨⟨rfl, rfl, rfl⟩, rfl⟩

theorem dueCalendars_round (s : State) : RoundStep s (dueCalendars s) := by
  unfold dueCalendars
  generalize upTo 64 = chs
  exact forEach_round (fun ch t => setParlour_round ch _ t) chs s

theorem adoptRegion_load (i : Nat) (s : State) : LoadWork i s (adoptRegion i s) := by
  unfold adoptRegion
  dsimp only
  split
  · exact .refl i s
  · split
    · exact setRegion_load i _ s
    · split
      · exact (setRegion_load i _ s).trans (keepRecord_work i _).toLoadWork
      · exact setRegion_load i _ s

/-- The plans' record with a new plan in force, and its rewrite of the region table to come. -/
def planAdopted (k : Bank) (p : Plan) (x : Plans) : Plans :=
  { x with plan := some p, inForce := some k, prepared := false, preparing := none, buffer := none, rewritePending := true, reloadFailed := [] }

/-- What of the state a new plan takes over, but for the banks' headers: QPs, classes, calendars and entries. -/
def takeOver (k : Bank) (p : Plan) (m : Nat) (s0 : State) : State :=
  let s := keepRevokes s0
  let s1 := { s with plans := planAdopted k p s.plans }
  let s2 := forEach (s1.qps.map (fun e => e.1)) (adoptQp p) s1
  let s3 := dueCalendars (adoptClasses s.plans.plan s2)
  let s4 := forEach (s3.regions.map (fun e => e.1)) adoptRegion s3
  forEach (p.regions.filter (startsAt m)) (fun r t => rewriteEntry r.index t) s4

/-- The other bank is no longer the one in force. -/
def retireOther (k : Bank) (s : State) : State := if (getBS s (otherBank k)).state = 5 then setBS (otherBank k) 6 0 0 s else s

theorem adoptPlan_eq (k : Bank) (p : Plan) (m : Nat) (s : State) :
    ∃ a, adoptPlan k p m s = journalEvent 0x081 0x23 0 a (setLast 0 (setBS k 5 0 0 (retireOther k (takeOver k p m s)))) := ⟨_, rfl⟩

theorem takeOver_takes (k : Bank) (p : Plan) (m : Nat) (s : State) :
    PlansStep s (takeOver k p m s) ∧ (takeOver k p m s).plans = planAdopted k p s.plans := by
  have h1 : PlansStep s { keepRevokes s with plans := planAdopted k p (keepRevokes s).plans } := ⟨rfl, rfl, rfl⟩
  have hrest (u : State) (l1 : State → List Nat) (l2 : State → List Nat) (old : Option Plan) : RoundStep u
      (forEach (p.regions.filter (startsAt m)) (fun r t => rewriteEntry r.index t)
        (forEach (l2 (dueCalendars (adoptClasses old (forEach (l1 u) (adoptQp p) u)))) adoptRegion
          (dueCalendars (adoptClasses old (forEach (l1 u) (adoptQp p) u))))) :=
    ((((forEach_round (adoptQp_round p) _ u).trans (adoptClasses_round _ _)).trans (dueCalendars_round _)).trans
      (forEach_round (fun i t => (adoptRegion_load i t).round) _ _)).trans
      (forEach_round (fun (r : RegionRec) t => (rewriteEntry_load r.index t).round) _ _)
  have h := hrest { keepRevokes s with plans := planAdopted k p (keepRevokes s).plans } (fun u => u.qps.map (fun e => e.1))
    (fun u => u.regions.map (fun e => e.1)) (keepRevokes s).plans.plan
  exact ⟨h1.trans h.toPlansStep, h.plans⟩

/-- This plan of this bank is in force, and the region table is to be rewritten from it. -/
structure Adopted (k : Bank) (p : Plan) (t : State) : Prop where
  plan : t.plans.plan = some p
  inForce : t.plans.inForce = some k
  state : (getBS t k).state = 5
  rewritePending : t.plans.rewritePending = true
  prepared : t.plans.prepared = false

theorem Adopted.of_plans {k : Bank} {p : Plan} {s t : State} (h : Adopted k p s) (ht : t.plans = s.plans) : Adopted k p t :=
  ⟨by rw [ht]; exact h.plan, by rw [ht]; exact h.inForce, by rw [getBS_congr ht]; exact h.state, by rw [ht]; exact h.rewritePending,
    by rw [ht]; exact h.prepared⟩

/-- The plan in force, its bank and what is to be done for it stand, whatever the banks' headers say. -/
structure PlanStands (s t : State) : Prop extends PlansStep s t where
  plan : t.plans.plan = s.plans.plan
  inForce : t.plans.inForce = s.plans.inForce
  rewritePending : t.plans.rewritePending = s.plans.rewritePending
  prepared : t.plans.prepared = s.plans.prepared

theorem PlanStands.trans {a b c : State} (h : PlanStands a b) (h' : PlanStands b c) : PlanStands a c :=
  ⟨h.toPlansStep.trans h'.toPlansStep, h'.plan.trans h.plan, h'.inForce.trans h.inForce, h'.rewritePending.trans h.rewritePending,
    h'.prepared.trans h.prepared⟩

theorem setBS_stands (k : Bank) (st r d : Nat) (s : State) : PlanStands s (setBS k st r d s) := by
  cases k <;> exact ⟨⟨rfl, rfl, rfl⟩, rfl, rfl, rfl, rfl⟩

theorem retireOther_stands (k : Bank) (s : State) : PlanStands s (retireOther k s) := by
  unfold retireOther
  split
  · exact setBS_stands _ _ _ _ s
  · exact ⟨⟨rfl, rfl, rfl⟩, rfl, rfl, rfl, rfl⟩

theorem setLast_stands (r : Nat) (s : State) : PlanStands s (setLast r s) := ⟨⟨rfl, rfl, rfl⟩, rfl, rfl, rfl, rfl⟩

theorem getBS_setLast (r : Nat) (s : State) (k : Bank) : getBS (setLast r s) k = getBS s k := by cases k <;> rfl

theorem adoptPlan_adopts (k : Bank) (p : Plan) (m : Nat) (s : State) : PlansStep s (adoptPlan k p m s) ∧ Adopted k p (adoptPlan k p m s) := by
  obtain ⟨a, heq⟩ := adoptPlan_eq k p m s
  obtain ⟨hstep, hplans⟩ := takeOver_takes k p m s
  generalize takeOver k p m s = u at heq hstep hplans
  have hstate := (getBS_setBS_same k 5 0 0 (retireOther k u)).1
  have hstands := ((retireOther_stands k u).trans (setBS_stands k 5 0 0 _)).trans (setLast_stands 0 _)
  rw [← getBS_setLast 0] at hstate
  generalize setLast 0 (setBS k 5 0 0 (retireOther k u)) = v at heq hstate hstands
  have hevent := (journalEvent_events 0x081 0x23 0 a v).round
  rw [← heq] at hevent
  refine ⟨(hstep.trans hstands.toPlansStep).trans hevent.toPlansStep, Adopted.of_plans (s := v) ?_ hevent.plans⟩
  exact ⟨by rw [hstands.plan, hplans]; rfl, by rw [hstands.inForce, hplans]; rfl, hstate, by rw [hstands.rewritePending, hplans]; rfl,
    by rw [hstands.prepared, hplans]; rfl⟩

/-! A bank is refused at its minute, and one that was never pending leaves all as it is. -/

theorem refuseBank_step (k : Bank) (place reason det : Nat) (s : State) : PlansStep s (refuseBank k place reason det s) := by
  have hset : PlansStep s (setBS k 7 reason det (programArm k 0 s)) :=
    PlansStep.trans (b := programArm k 0 s) ⟨rfl, rfl, rfl⟩ (setBS_stands _ _ _ _ _).toPlansStep
  have hdrop (b : Bool) (u : State) : PlansStep u (setLast reason (if b then dropPreparation u else u)) := by
    cases b <;> exact ⟨rfl, rfl, rfl⟩
  exact (hset.trans (hdrop _ _)).trans (journalEvent_events _ _ _ _ _).round.toPlansStep

theorem Messages.step {s t : State} (h : Messages s t) : PlansStep s t := h.events.round.toPlansStep

theorem prepareBank_step (k : Bank) (s : State) : PlansStep s (prepareBank k s) := by
  have hfree : PlansStep s (drawn s) := ⟨rfl, rfl, rfl⟩
  have hraise (u : State) : PlansStep u (raiseOwn 1 0x080 0x30 (bankCode k + 1) u) := (pushMsg_messages _ u).step
  unfold prepareBank
  split
  · exact (hfree.trans (hraise _)).trans (refuseBank_step _ _ _ _ _)
  · split
    · exact (raise_messages _ _ _ _).step.trans (refuseBank_step _ _ _ _ _)
    · split
      · exact (raise_messages _ _ _ _).step.trans (refuseBank_step _ _ _ _ _)
      · exact ⟨rfl, rfl, rfl⟩

theorem adoptAtBoundary_step (m : Nat) (s : State) : PlansStep s (adoptAtBoundary m s) := by
  have hsame : PlansStep s s := ⟨rfl, rfl, rfl⟩
  have hprep (b : Bool) (k : Bank) : PlansStep s (if b then s else prepareBank k s) := by
    cases b
    · exact prepareBank_step k s
    · exact hsame
  unfold adoptAtBoundary
  dsimp only
  split
  · exact hsame
  · split
    · exact hsame
    · split
      · exact hprep _ _
      · split
        · exact (hprep _ _).trans ((raise_messages _ _ _ _).step.trans (refuseBank_step _ _ _ _ _))
        · split
          · exact (hprep _ _).trans ((raise_messages _ _ _ _).step.trans (refuseBank_step _ _ _ _ _))
          · exact (hprep _ _).trans (adoptPlan_adopts _ _ _ _).1

theorem adoptAtBoundary_none {m : Nat} {s : State} (h : pendingBank s = none) : adoptAtBoundary m s = s := by
  unfold adoptAtBoundary
  rw [h]

/-- A prepared bank whose minute it is, and whose plan still passes, is adopted. -/
theorem adoptAtBoundary_adopts {m : Nat} {s : State} {k : Bank} {p : Plan} (hk : pendingBank s = some k) (hm : (getBS s k).adoptAt.toNat = m)
    (hprep : s.plans.prepared = true) (hp : s.plans.buffer = some p) (hc : compat s p m false = none) (ha : admission p s.retired = none) :
    adoptAtBoundary m s = adoptPlan k p m s := by
  unfold adoptAtBoundary
  rw [hk]
  dsimp only
  rw [if_neg (not_not.mpr hm), hprep, if_pos rfl, hp]
  dsimp only
  rw [if_pos rfl, hc]
  dsimp only
  rw [if_pos rfl, ha]

end Sys2Proof.Safety

namespace Sys2Proof.Safety
open Sys2Proof.Machine

/-! ### Leases end, go on and start at a boundary (R119 to R121) -/

/-- A loop whose step on `i` turns what the others keep into what all keep. -/
theorem forEach_turns {f : Nat → State → State} {A B : State → Prop} {i : Nat} (hown : ∀ s, A s → B (f i s))
    (hother : ∀ j, j ≠ i → ∀ s, A s → A (f j s)) (hkeep : ∀ j s, B s → B (f j s)) {l : List Nat} (hi : i ∈ l) {s : State} (h : A s) :
    B (forEach l f s) := by
  induction l generalizing s with
  | nil => cases hi
  | cons j l ih =>
    by_cases hj : j = i
    · subst hj
      exact forEach_keeps (P := B) (f := f) (l := l) hkeep (hown s h)
    · exact ih ((List.mem_cons.mp hi).resolve_left (Ne.symm hj)) (hother j hj s h)

/-- What a region's own steps keep of its entry is kept by a loop over regions. -/
theorem forEach_keeps_entry {α : Type} {f : α → State → State} {ix : α → Nat} {P : Region → Prop} {i : Nat}
    (hw : ∀ x s, EntryWork (ix x) s (f x s)) (hown : ∀ x s, ix x = i → P (getRegion s i) → P (getRegion (f x s) i)) (l : List α) {s : State}
    (h : P (getRegion s i)) : P (getRegion (forEach l f s) i) := by
  refine forEach_keeps (P := fun t => P (getRegion t i)) (fun x t ht => ?_) h
  by_cases hx : ix x = i
  · exact hown x t hx ht
  · rw [(hw x t).others i (Ne.symm hx)]
    exact ht

/-- Steps 3 to 6 of a boundary. -/
def boundaryLeases (m : Nat) (s2 : State) : State :=
  let s3 := lapseRevokes m (forEach (regionIds s2) (endStep m) s2)
  let s4 := forEach (regionIds s3) (continueStep m) s3
  let s5 := forEach (planOf s4).regions (startStep m) s4
  noteActive (pruneHeld m (forEach (regionIds s5) (showNext m) s5))

theorem boundary_eq (m : Nat) (s : State) :
    boundary m s = beginPreparation m (boundaryLeases m (adoptAtBoundary m (boundaryOpened m s))) := rfl

theorem lapseRevoke_tallied (id : Nat) (s : State) : Tallied s (lapseRevoke id s) := by
  unfold lapseRevoke
  split
  · obtain ⟨_, h⟩ := dropChain_frame _ _ s
    exact ⟨_, _, _, h, rfl⟩
  · exact ⟨_, _, _, rfl, rfl⟩

theorem Tallied.refl (s : State) : Tallied s s := ⟨_, _, _, rfl, rfl⟩

theorem Tallied.trans {a b c : State} : Tallied a b → Tallied b c → Tallied a c := by
  rintro ⟨_, _, _, rfl, h⟩ ⟨_, _, _, rfl, h'⟩
  exact ⟨_, _, _, rfl, h'.trans h⟩

theorem lapseRevokes_tallied (m : Nat) (s : State) : Tallied s (lapseRevokes m s) := by
  have hlapse (l : List (Nat × Nat)) : Tallied s (forEach l (fun e t => lapseRevoke e.1 t) s) :=
    forEach_relates .refl .trans (fun e t => lapseRevoke_tallied e.1 t) l s
  exact (hlapse _).trans ⟨_, _, _, rfl, rfl⟩

/-- Without a revoke due at the minute none lapses. -/
theorem lapseRevokes_none {m : Nat} {s : State} (h : ∀ e ∈ s.records.laterRevokes, e.2 ≠ m) : lapseRevokes m s = s := by
  have hdue : s.records.laterRevokes.filter (fun e => e.2 = m) = [] := by simpa using h
  have hleft : s.records.laterRevokes.filter (fun e => e.2 ≠ m) = s.records.laterRevokes := by simpa using h
  unfold lapseRevokes
  rw [hdue]
  show { s with records := { s.records with laterRevokes := s.records.laterRevokes.filter (fun e => e.2 ≠ m) } } = s
  rw [hleft]

theorem noted_round (m : Nat) (s : State) : RoundStep s (noteActive (pruneHeld m s)) := ⟨⟨rfl, rfl, rfl⟩, rfl⟩

theorem boundaryLeases_round (m : Nat) (s : State) : RoundStep s (boundaryLeases m s) :=
  (((((forEach_round (fun i t => (endStep_entry m i t).round) _ s).trans ((lapseRevokes_tallied m _).entry (i := 0)).round).trans
    (forEach_round (fun i t => (continueStep_load m i t).round) _ _)).trans (forEach_round (fun p t => (startStep_entry m p t).round) _ _)).trans
    (forEach_round (fun i t => (showNext_load m i t).round) _ _)).trans (noted_round m _)

theorem mem_regionIds {i : Nat} {s : State} (h : (getRegion s i).active = true) : i ∈ regionIds s := by
  by_contra hn
  rw [show getRegion s i = Region.zero from Map.get_of_not_mem _ hn] at h
  cases h

/-- What stands of an entry once no lease of it may start or be shown stays to the end of the boundary. -/
theorem startsAndShown_keep {P : Region → Prop} (hP : ∀ r, P r → r.active = true ∨ r.erasePending = true) {m i : Nat} {s : State}
    (l : List RegionRec) (ids : State → List Nat) (h : P (getRegion s i)) :
    P (getRegion (noteActive (pruneHeld m (forEach (ids (forEach l (startStep m) s)) (showNext m) (forEach l (startStep m) s)))) i) := by
  have hstart : P (getRegion (forEach l (startStep m) s) i) := by
    refine forEach_keeps_entry (ix := fun p => p.index) (startStep_entry m) (fun p t hp ht => ?_) l h
    subst hp
    rw [startStep_keeps (hP _ ht)]
    exact ht
  refine forEach_keeps_entry (f := showNext m) (ix := fun j => j) (fun j t => (showNext_load m j t).toEntryWork) (fun j t hj ht => ?_) _ hstart
  subst hj
  rw [showNext_keeps (hP _ ht)]
  exact ht

/-- A lease that is over, and has no follow-on, has ended after the boundary of its end. -/
theorem boundaryLeases_ends {m i : Nat} {s : State} (ha : (getRegion s i).active = true) (he : (getRegion s i).leaseEnd.toNat = m)
    (hf : (getRegion s i).foId = 0) : Ended m (getRegion (boundaryLeases m s) i) := by
  have hend : Ended m (getRegion (forEach (regionIds s) (endStep m) s) i) := by
    refine forEach_turns (f := endStep m) (A := fun t => getRegion t i = getRegion s i) (B := fun t => Ended m (getRegion t i))
      (fun t ht => ?_) (fun j hj t ht => ((endStep_entry m j t).others i (Ne.symm hj)).trans ht) (fun j t ht => ?_) (mem_regionIds ha) rfl
    · exact endStep_ends (by rw [ht]; exact ha) (by rw [ht]; exact he) (by rw [ht]; exact hf)
    · by_cases hj : j = i
      · subst hj
        exact endStep_ended ht
      · rw [(endStep_entry m j t).others i (Ne.symm hj)]
        exact ht
  rw [← getRegion_congr (lapseRevokes_tallied m _).regions] at hend
  have hcontinue (l : List Nat) : Ended m (getRegion (forEach l (continueStep m) (lapseRevokes m (forEach (regionIds s) (endStep m) s))) i) := by
    refine forEach_keeps_entry (ix := fun j => j) (fun j t => (continueStep_load m j t).toEntryWork) (fun j t hj ht => ?_) l hend
    subst hj
    rw [continueStep_idle (.inl ht.1)]
    exact ht
  exact startsAndShown_keep (P := Ended m) (fun r hr => .inr hr.2.1) _ regionIds (hcontinue _)

/-- The lease of an entry goes on as this one, with its generation and key. -/
structure GoesOn (l : Lease) (r0 r : Region) : Prop where
  active : r.active = true
  leaseId : r.leaseId = l.id
  leaseEnd : r.leaseEnd = l.stop
  gen : r.gen = r0.gen
  curSlot : r.curSlot = r0.curSlot

/-- No revoke is due at minute m, and what leases rest on is as it was. -/
structure NoRevoke (m : Nat) (s t : State) : Prop where
  none : ∀ j, (getRegion t j).revokeMinute.toNat ≠ m
  plans : t.plans = s.plans
  revokedLeases : t.records.revokedLeases = s.records.revokedLeases
  laterRevokes : t.records.laterRevokes = s.records.laterRevokes

/-- Without a revoke due, the step of a region ends its lease where it is over, and leaves the revokes as they are. -/
theorem endStep_noRevoke {m j : Nat} {s t : State} (h : NoRevoke m s t) : NoRevoke m s (endStep m j t) := by
  rw [endStep_eq, revokeStep_none fun hr => h.none j hr.2.1]
  split
  · obtain ⟨c, l, x, hend⟩ := endLease_ends (i := j) (m := m) (cause := 0) (by decide) t
    rw [hend]
    refine ⟨fun k => ?_, h.plans, h.revokedLeases, h.laterRevokes⟩
    by_cases hk : k = j
    · subst hk
      rw [getRegion_set_same]
      exact h.none k
    · rw [getRegion_set_other _ hk]
      exact h.none k
  · exact h

theorem boundaryLeases_goesOn {m i : Nat} {s : State} {p : RegionRec} {l : Lease} (ha : (getRegion s i).active = true)
    (he : (getRegion s i).leaseEnd.toNat = m) (hf : (getRegion s i).foId ≠ 0) (hr : ∀ j, (getRegion s j).revokeMinute.toNat ≠ m)
    (hlater : ∀ e ∈ s.records.laterRevokes, e.2 ≠ m) (hp : regionRec s i = some p)
    (hl : (openLeases s p).find? (fun x => x.id = (getRegion s i).foId) = some l) (hstop : l.stop.toNat ≠ m) :
    GoesOn l (getRegion s i) (getRegion (boundaryLeases m s) i) := by
  obtain ⟨hkept, hnone⟩ : getRegion (forEach (regionIds s) (endStep m) s) i = getRegion s i ∧
      NoRevoke m s (forEach (regionIds s) (endStep m) s) := by
    refine forEach_keeps (P := fun t => getRegion t i = getRegion s i ∧ NoRevoke m s t) (fun j t ht => ?_) ⟨rfl, hr, rfl, rfl, rfl⟩
    obtain ⟨hi, hn⟩ := ht
    refine ⟨?_, endStep_noRevoke hn⟩
    by_cases hj : j = i
    · subst hj
      rw [endStep_idle (fun hrev => hn.none j hrev.2.1) (by rw [hi]; exact hf), hi]
    · exact ((endStep_entry m j t).others i (Ne.symm hj)).trans hi
  have hlapse := lapseRevokes_none (m := m) (s := forEach (regionIds s) (endStep m) s) (by rw [hnone.laterRevokes]; exact hlater)
  have hcontinue : GoesOn l (getRegion s i) (getRegion (forEach (regionIds (forEach (regionIds s) (endStep m) s)) (continueStep m)
      (forEach (regionIds s) (endStep m) s)) i) := by
    generalize forEach (regionIds s) (endStep m) s = u at hkept hnone
    refine forEach_turns (f := continueStep m)
      (A := fun t => getRegion t i = getRegion s i ∧ t.plans = s.plans ∧ t.records.revokedLeases = s.records.revokedLeases)
      (B := fun t => GoesOn l (getRegion s i) (getRegion t i)) (fun t ht => ?_) (fun j hj t ht => ?_) (fun j t ht => ?_)
      (mem_regionIds (by rw [hkept]; exact ha)) ⟨hkept, hnone.plans, hnone.revokedLeases⟩
    · obtain ⟨hi, hplans, hrevoked⟩ := ht
      have hrec : regionRec t i = some p := by
        unfold regionRec planOf at hp ⊢
        rw [hplans]
        exact hp
      have hopen : openLeases t p = openLeases s p := by
        unfold openLeases
        rw [hrevoked]
      rw [continueStep_continues (p := p) (l := l) (by rw [hi]; exact ha) (by rw [hi]; exact he) (by rw [hi]; exact hf) hrec
        (by rw [hopen, hi]; exact hl), hi]
      exact ⟨ha, rfl, rfl, rfl, rfl⟩
    · obtain ⟨hi, hplans, hrevoked⟩ := ht
      have hw := continueStep_load m j t
      exact ⟨(hw.others i (Ne.symm hj)).trans hi, hw.steady.plans.trans hplans, by rw [hw.records]; exact hrevoked⟩
    · by_cases hj : j = i
      · subst hj
        rw [continueStep_idle (.inr (by rw [ht.leaseEnd]; exact hstop))]
        exact ht
      · rw [(continueStep_load m j t).others i (Ne.symm hj)]
        exact ht
  unfold boundaryLeases
  dsimp only
  rw [hlapse]
  exact startsAndShown_keep (P := GoesOn l (getRegion s i)) (fun r hr => .inl hr.active) _ regionIds hcontinue

end Sys2Proof.Safety

namespace Sys2Proof.Safety
open Sys2Proof.Machine

/-! ### The minute is closed (R126 to R129) -/

/-- As `Tended`, with other records. -/
def Filed (s t : State) : Prop := ∃ r, Tended { s with records := r } t

theorem Tended.filed {s t : State} (h : Tended s t) : Filed s t := ⟨s.records, h⟩

theorem Filed.refl (s : State) : Filed s s := (Tended.refl s).filed

theorem Filed.trans {a b c : State} : Filed a b → Filed b c → Filed a c := by
  rintro ⟨_, _, _, _, _, _, _, _, _, _, _, rfl⟩ ⟨r, _, _, _, _, _, _, _, _, _, _, rfl⟩
  exact ⟨r, _, _, _, _, _, _, _, _, _, _, rfl⟩

theorem Filed.steady {s t : State} : Filed s t → Steady s t := by
  rintro ⟨_, _, _, _, _, _, _, _, _, _, _, rfl⟩
  exact ⟨rfl, rfl, rfl⟩

theorem Filed.regions {s t : State} : Filed s t → t.regions = s.regions := by
  rintro ⟨_, _, _, _, _, _, _, _, _, _, _, rfl⟩
  rfl

theorem Tended.records {s t : State} : Tended s t → t.records = s.records := by
  rintro ⟨_, _, _, _, _, _, _, _, _, _, rfl⟩
  rfl

theorem Tended.keys {s t : State} : Tended s t → t.keys = s.keys := by
  rintro ⟨_, _, _, _, _, _, _, _, _, _, rfl⟩
  rfl

theorem Events.tended {s t : State} : Events s t → Tended s t := by
  rintro ⟨_, _, _, _, _, rfl⟩
  exact ⟨_, _, _, _, _, _, _, _, _, _, rfl⟩

theorem putRecord_filed (minute tenant span : Nat) (stepped ended : Bool) (v : Nat → Nat) (s : State) :
    Filed s (putRecord minute tenant span stepped ended v s) := by
  have hrecord (u : State) (r : Records) : Filed u { u with records := r } := ⟨r, .refl _⟩
  exact ((writeSystem_tended _ _ _ s).trans (systemBursts_reports _ _ _).tended).filed.trans (hrecord _ _)

theorem forEach_filed {α : Type} {f : α → State → State} (hf : ∀ x s, Filed s (f x s)) (l : List α) (s : State) : Filed s (forEach l f s) :=
  forEach_relates .refl .trans hf l s

/-- The records of the minutes since the last one closed are written, and the minute that the Round stands at is open. -/
theorem writeRecords_writes (s : State) : Filed s (writeRecords s) ∧ (writeRecords s).records.openMinute = s.tank.roundMinute.toNat ∧
    (writeRecords s).records.lastMinute = BitVec.ofNat 32 (s.tank.roundMinute.toNat - 1) := by
  have hstep (b : Bool) (a : List Byte) : Filed s (if b then journalEvent 0x081 0x33 0 a s else s) := by
    cases b
    · exact .refl s
    · exact (journalEvent_events _ _ _ _ s).tended.filed
  have hrun (r : RecordRun) (u : State) : Filed u (writeRun r u) := forEach_filed (fun _ t => putRecord_filed _ _ _ _ _ _ t) _ u
  have hlast (u : State) (r : Records) : Filed u { u with records := r } := ⟨r, .refl _⟩
  exact ⟨(((hstep _ _).trans (forEach_filed hrun _ _)).trans (forEach_filed (fun _ t => putRecord_filed _ _ _ _ _ _ t) _ _)).trans (hlast _ _),
    rfl, rfl⟩

/-! ### One boundary (R119) -/

theorem beginPreparation_frame (m : Nat) (s : State) : ∃ x, beginPreparation m s = { s with plans := { s.plans with preparing := x } } := by
  unfold beginPreparation
  split
  · exact ⟨_, rfl⟩
  · split
    · exact ⟨_, rfl⟩
    · exact ⟨_, rfl⟩

theorem beginPreparation_step (m : Nat) (s : State) : PlansStep s (beginPreparation m s) ∧ (beginPreparation m s).regions = s.regions := by
  obtain ⟨_, h⟩ := beginPreparation_frame m s
  rw [h]
  exact ⟨⟨rfl, rfl, rfl⟩, rfl⟩

theorem Gathered.step {s t : State} : Gathered s t → PlansStep s t := by
  rintro ⟨_, _, _, rfl, h, -, -⟩
  exact ⟨rfl, rfl, h⟩

theorem boundary_step (m : Nat) (s : State) : PlansStep (atMinute m s) (boundary m s) := by
  have hopen := (boundaryOpened_gathered m s).step
  rw [boundary_eq]
  generalize boundaryOpened m s = u at hopen
  exact ((hopen.trans (adoptAtBoundary_step m u)).trans (boundaryLeases_round m _).toPlansStep).trans (beginPreparation_step m _).1

theorem pendingBank_congr {s t : State} (h : t.plans = s.plans) : pendingBank t = pendingBank s := by
  unfold pendingBank
  rw [h]

theorem compat_atMinute (m m' : Nat) (b : Bool) (p : Plan) (s : State) : compat (atMinute m s) p m' b = compat s p m' b := rfl

theorem boundaryOpened_kept (m : Nat) (s : State) : (boundaryOpened m s).plans = s.plans ∧ (boundaryOpened m s).retired = s.retired ∧
    (boundaryOpened m s).regions = s.regions ∧ (boundaryOpened m s).records.revokedLeases = s.records.revokedLeases ∧
    (boundaryOpened m s).records.laterRevokes = s.records.laterRevokes := by
  obtain ⟨_, _, _, h, -, hrevoked, hlater⟩ := boundaryOpened_gathered m s
  rw [h]
  exact ⟨rfl, rfl, rfl, hrevoked, hlater⟩

theorem Adopted.preparing {k : Bank} {p : Plan} {s : State} (h : Adopted k p s) (m : Nat) : Adopted k p (beginPreparation m s) := by
  obtain ⟨x, hx⟩ := beginPreparation_frame m s
  have hbank : getBS (beginPreparation m s) k = getBS s k := by
    rw [hx]
    cases k <;> rfl
  refine ⟨?_, ?_, by rw [hbank]; exact h.state, ?_, ?_⟩
  all_goals rw [hx]
  · exact h.plan
  · exact h.inForce
  · exact h.rewritePending
  · exact h.prepared

theorem boundary_adopts {m : Nat} {s : State} {k : Bank} {p : Plan} (hk : pendingBank s = some k) (hm : (getBS s k).adoptAt.toNat = m)
    (hprep : s.plans.prepared = true) (hp : s.plans.buffer = some p) (hc : compat s p m false = none) (ha : admission p s.retired = none) :
    Adopted k p (boundary m s) := by
  obtain ⟨hplans, hretired, -⟩ := boundaryOpened_kept m s
  have hcompat := (boundaryOpened_gathered m s).compat_eq p m
  rw [compat_atMinute, hc] at hcompat
  rw [boundary_eq]
  generalize boundaryOpened m s = u at hplans hretired hcompat
  rw [adoptAtBoundary_adopts (k := k) (p := p) ((pendingBank_congr hplans).trans hk) (by rw [getBS_congr hplans]; exact hm)
    (by rw [hplans]; exact hprep) (by rw [hplans]; exact hp) hcompat (by rw [hretired]; exact ha)]
  exact ((adoptPlan_adopts k p m u).2.of_plans (boundaryLeases_round m _).plans).preparing m

/-- Without a pending bank the entries after a boundary are those that its leases leave. -/
theorem boundary_entry {m : Nat} {s : State} (h : pendingBank s = none) (i : Nat) :
    getRegion (boundary m s) i = getRegion (boundaryLeases m (boundaryOpened m s)) i := by
  have hnone : pendingBank (boundaryOpened m s) = none := (pendingBank_congr (boundaryOpened_kept m s).1).trans h
  rw [boundary_eq, adoptAtBoundary_none hnone]
  exact getRegion_congr (beginPreparation_step m _).2 i

/-- One minute passes while the Round runs: its boundary, and the records of the minute. -/
theorem settleRound_once {m : Nat} {s : State} (hm : s.tank.minute.toNat = m) (hr : s.tank.roundMinute.toNat + 1 = m)
    (hrun : roundRuns s = true) (hheld : boundariesHeld s = false) (hopen : s.records.openMinute < m) :
    settleRound s = writeRecords (boundary m s) := by
  have hstep := boundary_step m s
  have hm32 : m < 2 ^ 32 := hm ▸ s.tank.minute.isLt
  have htank : (boundary m s).tank = { s.tank with roundMinute := BitVec.ofNat 32 m } := hstep.tank
  have hone : runBoundaries 1 s = boundary m s := by
    unfold runBoundaries
    rw [hheld, if_neg (by simp; omega), hr]
    rfl
  unfold settleRound settleBoundaries
  rw [if_pos hrun, show s.tank.minute.toNat - s.tank.roundMinute.toNat = 1 by omega, hone]
  dsimp only
  rw [if_pos]
  rw [htank, hstep.openMinute]
  refine ⟨BitVec.eq_of_toNat_eq ?_, ?_⟩
  · rw [BitVec.toNat_ofNat, hm, Nat.mod_eq_of_lt hm32]
  · show s.records.openMinute < (BitVec.ofNat 32 m).toNat
    rw [BitVec.toNat_ofNat, Nat.mod_eq_of_lt hm32]
    exact hopen

end Sys2Proof.Safety

namespace Sys2Proof.Safety
open Sys2Proof.Machine

/-! ### MINUTE_BOUNDARY (R118, R119) -/

/-- The state in which the minute has risen. -/
def minutePassed (s : State) : State := { s with tank := { s.tank with minute := s.tank.minute + 1, usec := 0 } }

theorem minuteBoundary_passes {s : State} (hp : s.pins.porN = true) (ha : s.tank.anchored = true) (hh : s.tank.holdUs = 0) :
    exec .minuteBoundary s = .next (copyCeLog (abortForLeases (settleRound (minutePassed s)))) := by
  show execMinuteBoundary s = _
  unfold execMinuteBoundary
  rw [if_neg (by simp [hp, ha, hh])]
  rfl

theorem settleRound_otp (s : State) : (settleRound s).otp = s.otp := by
  have hrun (n : Nat) (u : State) : (runBoundaries n u).otp = u.otp := by
    induction n generalizing u with
    | zero => rfl
    | succ n ih =>
      unfold runBoundaries
      split
      · rfl
      · exact (ih _).trans (boundary_step _ u).otp
  unfold settleRound settleBoundaries
  dsimp only
  split
  · split
    · exact (writeRecords_writes _).1.steady.otp.trans (hrun _ s)
    · exact hrun _ s
  · rfl

/-- What a minute tick does after the Round leaves the clock, the plans, the entries, the keys, the OTP and the records. -/
theorem tick_tended (s : State) : Tended s (copyCeLog (abortForLeases s)) := (abortForLeases_tended s).trans (copyCeLog_tended _)

/-- The minute rises, and the Round's minute with it while it runs: nothing else of the clock differs. -/
theorem settled_clock (s : State) : (settleRound (minutePassed s)).tank.minute = s.tank.minute + 1 ∧
    (settleRound (minutePassed s)).tank.usec = 0 ∧ (settleRound (minutePassed s)).tank.anchored = s.tank.anchored ∧
    (settleRound (minutePassed s)).tank.phase = s.tank.phase := by
  obtain ⟨x, hx⟩ := settleRound_moves (minutePassed s)
  rw [hx]
  exact ⟨rfl, rfl, rfl, rfl⟩

section
variable {s : State} {m : Nat} (hm : m = s.tank.minute.toNat + 1) (hm32 : m < 2 ^ 32) (hr : s.tank.roundMinute = s.tank.minute)
  (hrun : roundRuns s = true) (hheld : boundariesHeld s = false) (hopen : s.records.openMinute < m)
include hm hm32 hr hrun hheld hopen

/-- The boundary of the minute that has come is processed, and its records are written. -/
theorem settled_once : settleRound (minutePassed s) = writeRecords (boundary m (minutePassed s)) := by
  have hminute : (minutePassed s).tank.minute.toNat = m := by
    show (s.tank.minute + 1).toNat = m
    rw [BitVec.toNat_add, hm, Nat.mod_eq_of_lt (by simpa using hm ▸ hm32)]
    rfl
  have hround : (minutePassed s).tank.roundMinute.toNat + 1 = m := by
    show s.tank.roundMinute.toNat + 1 = m
    rw [hr, hm]
  exact settleRound_once hminute hround hrun hheld hopen

/-- The Round stands at the minute, which is open, and the records are of the one before. -/
theorem settled_records : (settleRound (minutePassed s)).tank.roundMinute.toNat = m ∧ (settleRound (minutePassed s)).records.openMinute = m ∧
    (settleRound (minutePassed s)).records.lastMinute.toNat = m - 1 := by
  have hstep := (boundary_step m (minutePassed s)).tank
  rw [settled_once hm hm32 hr hrun hheld hopen]
  obtain ⟨hfiled, hopened, hlast⟩ := writeRecords_writes (boundary m (minutePassed s))
  have hround : (boundary m (minutePassed s)).tank.roundMinute.toNat = m := by
    rw [hstep]
    exact (BitVec.toNat_ofNat m 32).trans (Nat.mod_eq_of_lt hm32)
  refine ⟨by rw [hfiled.steady.tank, hround], hopened.trans hround, ?_⟩
  rw [hlast, hround, BitVec.toNat_ofNat, Nat.mod_eq_of_lt (by omega)]

theorem settled_adopts {k : Bank} {p : Plan} (hk : pendingBank s = some k) (hat : (getBS s k).adoptAt.toNat = m)
    (hprep : s.plans.prepared = true) (hp : s.plans.buffer = some p) (hc : compat s p m false = none) (ha : admission p s.retired = none) :
    Adopted k p (settleRound (minutePassed s)) := by
  rw [settled_once hm hm32 hr hrun hheld hopen]
  have hbank : getBS (minutePassed s) k = getBS s k := getBS_congr rfl k
  exact (boundary_adopts (s := minutePassed s) hk (by rw [hbank]; exact hat) hprep hp hc ha).of_plans (writeRecords_writes _).1.steady.plans

/-- Without a pending bank an entry is what the boundary's steps on leases make of it. -/
theorem settled_entry (hnone : pendingBank s = none) (i : Nat) : getRegion (settleRound (minutePassed s)) i =
    getRegion (boundaryLeases m (boundaryOpened m (minutePassed s))) i := by
  rw [settled_once hm hm32 hr hrun hheld hopen, getRegion_congr (writeRecords_writes _).1.regions]
  exact boundary_entry (s := minutePassed s) hnone i

theorem settled_ends {i : Nat} (hnone : pendingBank s = none) (ha : (getRegion s i).active = true)
    (he : (getRegion s i).leaseEnd.toNat = m) (hf : (getRegion s i).foId = 0) : Ended m (getRegion (settleRound (minutePassed s)) i) := by
  obtain ⟨-, -, hregions, -, -⟩ := boundaryOpened_kept m (minutePassed s)
  have hentry : getRegion (boundaryOpened m (minutePassed s)) i = getRegion s i := getRegion_congr hregions i
  rw [settled_entry hm hm32 hr hrun hheld hopen hnone]
  exact boundaryLeases_ends (by rw [hentry]; exact ha) (by rw [hentry]; exact he) (by rw [hentry]; exact hf)

theorem settled_goesOn {i : Nat} {p : RegionRec} {l : Lease} (hnone : pendingBank s = none) (ha : (getRegion s i).active = true)
    (he : (getRegion s i).leaseEnd.toNat = m) (hf : (getRegion s i).foId ≠ 0) (hrev : ∀ j, (getRegion s j).revokeMinute.toNat ≠ m)
    (hlater : ∀ e ∈ s.records.laterRevokes, e.2 ≠ m) (hp : regionRec s i = some p)
    (hl : (openLeases s p).find? (fun x => x.id = (getRegion s i).foId) = some l) (hstop : l.stop.toNat ≠ m) :
    GoesOn l (getRegion s i) (getRegion (settleRound (minutePassed s)) i) := by
  obtain ⟨hplans, -, hregions, hrevoked, hlaters⟩ := boundaryOpened_kept m (minutePassed s)
  have hentry (j : Nat) : getRegion (boundaryOpened m (minutePassed s)) j = getRegion s j := getRegion_congr hregions j
  have hrec : regionRec (boundaryOpened m (minutePassed s)) i = some p := by
    unfold regionRec planOf at hp ⊢
    rw [hplans]
    exact hp
  have hleases : openLeases (boundaryOpened m (minutePassed s)) p = openLeases s p := by
    unfold openLeases
    rw [hrevoked]
    rfl
  rw [settled_entry hm hm32 hr hrun hheld hopen hnone, ← hentry]
  exact boundaryLeases_goesOn (p := p) (by rw [hentry]; exact ha) (by rw [hentry]; exact he) (by rw [hentry]; exact hf)
    (fun j => by rw [hentry]; exact hrev j) (by rw [hlaters]; exact hlater) hrec (by rw [hleases, hentry]; exact hl) hstop

end

/-- The clause of LeasesBeginAndEnd on MINUTE_BOUNDARY. -/
theorem minuteBoundary_rises {s : State} (hpor : s.pins.porN = true) (hanc : s.tank.anchored = true) (hhold : s.tank.holdUs = 0) :
    ∃ t, exec .minuteBoundary s = .next t ∧ t.tank.minute = s.tank.minute + 1 ∧ t.tank.usec = 0 ∧ t.tank.anchored = true ∧
      t.tank.phase = s.tank.phase ∧ t.otp.cells = s.otp.cells ∧
      (roundRuns s = false → t.regions = s.regions ∧ t.plans = s.plans ∧ t.keys = s.keys) ∧
      ∀ m, m = s.tank.minute.toNat + 1 → m < 2 ^ 32 → s.tank.roundMinute = s.tank.minute → roundRuns s = true → boundariesHeld s = false →
        s.records.openMinute < m →
        t.tank.roundMinute.toNat = m ∧ t.records.openMinute = m ∧ t.records.lastMinute.toNat = m - 1 ∧
        (∀ k p, pendingBank s = some k → (getBS s k).adoptAt.toNat = m → s.plans.prepared = true → s.plans.buffer = some p →
          compat s p m false = none → admission p s.retired = none →
          t.plans.plan = some p ∧ t.plans.inForce = some k ∧ (getBS t k).state = 5 ∧ t.plans.rewritePending = true ∧ t.plans.prepared = false) ∧
        ∀ i r, r = getRegion s i → pendingBank s = none → r.inUse = true → r.active = true → r.leaseEnd.toNat = m →
          (r.foId = 0 → (getRegion t i).active = false ∧ (getRegion t i).erasePending = true ∧ (getRegion t i).erase = .draining ∧
            (getRegion t i).endMinute.toNat = m) ∧
          (∀ (p : RegionRec) (l : Lease), r.foId ≠ 0 → (∀ j, (getRegion s j).revokeMinute.toNat ≠ m) → (∀ e ∈ s.records.laterRevokes, e.2 ≠ m) →
            regionRec s i = some p → (openLeases s p).find? (fun x => x.id = r.foId) = some l → l.stop.toNat ≠ m →
            (getRegion t i).active = true ∧ (getRegion t i).leaseId = l.id ∧ (getRegion t i).leaseEnd = l.stop ∧
              (getRegion t i).gen = r.gen ∧ (getRegion t i).curSlot = r.curSlot) := by
  refine ⟨_, minuteBoundary_passes hpor hanc hhold, ?_⟩
  have htick := tick_tended (settleRound (minutePassed s))
  obtain ⟨hminute, husec, hanchored, hphase⟩ := settled_clock s
  have hotp : (settleRound (minutePassed s)).otp = s.otp := settleRound_otp _
  generalize copyCeLog (abortForLeases (settleRound (minutePassed s))) = t at htick
  have hst := htick.filed.steady
  have hregions := htick.filed.regions
  rw [hst.tank, hst.otp, hst.plans, hregions, htick.keys, htick.records, hotp]
  refine ⟨hminute, husec, hanchored.trans hanc, hphase, rfl, fun hstop => ?_, fun m hm hm32 hr hrun hheld hopen => ?_⟩
  · have hsame : settleRound (minutePassed s) = minutePassed s := if_neg (by rw [show roundRuns (minutePassed s) = false from hstop]; decide)
    rw [hsame]
    exact ⟨rfl, rfl, rfl⟩
  · obtain ⟨hround, hopened, hlast⟩ := settled_records hm hm32 hr hrun hheld hopen
    refine ⟨hround, hopened, hlast, fun k p hk hat hprep hp hc ha => ?_, ?_⟩
    · have h := (settled_adopts hm hm32 hr hrun hheld hopen hk hat hprep hp hc ha).of_plans hst.plans
      exact ⟨hst.plans ▸ h.plan, hst.plans ▸ h.inForce, h.state, hst.plans ▸ h.rewritePending, hst.plans ▸ h.prepared⟩
    · rintro i r rfl hnone - ha he
      rw [getRegion_congr hregions]
      refine ⟨fun hf => ?_, fun p l hf hrev hlater hp hl hstop => ?_⟩
      · obtain ⟨hactive, hpending, herase, hend⟩ := settled_ends hm hm32 hr hrun hheld hopen hnone ha he hf
        exact ⟨hactive, hpending, herase, by rw [hend, BitVec.toNat_ofNat, Nat.mod_eq_of_lt hm32]⟩
      · have h := settled_goesOn hm hm32 hr hrun hheld hopen hnone ha he hf hrev hlater hp hl hstop
        exact ⟨h.active, h.leaseId, h.leaseEnd, h.gen, h.curSlot⟩

end Sys2Proof.Safety

namespace Sys2Proof.Safety
open Sys2Proof.Machine

/-! ### A minute record fills its slot (R127) -/

theorem minuteRecord_length (q : BitVec 32) (minute tenant flags span : Nat) (v : Nat → Nat) :
    (minuteRecord q minute tenant flags span v).length = 64 := by
  have h (n : Nat) (l : List Nat) (f : Nat → Nat) : ((l.map (fun i => beBytes n (v (f i)))).flatten).length = l.length * n := by
    induction l with
    | nil => simp
    | cons a l ih =>
      simp only [List.map_cons, List.flatten_cons, List.length_append, ih, List.length_cons]
      simp [beBytes]
      ring
  unfold minuteRecord
  simp only [List.length_append, h]
  simp [beBytes]

/-- A system line that no row test holds takes what is written to it, and no other line changes. -/
theorem writeSystem_fills {line : Nat} {bs : List Byte} {s : State} (hm : markedRow s line = false) (hlen : bs.length = 64) :
    lineData (writeSystem line 0 bs s) line = bs ∧ ∀ l ≠ line, LineKept l s (writeSystem line 0 bs s) := by
  unfold writeSystem
  rw [hm, if_neg (by decide)]
  have hread := lineBytes_writeBytes line 0 bs s
  rw [hlen] at hread
  exact ⟨hread, fun l hl => writeBytes_lineKept hl (by omega) s⟩

/-- What a record leaves, after the words that its slot takes. -/
theorem putRecord_fills {s : State} {q : BitVec 32} {line : Nat} (hq : q = nextRecordSeq s.retired 64 s.records.next)
    (hline : line = systemLine (recordSlot q.toNat).1 (recordSlot q.toNat).2) (hm : markedRow s line = false) (minute tenant span : Nat)
    (stepped ended : Bool) (v : Nat → Nat) : let u := putRecord minute tenant span stepped ended v s
    lineData u line = minuteRecord q minute tenant (8 + bit (tenantSaturated s tenant) 2 + bit stepped 1 + bit ended 0) span v ∧
      u.records.next = q + 1 ∧ ∀ a, a / 64 ≠ line → Map.get (fillByte a) a u.dram.data = Map.get (fillByte a) a s.dram.data := by
  obtain ⟨hdata, hother⟩ := writeSystem_fills (bs := minuteRecord q minute tenant
    (8 + bit (tenantSaturated s tenant) 2 + bit stepped 1 + bit ended 0) span v) hm (minuteRecord_length _ _ _ _ _ _)
  have hbursts (w : State) : (systemBursts (recordSlot q.toNat).1 1 w).dram = w.dram := by
    obtain ⟨_, _, _, _, _, h⟩ := systemBursts_reports (recordSlot q.toNat).1 1 w
    rw [h]
  intro u
  have hdram : u.dram = (writeSystem line 0 (minuteRecord q minute tenant
      (8 + bit (tenantSaturated s tenant) 2 + bit stepped 1 + bit ended 0) span v) s).dram := by
    subst hq hline
    exact hbursts _
  refine ⟨?_, by rw [hq]; rfl, fun a ha => ?_⟩
  · rw [← hdata]
    unfold lineData lineBytes
    rw [hdram]
  · rw [hdram]
    exact (hother _ ha).bytes a rfl

/-! ### A start that has waited (R120, R123) -/

section
variable {region : Fin 131072} {s : State} (hheld : isHeld s region.val = true) (hrun : roundRuns s = true)
  (hpending : (getRegion s region.val).erasePending = false)
include hheld hrun hpending

theorem heldLeaseStart_drops (hl : leaseAt s region.val s.tank.roundMinute.toNat = none) :
    exec (.heldLeaseStart region) s = .next (settleRound (dropHold region.val s)) := by
  show execHeldLeaseStart region s = _
  unfold execHeldLeaseStart
  dsimp only
  rw [if_neg (by simp [hheld, hrun, hpending]), hl]

theorem heldLeaseStart_tries {l : Lease} (hl : leaseAt s region.val s.tank.roundMinute.toNat = some l) :
    exec (.heldLeaseStart region) s = .next (settleRound (startLease region.val (loadEntry region.val s))) := by
  show execHeldLeaseStart region s = _
  unfold execHeldLeaseStart
  dsimp only
  rw [if_neg (by simp [hheld, hrun, hpending]), hl]

end

theorem firstFree_congr {s t : State} (h : t.keys = s.keys) (n k : Nat) : firstFree t n k = firstFree s n k := by
  induction n generalizing k with
  | zero => rfl
  | succ n ih =>
    unfold firstFree getKey
    rw [h, ih]

/-- A lease starts with the key drawn for it where nothing stands in its way. -/
theorem startLease_starts {i slot : Nat} {s : State} (hlife : s.otp.life = 2) (huse : (getRegion s i).inUse = true)
    (ha : (getRegion s i).active = false) (hf : s.plans.reloadFailed.contains i = false) (hb : eraseBlocks s i = false)
    (hr : keyReady s = true) (hk : firstFree s 8192 0 = some slot) :
    ∃ t, KeyDrawn i slot .current s t ∧ LeaseBegun i slot t (startLease i s) := by
  obtain ⟨t, hdraw, ht⟩ := drawKey_draws hr hk i .current
  refine ⟨t, ht, ?_⟩
  have hstart : startLease i s = beginLease i slot t := by
    unfold startLease
    rw [if_neg (by simp only [hlife, huse, ha, hf]; decide), hb, if_neg (by decide), hdraw]
  rw [hstart]
  exact beginLease_begins i slot t

/-- A start that finds its key leaves the region active with a new generation, in its record too. -/
theorem heldLease_starts {i k : Nat} {s : State} {l : Lease} {m : Nat} (hi : i < 131072) (hl : leaseAt s i m = some l) (hlife : s.otp.life = 2)
    (hf : s.plans.reloadFailed.contains i = false) (hb : eraseBlocks (loadEntry i s) i = false) (hr : keyReady s = true)
    (hk : firstFree s 8192 0 = some k) (hm : markedRow s (leaseHome s i).1 = false) : let u := startLease i (loadEntry i s)
    (getRegion u i).active = true ∧ (getRegion u i).gen = (getRegion (loadEntry i s) i).gen + 1 ∧ (getRegion u i).curSlot = k ∧
      getKey u k = { key := (generate 256 (loadEntry i s)).1, hash := hashSubkey (generate 256 (loadEntry i s)).1, state := .current, region := i } ∧
      isHeld u i = false ∧ RecordKept i s u ∧ TenantsKept s u := by
  obtain ⟨p, hp⟩ : ∃ p, regionRec s i = some p := by
    unfold leaseAt at hl
    obtain ⟨p, hp, -⟩ := Option.bind_eq_some_iff.mp hl
    exact ⟨p, hp⟩
  obtain ⟨hload, hlaid⟩ := loadEntry_named hp
  obtain ⟨t, ht, hbegun⟩ := startLease_starts (by rw [hload.steady.otp]; exact hlife) hlaid.inUse hlaid.active
    (by rw [hload.steady.plans]; exact hf) hb (hload.ready.trans hr) ((firstFree_congr hload.keys _ _).trans hk)
  have hwork := hload.toEntryWork.trans ht.entry
  have hentry := getRegion_congr ht.regions i
  intro u
  have hshown : getRegion u i = begunEntry k (getRegion (loadEntry i s) i) := by rw [hbegun.shown, hentry]
  refine ⟨by rw [hshown]; rfl, by rw [hshown]; rfl, by rw [hshown]; rfl, ?_, hbegun.held, ?_, (hwork.trans hbegun.entry).tenants hi⟩
  · rw [← ht.key]
    unfold getKey
    rw [hbegun.keys]
  · exact (hbegun.kept (by rw [markedRow_congr hwork.bist, hwork.home]; exact hm)).of_home hwork.relief

end Sys2Proof.Safety

namespace Sys2Proof.Safety
open Sys2Proof.Machine

/-! ### An erase begins (R122) -/

/-- What the Separator had under way for a region is given up, and no stored word changes. -/
structure WorkAbandoned (i : Nat) (s t : State) : Prop where
  dram : t.dram = s.dram
  unerased : unerased t i = unerased s i
  rekey : rekeyOf t i = none
  rewrites : ∀ w ∈ t.sep.rewrites, w.region ≠ i

/-- The lists of the Separator without what they hold of a region. -/
def withoutWork (i : Nat) (x : Separator) : Separator :=
  { x with rekeys := x.rekeys.filter (fun k => k.region ≠ i), rewrites := x.rewrites.filter (fun w => w.region ≠ i),
           due := x.due.filter (fun e => e.2 ≠ i) }

theorem abandonWork_eq (i : Nat) (s : State) : ∃ t, Events s t ∧ abandonWork i s = { t with sep := withoutWork i t.sep } := by
  unfold abandonWork
  cases rekeyOf s i with
  | none => exact ⟨s, (Messages.refl s).events, rfl⟩
  | some k => exact ⟨_, journalEvent_events _ _ _ _ s, rfl⟩

theorem abandonWork_abandons (i : Nat) (s : State) : WorkAbandoned i s (abandonWork i s) := by
  obtain ⟨t, ht, heq⟩ := abandonWork_eq i s
  rw [heq]
  obtain ⟨_, _, _, _, _, rfl⟩ := ht
  refine ⟨rfl, rfl, ?_, fun w hw => by simpa using List.of_mem_filter hw⟩
  unfold rekeyOf withoutWork
  simp [List.find?_eq_none]

theorem eraseDrainComplete_begins {region : Fin 131072} {s : State} (he : (getRegion s region.val).erase = .draining)
    (hq : regionQuiet s region.val = true) (hup : upkeepRuns s = true) :
    ∃ t, exec (.eraseDrainComplete region) s = .next t ∧ (getRegion t region.val).erase = .erasing ∧ (getRegion t region.val).rekeying = false ∧
      (getRegion t region.val).pagesRemaining = (unerased s region.val).length ∧ rekeyOf t region.val = none ∧
      (∀ w ∈ t.sep.rewrites, w.region ≠ region.val) ∧ t.dram = s.dram := by
  have hexec : exec (.eraseDrainComplete region) s = .next (setRegion region.val
      { getRegion (abandonWork region.val s) region.val with rekeying := false, erase := .erasing, eraseFrom := s.tank.clockUs,
                                                             pagesRemaining := (unerased (abandonWork region.val s) region.val).length }
      (abandonWork region.val s)) := by
    show execEraseDrainComplete region s = _
    unfold execEraseDrainComplete
    dsimp only
    rw [if_neg (by simp [he, hq, hup])]
  have h := abandonWork_abandons region.val s
  refine ⟨_, hexec, ?_, ?_, ?_, h.rekey, h.rewrites, h.dram⟩
  all_goals rw [getRegion_set_same]
  rw [h.unerased]

/-! ### An erase ends (R122, R133) -/

/-- Bytes of a line that stands read as before. -/
theorem LineKept.bytes_eq {l : Nat} {s t : State} (h : LineKept l s t) {o n : Nat} (hfit : o + n ≤ 64) : lineBytes t l o n = lineBytes s l o n := by
  unfold lineBytes Memory.read
  refine List.map_congr_left fun i hi => h.bytes _ ?_
  have := List.mem_range.mp hi
  omega

theorem pageWordHome_fits (s : State) (page : Nat) : (pageWordHome s page).2 + 4 ≤ 64 := by
  unfold pageWordHome
  dsimp only
  omega

/-- Work on a region's record leaves the page words of other lines. -/
theorem EntryWork.pageWord {i page : Nat} {s t : State} (h : EntryWork i s t) (hp : (pageWordHome s page).1 ≠ (leaseHome s i).1) :
    Machine.pageWord t page = Machine.pageWord s page := by
  have hmisread : misreadOf t (pageWordHome s page).1 = misreadOf s (pageWordHome s page).1 := by
    unfold misreadOf
    rw [h.misread, h.metaCache, h.pageCache]
  unfold Machine.pageWord counterBytes
  rw [pageWordHome_congr page h.steady.plans h.relief]
  dsimp only
  rw [hmisread, (h.lines _ hp).bytes_eq (pageWordHome_fits s page)]

theorem freeKeys_free (i : Nat) (l : List Nat) (s : State) : EntryWork i s (forEach l freeKey s) ∧
    ∀ k ∈ l, getKey (forEach l freeKey s) k = KeySlot.zero := by
  refine ⟨forEach_relates (.refl i) .trans (fun k t => (freeKey_frame i k t).1) l s, fun k hk => ?_⟩
  refine forEach_establishes (P := fun k t => getKey t k = KeySlot.zero) (fun k t => (freeKey_frame i k t).2.1) (fun j k t ht => ?_) hk s
  obtain ⟨-, hzero, hother, -⟩ := freeKey_frame i j t
  by_cases hkj : k = j
  · subst hkj
    exact hzero
  · exact (hother k hkj).trans ht

/-- The entry of a region whose erase has ended (R122). -/
def erasedEntry (r : Region) : Region :=
  { r with erase := .none, erasePending := false, pagesRemaining := 0, curSlot := 0, nextSlot := 0, nextValid := false, curBit := false }

/-- An entry is no longer erase-pending, nor active unless it was. -/
def EraseOver (r0 r : Region) : Prop := r.erasePending = false ∧ (r0.active = false → r.active = false)

theorem loadEntry_over (r0 : Region) (i : Nat) (s : State) : EraseOver r0 (getRegion (loadEntry i s) i) := by
  have hidle := (loadEntry_rewritten i s).idle
  simp only [Busy, not_or, Bool.not_eq_true] at hidle
  exact ⟨hidle.2, fun _ => hidle.1⟩

/-- The entry's plan enters it again where the plan's table could be reloaded. -/
def showAgain (i : Nat) (b : Bool) (s : State) : State := if b then s else loadEntry i s

theorem finishErase_eq (i : Nat) (s : State) : ∃ a, finishErase i s = journalEvent 0x081 0x31 0 a
    (showAgain i (s.plans.reloadFailed.contains i)
      (saveLease i (setRegion i (erasedEntry (getRegion s i)) (forEach (regionSlots (getRegion s i)) freeKey s)))) := ⟨_, rfl⟩

theorem showAgain_load (i : Nat) (b : Bool) (s : State) : LoadWork i s (showAgain i b s) := by
  cases b
  · exact loadEntry_load i s
  · exact .refl i s

theorem finishErase_finishes (i : Nat) (s : State) : EntryWork i s (finishErase i s) ∧
    EraseOver (getRegion s i) (getRegion (finishErase i s) i) ∧ ∀ k ∈ regionSlots (getRegion s i), getKey (finishErase i s) k = KeySlot.zero := by
  obtain ⟨a, heq⟩ := finishErase_eq i s
  obtain ⟨hfree, hzero⟩ := freeKeys_free i (regionSlots (getRegion s i)) s
  generalize forEach (regionSlots (getRegion s i)) freeKey s = u at heq hfree hzero
  have hsaved := saveLease_saved i (erasedEntry (getRegion s i)) u
  generalize saveLease i (setRegion i (erasedEntry (getRegion s i)) u) = v at heq hsaved
  have hshow := showAgain_load i (s.plans.reloadFailed.contains i) v
  have hover : EraseOver (getRegion s i) (getRegion (showAgain i (s.plans.reloadFailed.contains i) v) i) := by
    cases s.plans.reloadFailed.contains i with
    | false => exact loadEntry_over _ i v
    | true =>
      show EraseOver _ (getRegion v i)
      rw [hsaved.shown]
      exact ⟨rfl, id⟩
  generalize showAgain i (s.plans.reloadFailed.contains i) v = w at heq hshow hover
  have hevent : RecordWork i w (finishErase i s) := by
    rw [heq]
    exact journalEvent_work
  have hkeys : (finishErase i s).keys = u.keys := (hevent.keys.trans hshow.keys).trans hsaved.keys
  refine ⟨((hfree.trans hsaved.entry).trans hshow.toEntryWork).trans hevent.toEntryWork, by rw [hevent.entry]; exact hover, fun k hk => ?_⟩
  rw [← hzero k hk]
  unfold getKey
  rw [hkeys]

theorem cryptoEraseComplete_waits {region : Fin 131072} {s : State} (hn : unerased s region.val ≠ []) :
    exec (.cryptoEraseComplete region) s = .next s := by
  show execCryptoEraseComplete region s = _
  unfold execCryptoEraseComplete
  rw [if_neg (by simp [hn])]

theorem cryptoEraseComplete_ends {region : Fin 131072} {s : State} (he : (getRegion s region.val).erase = .erasing) (hup : upkeepRuns s = true)
    (hn : unerased s region.val = []) : exec (.cryptoEraseComplete region) s = .next (finishErase region.val s) := by
  show execCryptoEraseComplete region s = _
  unfold execCryptoEraseComplete
  rw [if_pos (by simp [he, hup, hn])]

theorem pageWord_of_unerased {s : State} {i j : Nat} (h : unerased s i = []) (hj : j < regionPages (getRegion s i)) :
    pageWord s ((getRegion s i).slab * 16 + j) = mkPageWord false true 0 := by
  unfold unerased at h
  have hall := List.filter_eq_nil_iff.mp h ((getRegion s i).slab * 16 + j) (List.mem_map.mpr ⟨j, List.mem_range.mpr hj, rfl⟩)
  exact not_not.mp fun h => hall (decide_eq_true h)

theorem mem_regionSlots_current (r : Region) : r.curSlot ∈ regionSlots r := by
  unfold regionSlots
  split
  · exact List.mem_cons_self
  · exact List.mem_cons_self

theorem mem_regionSlots_next {r : Region} (h : r.nextValid = true) : r.nextSlot ∈ regionSlots r := by
  unfold regionSlots
  rw [if_pos h]
  exact List.mem_cons_of_mem _ List.mem_cons_self

/-- Settles O52: a boundary is followed step by step, each of which works on one region's entry; starts and erases likewise. -/
theorem leasesBeginAndEnd : Obligations.LeasesBeginAndEnd := by
  unfold Obligations.LeasesBeginAndEnd
  refine ⟨fun s hpor hanc hhold => minuteBoundary_rises hpor hanc hhold, ?_, ?_⟩
  · rintro s u q line minute tenant span stepped ended v hq hline hm rfl
    exact putRecord_fills hq hline hm minute tenant span stepped ended v
  · rintro region s i r rfl rfl
    refine ⟨fun hheld hrun hpending => ⟨heldLeaseStart_drops hheld hrun hpending, fun l k hl hlife hf hb hr hk hm => ?_⟩,
      eraseDrainComplete_begins, fun _ hn => cryptoEraseComplete_waits hn, fun he hup hn => ?_⟩
    · obtain ⟨hactive, hgen, hslot, hkey, hdropped, hkept, htenants⟩ := heldLease_starts region.isLt hl hlife hf hb hr hk hm
      exact ⟨_, _, heldLeaseStart_tries hheld hrun hpending hl, hactive, hgen, hslot, rfl, hkey, hdropped, hkept, htenants⟩
    · obtain ⟨hwork, ⟨hpending, hactive⟩, hzero⟩ := finishErase_finishes region.val s
      refine ⟨_, cryptoEraseComplete_ends he hup hn, hpending, hactive, hzero _ (mem_regionSlots_current _),
        fun h => hzero _ (mem_regionSlots_next h), fun j hj hp => ?_⟩
      rw [hwork.pageWord hp]
      exact pageWord_of_unerased hn hj

end Sys2Proof.Safety

namespace Sys2Proof.Safety
open Sys2Proof.Machine

/-! ## Pages are prepared (R139, R146 to R148)

### What ends beside a page's preparation -/

/-- Page words, keys and flash, the initialisations under way and the writes that wait stand, and no line is newly locked: what the end of
a page's preparation leaves alone once its page word is written. -/
structure PageStands (s t : State) : Prop where
  word : ∀ page, pageWord t page = pageWord s page
  keys : t.keys = s.keys
  flash : t.flash = s.flash
  inits : t.sep.inits = s.sep.inits
  waiting : t.sep.waiting = s.sep.waiting
  free : ∀ dma, isLocked s dma = false → isLocked t dma = false

theorem PageStands.refl (s : State) : PageStands s s := ⟨fun _ => rfl, rfl, rfl, rfl, rfl, fun _ => id⟩

theorem PageStands.trans {a b c : State} (h : PageStands a b) (h' : PageStands b c) : PageStands a c :=
  ⟨fun page => (h'.word page).trans (h.word page), h'.keys.trans h.keys, h'.flash.trans h.flash, h'.inits.trans h.inits,
    h'.waiting.trans h.waiting, fun dma => h'.free dma ∘ h.free dma⟩

theorem Serves.pageStands {s t : State} : Serves s t → PageStands s t := by
  rintro ⟨_, _, _, _, _, _, _, _, _, _, _, rfl⟩
  exact ⟨fun _ => rfl, rfl, rfl, rfl, rfl, fun _ => id⟩

theorem Timed.pageStands {s t : State} : Timed s t → PageStands s t := by
  rintro ⟨_, _, _, _, _, _, _, _, _, _, rfl⟩
  exact ⟨fun _ => rfl, rfl, rfl, rfl, rfl, fun _ => id⟩

theorem unlockLine_free (dma : Nat) (s : State) : isLocked (unlockLine dma s) dma = false := NSet.has_del _ _

theorem unlockLine_stands (dma : Nat) (s : State) : PageStands s (unlockLine dma s) := by
  refine ⟨fun _ => rfl, rfl, rfl, rfl, rfl, fun d hd => ?_⟩
  unfold isLocked NSet.has at hd ⊢
  simp only [List.contains_eq_mem, decide_eq_false_iff_not] at hd ⊢
  exact fun h => hd (List.mem_of_mem_filter h)

/-! ### A request's turn in its QP's order (R95, R96, R99) -/

/-- The QP contexts, the read trackers and the dropped requests are of no matter to pages. -/
theorem withRequests_stands (q : Table Qp) (k : Table Nat) (o : List Orphan) (s : State) :
    PageStands s { s with qps := q, trackers := k, path := { s.path with orphans := o } } := ⟨fun _ => rfl, rfl, rfl, rfl, rfl, fun _ => id⟩

theorem changeOp_stands (r : LineReq) (f : QpOp → QpOp) (s : State) : PageStands s (changeOp r f s) := by
  unfold changeOp
  dsimp only
  split
  · exact (setQp_serves _ _ s).pageStands
  · exact .refl s

theorem errorQp_stands (n : BitVec 24) (s : State) : PageStands s (errorQp n s) := by
  unfold errorQp
  dsimp only
  split
  · exact .refl s
  · exact ((setQp_serves n _ s).trans (tenantCount_serves _ _ _ _)).pageStands

theorem dropOps_stands (n : BitVec 24) (keep : Nat) (s : State) : PageStands s (dropOps n keep s) := by
  unfold dropOps keepOrphans setQp
  exact withRequests_stands _ _ _ s

theorem enterError_stands (n : BitVec 24) (keep : Nat) (s : State) : PageStands s (enterError n keep s) := by
  have hdrop := dropOps_stands n keep s
  unfold enterError
  dsimp only
  split
  · exact hdrop
  · exact hdrop.trans (errorQp_stands n _)

theorem endOrphan_stands (r : LineReq) (s : State) : PageStands s (endOrphan r s) :=
  withRequests_stands s.qps s.trackers _ s

theorem failOp_stands (r : LineReq) (s : State) : PageStands s (failOp r s) := by
  unfold failOp
  dsimp only
  split
  · exact endOrphan_stands r s
  · split
    · exact .refl s
    · split
      · exact (setQp_serves _ _ s).pageStands.trans (enterError_stands _ _ _)
      · refine PageStands.trans ?_ (settleQp_replies _ _).frame.pageStands
        exact (withRequests_stands _ _ s.path.orphans s).trans (enterError_stands _ _ _)

theorem countApplied_stands (tenant : Nat) (o : QpOp) (s : State) : PageStands s (countApplied tenant o s) :=
  (countApplied_replies 0 tenant o s).frame.pageStands

theorem orphanLineDone_stands (r : LineReq) (s : State) : PageStands s (orphanLineDone r s) := by
  unfold orphanLineDone
  split
  · exact .refl s
  · split
    · exact (endOrphan_stands r s).trans (countApplied_stands _ _ _)
    · exact withRequests_stands s.qps s.trackers _ s

theorem writeLineDone_stands (r : LineReq) (s : State) : PageStands s (writeLineDone r s) := by
  unfold writeLineDone
  split
  · exact orphanLineDone_stands r s
  · next o _ =>
    have hline := changeOp_stands r (fun o => { o with linesLeft := o.linesLeft - 1, doneAt := s.tank.clockUs }) s
    dsimp only
    split
    · refine hline.trans (PageStands.trans (countApplied_stands (getQp s r.qpn).tenant o _) ?_)
      exact ((countDone_replies r.qpn o.waited _).trans (settleQp_replies _ _)).frame.pageStands
    · exact hline

theorem formAtomic_stands (r : LineReq) (plain : List Byte) (s : State) : PageStands s (formAtomic r plain s) := by
  unfold formAtomic
  dsimp only
  split
  · cases orphanOf s r with
    | none => exact .refl s
    | some x => exact (endOrphan_stands r s).trans (tenantCount_serves _ _ _ _).pageStands
  · exact ((setQp_serves _ _ s).trans (tenantCount_serves _ _ _ _)).pageStands

theorem completeReq_stands (ch : Nat) (r : LineReq) (s : State) : PageStands s (completeReq ch r s) := (completeReq_timed ch r s).pageStands

/-- The trigger's own completion writes no page word; its line is free after it (R139). -/
theorem settleTrigger_stands (r : LineReq) (s : State) : PageStands (unlockLine r.dma s) (settleTrigger r s) := by
  unfold settleTrigger
  extract_lets ch s1 s2
  have h1 : PageStands (unlockLine r.dma s) s1 := (writeSettled_timed r _).pageStands.trans (changeOp_stands r _ _)
  have h2 : PageStands s1 s2 := by
    dsimp only [s2]
    split
    · exact formAtomic_stands r _ s1
    · exact writeLineDone_stands r s1
  split
  · exact h1.trans ((completeReq_stands ch r s1).trans (failOp_stands r _))
  · refine (h1.trans h2).trans (PageStands.trans ?_ (completeReq_stands ch r _))
    split
    · exact (tenantCount_serves _ _ _ _).pageStands
    · exact .refl s2

/-! ### Rewrites that are due, and a re-key that starts (R147, R148) -/

theorem startRewrite_stands (page region major : Nat) (moved : BitVec 64) (s : State) :
    PageStands s (startRewrite page region major moved s) := by
  refine PageStands.trans ?_ (tenantCount_serves _ _ _ _).pageStands
  exact ⟨fun _ => rfl, rfl, rfl, rfl, rfl, fun _ => id⟩

theorem startOneDue_pageStands (e : Nat × Nat) (t : State) : PageStands t (startOneDue e t) := by
  have hdue : PageStands t { t with sep := { t.sep with due := t.sep.due.filter (fun x => x.1 ≠ e.1) } } :=
    ⟨fun _ => rfl, rfl, rfl, rfl, rfl, fun _ => id⟩
  unfold startOneDue
  dsimp only
  split
  · exact .refl t
  · split
    · exact hdue
    · exact hdue.trans (startRewrite_stands _ _ _ _ _)

theorem startDue_pageStands (s : State) : PageStands s (startDue s) := by
  rw [startDue_eq]
  exact forEach_relates .refl .trans startOneDue_pageStands _ s

/-- Nothing but the re-keys, the region entries and what serving a QP touches differs: the journal and waiting messages among them. -/
def Rekeys (s t : State) : Prop := ∃ k r, Serves { s with sep := { s.sep with rekeys := k }, regions := r } t

theorem Serves.rekeys {s t : State} (h : Serves s t) : Rekeys s t := ⟨s.sep.rekeys, s.regions, h⟩

theorem Rekeys.after {s u t : State} (h : Rekeys s u) (h' : Serves u t) : Rekeys s t := by
  obtain ⟨k, r, h⟩ := h
  exact ⟨k, r, h.trans h'⟩

theorem Rekeys.kept {s t : State} : Rekeys s t → PageStands s t ∧ ListsStand s t := by
  rintro ⟨_, _, _, _, _, _, _, _, _, _, _, _, _, rfl⟩
  exact ⟨⟨fun _ => rfl, rfl, rfl, rfl, rfl, fun _ => id⟩, rfl, rfl, rfl⟩

theorem changeRekey_rekeys (i : Nat) (f : Rekey → Rekey) (s : State) : Rekeys s (changeRekey i f s) := ⟨_, s.regions, .refl _⟩

theorem recordRekey_rekeys (i : Nat) (k : Rekey) (r : Region) (s : State) : Rekeys s (recordRekey i k r s) := ⟨_, _, .refl _⟩

theorem journalRekey_serves (i page cause : Nat) (s : State) : Serves s (journalRekey i page cause s) :=
  (journalEvent_events _ _ _ _ _).serves

theorem startRekey_rekeys (i page cause : Nat) (s : State) : Rekeys s (startRekey i page cause s) := by
  unfold startRekey
  dsimp only
  split
  · split
    · exact (changeRekey_rekeys _ _ s).after (journalRekey_serves _ _ _ _)
    · split
      · exact changeRekey_rekeys _ _ s
      · exact changeRekey_rekeys _ _ s
  · exact ((recordRekey_rekeys i _ _ s).after (raise_messages _ _ _ _).events.serves).after (journalRekey_serves _ _ _ _)

/-! ### A page's work ends -/

theorem initOf_page {s : State} {page : Nat} {x : PageInit} (h : initOf s page = some x) : x.page = page := by
  simpa using List.find?_some h

/-- The page is under initialisation no longer. -/
def withoutInit (page : Nat) (s : State) : State := { s with sep := { s.sep with inits := s.sep.inits.filter (fun y => y.page ≠ page) } }

/-- The page is under initialisation no longer, and the writes held for it but the trigger go to wait for their ordering points (R139). -/
def initReleased (page : Nat) (rest : List LineReq) (s : State) : State :=
  { withoutInit page s with sep := { (withoutInit page s).sep with waiting := s.sep.waiting ++ rest } }

theorem endInit_idle {x : PageInit} (h : x.heldReqs = []) (s : State) : endInit x s = withoutInit x.page s := by
  unfold endInit
  simp only [h]
  rfl

theorem endInit_held {x : PageInit} {r : LineReq} {rest : List LineReq} (h : x.heldReqs = r :: rest) (s : State) :
    endInit x s = startDue (settleTrigger r (forEach rest (fun q t => unlockLine q.dma t)
      (writePageWord x.page (mkPageWord (pwGen (pageWord s x.page)) false (pwMajor (pageWord s x.page))) (initReleased x.page rest s)))) := by
  unfold endInit
  simp only [h]
  rfl

/-- The end of an initialisation that held requests: once the page word is written, the lines of those requests come free. -/
theorem endInit_stands {x : PageInit} {r : LineReq} {rest : List LineReq} (h : x.heldReqs = r :: rest) (s : State) :
    PageStands (writePageWord x.page (mkPageWord (pwGen (pageWord s x.page)) false (pwMajor (pageWord s x.page))) (initReleased x.page rest s))
      (endInit x s) ∧ ∀ q ∈ r :: rest, isLocked (endInit x s) q.dma = false := by
  rw [endInit_held h]
  generalize writePageWord x.page _ _ = u
  have hunlock : PageStands u (forEach rest (fun q t => unlockLine q.dma t) u) :=
    forEach_relates .refl .trans (fun q t => unlockLine_stands q.dma t) rest u
  have hfree (q : LineReq) (hq : q ∈ rest) : isLocked (forEach rest (fun q t => unlockLine q.dma t) u) q.dma = false :=
    forEach_establishes (P := fun (q : LineReq) t => isLocked t q.dma = false) (fun q t => unlockLine_free q.dma t)
      (fun p q t => (unlockLine_stands p.dma t).free q.dma) hq u
  generalize forEach rest (fun q t => unlockLine q.dma t) u = v at hunlock hfree
  have htrigger := unlockLine_stands r.dma v
  have hend := (settleTrigger_stands r v).trans (startDue_pageStands _)
  refine ⟨hunlock.trans (htrigger.trans hend), fun q hq => hend.free _ ?_⟩
  rcases List.mem_cons.mp hq with rfl | hq
  · exact unlockLine_free q.dma v
  · exact htrigger.free _ (hfree q hq)

theorem writePageWord_kept (page : Nat) (w : BitVec 32) (s : State) :
    (writePageWord page w s).keys = s.keys ∧ (writePageWord page w s).flash = s.flash ∧ (writePageWord page w s).sep = s.sep := by
  obtain ⟨_, _, h⟩ := writePageWord_rewrites page w s
  rw [h]
  exact ⟨rfl, rfl, rfl⟩

/-- An initialisation ends with Fresh 0 in its page word, its locks released and the other held writes waiting for their turn (R139). -/
theorem endInit_ends (x : PageInit) (s : State) : (endInit x s).keys = s.keys ∧ (endInit x s).flash = s.flash ∧
    (endInit x s).sep.inits = s.sep.inits.filter (fun y => y.page ≠ x.page) ∧
    ∀ r rest, x.heldReqs = r :: rest → (∀ q ∈ r :: rest, isLocked (endInit x s) q.dma = false) ∧
      (endInit x s).sep.waiting = s.sep.waiting ++ rest ∧
      pageWord (endInit x s) x.page = mkPageWord (pwGen (pageWord s x.page)) false (pwMajor (pageWord s x.page)) := by
  cases h : x.heldReqs with
  | nil =>
    rw [endInit_idle h]
    exact ⟨rfl, rfl, rfl, fun r rest hr => nomatch hr⟩
  | cons r rest =>
    obtain ⟨hstands, hfree⟩ := endInit_stands h s
    have hword := pageWord_write x.page (mkPageWord (pwGen (pageWord s x.page)) false (pwMajor (pageWord s x.page)))
      (initReleased x.page rest s)
    obtain ⟨hkeys, hflash, hsep⟩ := writePageWord_kept x.page
      (mkPageWord (pwGen (pageWord s x.page)) false (pwMajor (pageWord s x.page))) (initReleased x.page rest s)
    refine ⟨hstands.keys.trans hkeys, hstands.flash.trans hflash, hstands.inits.trans (congrArg Separator.inits hsep), ?_⟩
    rintro _ _ ⟨rfl, rfl⟩
    exact ⟨hfree, hstands.waiting.trans (congrArg Separator.waiting hsep), (hstands.word x.page).trans hword⟩

/-- A rewrite's record is released: the writes it held wait for their turn, and its page is in no rewrite. -/
theorem dropRewrite_drops {s : State} {page : Nat} {x : Rewrite} (h : rewriteOf s page = some x) :
    (dropRewrite page s).sep.waiting = s.sep.waiting ++ x.heldReqs ∧ rewriteOf (dropRewrite page s) page = none := by
  unfold dropRewrite
  refine ⟨by rw [h]; rfl, ?_⟩
  unfold rewriteOf
  simp [List.find?_eq_none]

theorem dropRewrite_keeps (page : Nat) (s : State) : (∀ p, pageWord (dropRewrite page s) p = pageWord s p) ∧
    (dropRewrite page s).keys = s.keys ∧ (dropRewrite page s).flash = s.flash ∧ (dropRewrite page s).sep.due = s.sep.due := by
  unfold dropRewrite
  exact ⟨fun _ => rfl, rfl, rfl, rfl⟩

/-- The re-key that the end of a rewrite calls for: that of a page whose major counter is exhausted (R148). -/
def rekeyExhausted (x : Rewrite) (s : State) : State :=
  if x.major + 1 = exhaustedMajor then startRekey x.region x.page 0 s else s

theorem rekeyExhausted_rekeys (x : Rewrite) (s : State) : Rekeys s (rekeyExhausted x s) := by
  unfold rekeyExhausted
  split
  · exact startRekey_rekeys _ _ _ s
  · exact (Serves.refl s).rekeys

theorem endRewrite_eq (x : Rewrite) (s : State) : endRewrite x s = startDue (rekeyExhausted x (dropRewrite x.page
    (writePageWord x.page (mkPageWord (pwGen (pageWord s x.page)) (pwFresh (pageWord s x.page)) (x.major + 1)) s))) := rfl

/-- A rewrite ends with the next major counter in its page word, its record released and the writes it held waiting for their turn; a page
that it exhausts has its region re-keyed (R146, R148). -/
theorem endRewrite_ends {x : Rewrite} {s : State} {page : Nat} (hx : rewriteOf s page = some x) :
    (endRewrite x s).keys = s.keys ∧ (endRewrite x s).flash = s.flash ∧
      pageWord (endRewrite x s) page = mkPageWord (pwGen (pageWord s page)) (pwFresh (pageWord s page)) (x.major + 1) ∧
      (endRewrite x s).sep.waiting = s.sep.waiting ++ x.heldReqs ∧ (pageDue s page = false → rewriteOf (endRewrite x s) page = none) ∧
      (x.major + 1 = exhaustedMajor → (rekeyOf (endRewrite x s) x.region).isSome = true) := by
  obtain rfl := rewriteOf_page hx
  rw [endRewrite_eq]
  generalize hw : mkPageWord (pwGen (pageWord s x.page)) (pwFresh (pageWord s x.page)) (x.major + 1) = w
  have hword := pageWord_write x.page w s
  obtain ⟨hkeys, hflash, hsep⟩ := writePageWord_kept x.page w s
  generalize writePageWord x.page w s = u at hword hkeys hflash hsep
  obtain ⟨hwaiting, hnone⟩ := dropRewrite_drops ((rewriteOf_congr hsep x.page).trans hx)
  obtain ⟨hdword, hdkeys, hdflash, hddue⟩ := dropRewrite_keeps x.page u
  generalize dropRewrite x.page u = v at hwaiting hnone hdword hdkeys hdflash hddue
  obtain ⟨hstands, hlists⟩ := (rekeyExhausted_rekeys x v).kept
  have hstart := startDue_pageStands (rekeyExhausted x v)
  have hboth := hstands.trans hstart
  refine ⟨(hboth.keys.trans hdkeys).trans hkeys, (hboth.flash.trans hdflash).trans hflash,
    ((hboth.word _).trans (hdword _)).trans hword, ?_, fun hd => startDue_rewriteOf ?_ ?_, fun he => ?_⟩
  · rw [hboth.waiting, hwaiting, hsep]
  · unfold pageDue at hd ⊢
    rw [hlists.due, hddue, hsep]
    exact hd
  · rw [rewriteOf_of_rewrites hlists.rewrites, hnone]
  · rw [rekeyOf_congr (startDue_stand (rekeyExhausted x v)).rekeys]
    unfold rekeyExhausted
    rw [if_pos he]
    exact (startRekey_begins x.region x.page 0 v).2

/-! ### PAGE_INIT_COMPLETE and PAGE_REWRITE_COMPLETE -/

section
variable {page : Nat} {s : State}

theorem pageInitComplete_missing (h : pageCount ≤ page) : exec (.pageInitComplete page) s = .fault .noSuchObject := by
  show execPageInitComplete page s = _
  unfold execPageInitComplete
  rw [if_pos h]

theorem pageRewriteComplete_missing (h : pageCount ≤ page) : exec (.pageRewriteComplete page) s = .fault .noSuchObject := by
  show execPageRewriteComplete page s = _
  unfold execPageRewriteComplete
  rw [if_pos h]

theorem pageInitComplete_eq {x : PageInit} (h : page < pageCount) (hx : initOf s page = some x) :
    exec (.pageInitComplete page) s = .next (if pageOpen s page && initReady s x (fun _ => false) then endInit x s else s) := by
  show execPageInitComplete page s = _
  unfold execPageInitComplete
  rw [if_neg (by omega)]
  simp only [hx]
  split
  · rfl
  · rfl

theorem pageRewriteComplete_eq {x : Rewrite} (h : page < pageCount) (hx : rewriteOf s page = some x) :
    exec (.pageRewriteComplete page) s = .next (if !x.move && pageOpen s page && carryReady s x then endRewrite x s else s) := by
  show execPageRewriteComplete page s = _
  unfold execPageRewriteComplete
  rw [if_neg (by omega)]
  simp only [hx]
  split
  · rfl
  · rfl

end

/-- Settles O50: each command comes to the end of its page's work, after whose page word only what leaves page words alone follows. -/
theorem pagesArePrepared : Obligations.PagesArePrepared := by
  unfold Obligations.PagesArePrepared
  refine fun page s => ⟨fun h => ⟨pageInitComplete_missing h, pageRewriteComplete_missing h⟩, fun h x hx => ?_, fun h x hx => ?_⟩
  · rw [pageInitComplete_eq h hx]
    refine ⟨fun hwait => ?_, fun hopen hready => ⟨_, rfl, ?_⟩⟩
    · rw [if_neg]
      rcases hwait with hw | hw <;> simp [hw]
    · rw [if_pos (by simp [hopen, hready])]
      obtain rfl := initOf_page hx
      exact endInit_ends x s
  · rw [pageRewriteComplete_eq h hx]
    refine ⟨fun hwait => ?_, fun hmove hopen hready => ⟨_, rfl, ?_⟩⟩
    · rw [if_neg]
      rcases hwait with hw | hw | hw <;> simp [hw]
    · rw [if_pos (by simp [hmove, hopen, hready])]
      exact endRewrite_ends hx

end Sys2Proof.Safety

namespace Sys2Proof.Safety
open Sys2Proof.Machine

/-! ## Channel engines issue, refresh and close rows (R166 to R171, R173, R175 to R177, R179, R195)

### What stands beside an engine's commands -/

/-- Keys and flash stand, and no channel's count of burst opportunities moves. -/
structure ClocksStand (s t : State) : Prop where
  keys : t.keys = s.keys
  flash : t.flash = s.flash
  opp : ∀ c, (getChan t c).opp = (getChan s c).opp

/-- As `ClocksStand`, with the column commands that write halves have taken and those that wait as they were. -/
structure ColumnsStand (s t : State) : Prop extends ClocksStand s t where
  colBusy : ∀ c, (getChan t c).colBusy = (getChan s c).colBusy
  second : ∀ c, (getChan t c).second = (getChan s c).second

theorem ClocksStand.trans {a b c : State} (h : ClocksStand a b) (h' : ClocksStand b c) : ClocksStand a c :=
  ⟨h'.keys.trans h.keys, h'.flash.trans h.flash, fun x => (h'.opp x).trans (h.opp x)⟩

theorem ColumnsStand.refl (s : State) : ColumnsStand s s := ⟨⟨rfl, rfl, fun _ => rfl⟩, fun _ => rfl, fun _ => rfl⟩

theorem ColumnsStand.trans {a b c : State} (h : ColumnsStand a b) (h' : ColumnsStand b c) : ColumnsStand a c :=
  ⟨h.toClocksStand.trans h'.toClocksStand, fun x => (h'.colBusy x).trans (h.colBusy x), fun x => (h'.second x).trans (h.second x)⟩

theorem ColumnsStand.of_eq {s t : State} (hk : t.keys = s.keys) (hf : t.flash = s.flash) (hc : t.chans = s.chans) : ColumnsStand s t := by
  have hchan (c : Nat) : getChan t c = getChan s c := by
    unfold getChan
    rw [hc]
  exact ⟨⟨hk, hf, fun c => by rw [hchan]⟩, fun c => by rw [hchan], fun c => by rw [hchan]⟩

theorem Reports.columns {s t : State} : Reports s t → ColumnsStand s t := by
  rintro ⟨_, _, _, _, _, rfl⟩
  exact .of_eq rfl rfl rfl

theorem Events.columns {s t : State} : Events s t → ColumnsStand s t := by
  rintro ⟨_, _, _, _, _, rfl⟩
  exact .of_eq rfl rfl rfl

theorem Serves.columns {s t : State} : Serves s t → ColumnsStand s t := by
  rintro ⟨_, _, _, _, _, _, _, _, _, _, _, rfl⟩
  exact .of_eq rfl rfl rfl

theorem Rewrites.columns {s t : State} : Rewrites s t → ColumnsStand s t := by
  rintro ⟨_, _, rfl⟩
  exact .of_eq rfl rfl rfl

/-- What a channel's record shows is the same in all channels once it is in the one that is written. -/
theorem getChan_setChan_keeps {α : Type} (f : Chan → α) {ch : Nat} {v : Chan} {s : State} (h : f v = f (getChan s ch)) (c : Nat) :
    f (getChan (setChan ch v s) c) = f (getChan s c) := by
  by_cases hc : c = ch
  · subst hc
    rw [getChan_set_same, h]
  · rw [getChan_set_other _ hc]

theorem setChan_clocks {ch : Nat} {v : Chan} {s : State} (h : v.opp = (getChan s ch).opp) : ClocksStand s (setChan ch v s) :=
  ⟨rfl, rfl, getChan_setChan_keeps _ h⟩

theorem setChan_columns {ch : Nat} {v : Chan} {s : State} (ho : v.opp = (getChan s ch).opp) (hb : v.colBusy = (getChan s ch).colBusy)
    (hs : v.second = (getChan s ch).second) : ColumnsStand s (setChan ch v s) :=
  ⟨setChan_clocks ho, getChan_setChan_keeps _ hb, getChan_setChan_keeps _ hs⟩

theorem forEach_columns {α : Type} {f : α → State → State} (hf : ∀ x s, ColumnsStand s (f x s)) (l : List α) (s : State) :
    ColumnsStand s (forEach l f s) := forEach_relates .refl .trans hf l s

/-! ### What is counted, stored and decoded -/

theorem classCount_reports (ch : Nat) (c : Option Nat) (i flag n : Nat) (s : State) : Reports s (classCount ch c i flag n s) := by
  unfold classCount
  extract_lets
  split
  · exact .refl s
  · split
    · exact Reports.trans ⟨_, _, _, _, _, rfl⟩ (raise_messages _ _ _ _).reports
    · exact ⟨_, _, _, _, _, rfl⟩

theorem binCount_reports (ch c bin : Nat) (s : State) : Reports s (binCount ch c bin s) := by
  unfold binCount
  extract_lets
  split
  · exact .refl s
  · split
    · exact Reports.trans ⟨_, _, _, _, _, rfl⟩ (raise_messages _ _ _ _).reports
    · exact ⟨_, _, _, _, _, rfl⟩

theorem classCount_columns (ch : Nat) (c : Option Nat) (i flag n : Nat) (s : State) : ColumnsStand s (classCount ch c i flag n s) :=
  (classCount_reports ch c i flag n s).columns

theorem setCls_columns (ch c : Nat) (v : ClsCh) (s : State) : ColumnsStand s (setCls ch c v s) := .of_eq rfl rfl rfl

theorem completeReq_columns (ch : Nat) (r : LineReq) (s : State) : ColumnsStand s (completeReq ch r s) :=
  ((setCls_columns _ _ _ s).trans (classCount_columns _ _ _ _ _ _)).trans (binCount_reports _ _ _ _).columns

theorem storeLine_columns (ch loc dma keyId major minor : Nat) (plain : List Byte) (s : State) :
    ColumnsStand s (storeLine ch loc dma keyId major minor plain s) := by
  have huse (u : State) : ColumnsStand u (useRoundKeys ch keyId u) := .of_eq rfl rfl rfl
  exact ((writeData_rewrites _ _ _ s).columns.trans (writeMeta_rewrites _ _ _ _ _).columns).trans (huse _)

theorem startRewrite_columns (page region major : Nat) (moved : BitVec 64) (s : State) :
    ColumnsStand s (startRewrite page region major moved s) := by
  refine .trans ?_ (tenantCount_serves _ _ _ _).columns
  exact .of_eq rfl rfl rfl

theorem putLine_columns (region dma : Nat) (plain : List Byte) (s : State) : ColumnsStand s (putLine region dma plain s) := by
  have hmark (page idx : Nat) : ColumnsStand s (markMoved page idx s) := .of_eq rfl rfl rfl
  unfold putLine
  extract_lets h page idx minor k
  split
  · split
    · exact storeLine_columns _ _ _ _ _ _ _ s
    · exact (hmark _ _).trans (storeLine_columns _ _ _ _ _ _ _ _)
  · split
    · exact storeLine_columns _ _ _ _ _ _ _ s
    · exact (startRewrite_columns _ _ _ _ s).trans (storeLine_columns _ _ _ _ _ _ _ _)

theorem finishWrite_columns (ch : Nat) (r : LineReq) (s : State) : ColumnsStand s (finishWrite ch r s) := by
  have hsettle (u : State) : ColumnsStand u (writeSettled r u) := .of_eq rfl rfl rfl
  exact (((putLine_columns _ _ _ s).trans (classCount_columns _ _ _ _ _ _)).trans (hsettle _)).trans (completeReq_columns _ _ _)

theorem initLine_columns (dma : Nat) (s : State) : ColumnsStand s (initLine dma s) := by
  unfold initLine
  split
  · exact .refl s
  · refine .trans ?_ (storeLine_columns _ _ _ _ _ _ _ _)
    exact .of_eq rfl rfl rfl

theorem eraseWords_columns (i line : Nat) (s : State) : ColumnsStand s (eraseWords i line s) := by
  unfold eraseWords
  split
  · exact .refl s
  · exact (forEach_columns (fun p u => (writePageWord_rewrites p erasedWord u).columns) _ s).trans (.of_eq rfl rfl rfl)

theorem countBurst_columns (line : Nat) (d : Decoded) (s : State) : ColumnsStand s (countBurst line d s) := by
  unfold countBurst
  dsimp only
  split
  · exact setChan_columns rfl rfl rfl
  · have hrun (l : List Nat) : ColumnsStand s (setChan (lineChannel line)
        { getChan s (lineChannel line) with windowBursts := (getChan s (lineChannel line)).windowBursts + 1, uncRun := l } s) :=
      setChan_columns rfl rfl rfl
    split
    · exact (hrun _).trans (startRetirement_reports _ _).columns
    · exact hrun _
  · exact setChan_columns rfl rfl rfl

theorem earlyScrub_columns (ch line : Nat) (dma : Option Nat) (s : State) : ColumnsStand s (earlyScrub ch line dma s) := by
  unfold earlyScrub
  dsimp only
  split
  · exact setChan_columns rfl rfl rfl
  · exact (headCount_reports _ _ _).columns

theorem poisonNew_columns (ch loc dma : Nat) (s : State) : ColumnsStand s (poisonNew ch loc dma s) := by
  have hpoison : ColumnsStand s (countPoison (putPoisonData ch loc s)) := by
    obtain ⟨_, h⟩ := putPoisonData_dram ch loc s
    rw [h]
    exact .of_eq rfl rfl rfl
  unfold poisonNew countTenantAt
  split
  · exact .refl s
  · split
    · exact hpoison.trans (tenantCount_serves _ _ _ _).columns
    · exact hpoison

theorem rewriteLost_columns (page idx region : Nat) (s : State) : ColumnsStand s (rewriteLost page idx region s) := by
  have hdue : ColumnsStand s (noteDue page region s) := by
    unfold noteDue
    split
    · exact .refl s
    · exact .of_eq rfl rfl rfl
  unfold rewriteLost
  dsimp only
  split
  · split
    · exact hdue
    · exact .refl s
  · split
    · exact .refl s
    · split
      · exact startRewrite_columns _ _ _ _ s
      · exact hdue

theorem loseEntry_columns (ch kind loc : Nat) (s : State) : ColumnsStand s (loseEntry ch kind loc s) := by
  unfold loseEntry
  extract_lets dma s1
  have h1 : ColumnsStand s s1 :=
    ((poisonNew_columns _ _ _ s).trans (chanCount_reports _ _ _ _).columns).trans (raise_messages _ _ _ _).reports.columns
  split
  · exact h1.trans (rewriteLost_columns _ _ _ _)
  · exact h1

theorem loseMeta_columns (ch line kind : Nat) (s : State) : ColumnsStand s (loseMeta ch line kind s) :=
  (((writeLine_rewrites line [] s).columns.trans (chanCount_reports _ _ _ _).columns).trans
    (raise_messages _ _ _ _).reports.columns).trans (forEach_columns (loseEntry_columns ch kind) _ _)

theorem holdDecoded_columns (key line : Nat) (data : List Byte) (s : State) : ColumnsStand s (holdDecoded key line data s) := by
  unfold holdDecoded
  extract_lets t
  have ht : ColumnsStand s t := by
    dsimp only [t]
    split
    · exact .of_eq rfl rfl rfl
    · exact .refl s
  split
  · exact ht
  · exact ht.trans (.of_eq rfl rfl rfl)

theorem counterCorrection_columns (r : LineReq) (line : Nat) (lanes : List Nat) (nb : Nat) (er : Bool) (s : State) :
    ColumnsStand s (counterCorrection r line lanes nb er s) := by
  unfold counterCorrection
  extract_lets ch s1
  have h1 : ColumnsStand s s1 := (noteCorrection_reports _ _ _ _ _ _ _ s).columns
  split
  · exact h1
  · exact h1.trans (earlyScrub_columns _ _ _ _)

theorem decodeLine_columns (line : Nat) (path : Errors) (s : State) : ColumnsStand s (decodeLine s line path).2 := by
  have hdrawn : ColumnsStand s (drawn s) := .of_eq rfl rfl rfl
  exact hdrawn.trans (countBurst_columns _ _ _)

theorem decodeMeta_columns (ch : Nat) (r : LineReq) (es : Errors) (s : State) : ColumnsStand s (decodeMeta ch r es s).2 := by
  unfold decodeMeta
  extract_lets loc line d
  have hupsets : ColumnsStand s (addUpsets line es s) := by
    refine forEach_columns (fun _ _ => ?_) es s
    exact .of_eq rfl rfl rfl
  have hd : ColumnsStand s d.2 := hupsets.trans (decodeLine_columns line [] _)
  split
  · exact hd.trans (holdDecoded_columns _ _ _ _)
  · exact (hd.trans (holdDecoded_columns _ _ _ _)).trans (counterCorrection_columns _ _ _ _ _ _)
  · exact hd.trans (loseMeta_columns _ _ _ _)

/-! ### A turn of the calendar (R198, R202 to R206) -/

theorem journalCut_columns (ch action band : Nat) (cut : Nat × Nat × Nat) (s : State) : ColumnsStand s (journalCut ch action band cut s) :=
  (journalEvent_events _ _ _ _ s).columns

theorem applyCut_columns (ch band : Nat) (prior : List Nat) (cut : Nat × Nat × Nat) (s : State) :
    ColumnsStand s (applyCut ch band prior cut s) := by
  have hcut := journalCut_columns ch 0 band cut s
  unfold applyCut
  dsimp only
  split
  · exact hcut
  · exact hcut.trans (raise_messages _ _ _ _).reports.columns

theorem turnCalendar_columns (ch : Nat) (p : Plan) (s : State) : ColumnsStand s (turnCalendar ch p s) := by
  unfold turnCalendar
  extract_lets y plan fresh band lifted had s0 pos need s1 s2 cut
  have hlift (l : List (Nat × Nat × Nat)) (t : State) : ColumnsStand t (lifted l t) :=
    forEach_columns (journalCut_columns ch 1 band) l.reverse t
  have h0 : ColumnsStand s s0 := by
    dsimp only [s0]
    split
    · exact hlift _ s
    · exact .refl s
  have h2 : ColumnsStand s s2 := (h0.trans (hlift _ s0)).trans (forEach_columns (applyCut_columns ch band y.prior) _ s1)
  exact h2.trans (.of_eq rfl rfl rfl)

theorem ageLatency_columns (ch c : Nat) (s : State) : ColumnsStand s (ageLatency ch c s) := by
  unfold ageLatency
  split
  · split
    · exact setCls_columns _ _ _ s
    · exact .refl s
  · exact .refl s

theorem countLevel_columns (ch c : Nat) (s : State) : ColumnsStand s (countLevel ch c s) := by
  unfold countLevel
  dsimp only
  split
  · exact classCount_columns _ _ _ _ _ s
  · exact .refl s

theorem runTurn_columns (ch : Nat) (s : State) : ColumnsStand s (runTurn ch s) := by
  unfold runTurn
  extract_lets c s1 s2
  have h1 : ColumnsStand s s1 := setChan_columns rfl rfl rfl
  have h2 : ColumnsStand s s2 := by
    dsimp only [s2]
    split
    · exact h1.trans (turnCalendar_columns _ _ _)
    · exact h1
  exact h2.trans (forEach_columns (fun c t => (ageLatency_columns ch c t).trans (countLevel_columns ch c _)) _ s2)

/-! ### Commands that change timing alone (R167, R173) -/

/-- Nothing but the records of channels and banks differs, and no channel's count of opportunities or column commands under way. -/
structure Timing (s t : State) : Prop extends ColumnsStand s t where
  only : ∃ c b, t = { s with chans := c, banks := b }

theorem Timing.refl (s : State) : Timing s s := ⟨.refl s, s.chans, s.banks, rfl⟩

theorem Timing.trans {a b c : State} (h : Timing a b) (h' : Timing b c) : Timing a c := by
  refine ⟨h.toColumnsStand.trans h'.toColumnsStand, ?_⟩
  obtain ⟨_, _, hb⟩ := h.only
  obtain ⟨x, y, hc⟩ := h'.only
  exact ⟨x, y, by rw [hc, hb]⟩

theorem Timing.timed {s t : State} (h : Timing s t) : Timed s t := by
  obtain ⟨_, _, ht⟩ := h.only
  rw [ht]
  exact ⟨_, _, _, _, _, _, .refl _⟩

theorem Timing.bankQ {s t : State} (h : Timing s t) (ch b : Nat) : bankQ t ch b = bankQ s ch b := by
  obtain ⟨-, hpath, -⟩ := h.timed.kept
  unfold Machine.bankQ
  rw [hpath]

theorem setBank_timing (ch b : Nat) (v : DBank) (s : State) : Timing s (setBank ch b v s) := ⟨.of_eq rfl rfl rfl, _, _, rfl⟩

theorem setChan_timing {ch : Nat} {v : Chan} {s : State} (ho : v.opp = (getChan s ch).opp) (hb : v.colBusy = (getChan s ch).colBusy)
    (hs : v.second = (getChan s ch).second) : Timing s (setChan ch v s) := ⟨setChan_columns ho hb hs, _, _, rfl⟩

theorem autoPrecharge_timing (ch b : Nat) (s : State) : Timing s (autoPrecharge ch b s) := by
  unfold autoPrecharge
  dsimp only
  split
  · exact .refl s
  · split
    · exact .refl s
    · exact setBank_timing _ _ _ s

theorem noteColumn_timing (ch b : Nat) (write : Bool) (s : State) : Timing s (noteColumn ch b write s) := by
  unfold noteColumn
  refine Timing.trans ?_ (setBank_timing _ _ _ _)
  cases write with
  | false => exact setChan_timing rfl rfl rfl
  | true => exact setChan_timing rfl rfl rfl

theorem setBoth_timing {ch b : Nat} {v : Chan} {k : DBank} {s : State} (ho : v.opp = (getChan s ch).opp)
    (hb : v.colBusy = (getChan s ch).colBusy) (hs : v.second = (getChan s ch).second) : Timing s (setBank ch b k (setChan ch v s)) :=
  (setChan_timing ho hb hs).trans (setBank_timing _ _ _ _)

theorem precharge_timing (ch b : Nat) (s : State) : Timing s (precharge ch b s) := setBank_timing _ _ _ s

theorem activate_timing (ch b row : Nat) (s : State) : Timing s (activate ch b row s) := setBoth_timing rfl rfl rfl

theorem sampleRow_timing (ch b row : Nat) (s : State) : Timing s (sampleRow ch b row s) := by
  unfold sampleRow
  extract_lets c s1 k
  have h1 : Timing s s1 := setChan_timing rfl rfl rfl
  split
  · exact h1.trans (setBank_timing _ _ _ _)
  · exact h1

theorem issueRefresh_timing (ch b : Nat) (s : State) : Timing s (issueRefresh ch b s) := setBoth_timing rfl rfl rfl

theorem issueNeighbour_timing (ch b : Nat) (s : State) : Timing s (issueNeighbour ch b s) := setBoth_timing rfl rfl rfl

theorem forcedCommand_timing {s : State} {ch b : Nat} {f : State → State} (h : forcedCommand s ch b = some f) (u : State) :
    Timing u (f u) := by
  unfold forcedCommand at h
  dsimp only at h
  repeat' split at h
  all_goals cases h
  · exact precharge_timing ch b u
  · exact issueRefresh_timing ch b u
  · exact issueNeighbour_timing ch b u

theorem idleCommand_timing {s : State} {ch b : Nat} {f : State → State} (h : idleCommand s ch b = some f) (u : State) :
    Timing u (f u) := by
  unfold idleCommand at h
  dsimp only at h
  repeat' split at h
  all_goals cases h
  · exact precharge_timing ch b u
  · exact issueNeighbour_timing ch b u
  · exact issueRefresh_timing ch b u

/-! ### The pick (R168, R169, R195) -/

theorem mem_candidates {s : State} {ch c ptr b i : Nat} {e : BankEntry} {ok : Nat → List BankEntry → Nat → BankEntry → Bool}
    (h : (b, i, e) ∈ candidates s ch c ptr ok) : e.req.cls = c ∧ (bankQ s ch b)[i]? = some e ∧ ok b (bankQ s ch b) i e = true := by
  unfold candidates at h
  simp only [List.mem_flatten, List.mem_map, exists_exists_and_eq_and, List.mem_filterMap] at h
  obtain ⟨j, -, k, -, hk⟩ := h
  split at hk
  · next x hx =>
    split at hk
    · next hok =>
      cases hk
      simp only [Bool.and_eq_true, decide_eq_true_eq] at hok
      exact ⟨hok.1, hx, hok.2⟩
    · cases hk
  · cases hk

theorem oldestOf_mem {l : List (Nat × Nat × BankEntry)} {x : Nat × Nat × BankEntry} (h : oldestOf l = some x) : x ∈ l := by
  refine List.foldlRecOn l _ (motive := fun m => ∀ y, m = some y → y ∈ l) (fun _ hy => by cases hy) (fun m hm a ha y hy => ?_) x h
  split at hy
  · cases hy
    exact ha
  · next z =>
    split at hy
    · cases hy
      exact ha
    · exact hm y hy

theorem pick_mem {s : State} {ch c : Nat} {ok : Nat → List BankEntry → Nat → BankEntry → Bool} {x : Nat × Nat × BankEntry}
    (h : pick s ch c ok = some x) : x ∈ candidates s ch c (getChan s ch).bankPtr ok := by
  unfold pick at h
  dsimp only at h
  split at h
  · exact oldestOf_mem h
  · exact List.mem_of_head? h

theorem choosePick_timing (s : State) (ch : Nat) (ok : Nat → List BankEntry → Nat → BankEntry → Bool) : Timing s (choosePick s ch ok).2 := by
  unfold choosePick
  split
  · exact .refl s
  · split
    · exact .refl s
    · exact setChan_timing rfl rfl rfl

/-- A choice is an entry of its bank queue that can be served, of the class that the slot names. -/
theorem choosePick_some {s u : State} {ch b i : Nat} {e : BankEntry} {ok : Nat → List BankEntry → Nat → BankEntry → Bool}
    (h : choosePick s ch ok = (some (b, i, e), u)) : ∃ c m, namedClass s ch (fun d => (pick s ch d ok).isSome) = some (c, m) ∧
      e.req.cls = c ∧ (bankQ s ch b)[i]? = some e ∧ ok b (bankQ s ch b) i e = true := by
  unfold choosePick at h
  split at h
  · cases h
  · next c m hc =>
    split at h
    · cases h
    · next x hx =>
      obtain rfl := Option.some.inj (congrArg Prod.fst h)
      exact ⟨c, m, hc, mem_candidates (pick_mem hx)⟩

/-- Where nothing is chosen no pointer moves. -/
theorem choosePick_none {s : State} {ch : Nat} {ok : Nat → List BankEntry → Nat → BankEntry → Bool}
    (h : (choosePick s ch ok).1 = none) : choosePick s ch ok = (none, s) := by
  unfold choosePick at h ⊢
  split at h
  · rfl
  · split at h
    · rfl
    · cases h

/-! ### The row command (R167) -/

theorem rowCommand_timing (ch : Nat) (s : State) : Timing s (rowCommand ch s) := by
  unfold rowCommand
  split
  · next f hf =>
    obtain ⟨b, -, hb⟩ := List.exists_of_findSome?_eq_some hf
    exact forcedCommand_timing hb s
  · have hpick := choosePick_timing s ch (rowEligible s ch)
    split
    · next s1 hs1 =>
      rw [hs1] at hpick
      split
      · exact hpick.trans (precharge_timing _ _ _)
      · exact (hpick.trans (activate_timing _ _ _ _)).trans (sampleRow_timing _ _ _ _)
    · next s1 hs1 =>
      rw [hs1] at hpick
      split
      · next f hf =>
        obtain ⟨b, -, hb⟩ := List.exists_of_findSome?_eq_some hf
        exact hpick.trans (idleCommand_timing hb s1)
      · split
        · exact hpick.trans (precharge_timing _ _ _)
        · exact hpick

/-- With no forced work, a request chosen for a closed bank has its row opened (R167, R168). -/
theorem rowCommand_activates {ch b i : Nat} {e : BankEntry} {u v : State} (hf : ∀ d < 32, (forcedCommand u ch d).isNone = true)
    (hp : choosePick u ch (rowEligible u ch) = (some (b, i, e), v)) (ho : (getBank v ch b).openRow = none) :
    rowCommand ch u = sampleRow ch b (rowOf v ch e.req) (activate ch b (rowOf v ch e.req) v) := by
  have hnone : (upTo 32).findSome? (fun d => forcedCommand u ch d) = none :=
    List.findSome?_eq_none_iff.mpr fun d hd => Option.isNone_iff_eq_none.mp (hf d (List.mem_range.mp hd))
  unfold rowCommand
  simp only [hnone, hp, ho]

/-- The sampling of an activate leaves the row open and its timing (R177). -/
theorem getBank_sampleRow (ch b row : Nat) (s : State) :
    (getBank (sampleRow ch b row s) ch b).openRow = (getBank s ch b).openRow ∧
      (getBank (sampleRow ch b row s) ch b).colOk = (getBank s ch b).colOk := by
  unfold sampleRow
  extract_lets c s1 k
  split
  · rw [getBank_set_same]
    exact ⟨rfl, rfl⟩
  · exact ⟨rfl, rfl⟩

theorem getBank_activate (ch b row : Nat) (s : State) : (getBank (activate ch b row s) ch b).openRow = some row ∧
    (getBank (activate ch b row s) ch b).colOk = cycleOf s ch + 42 := by
  unfold activate
  simp only [getBank_set_same, and_self]

/-! ### The column command (R171) -/

/-- A visit's burst waits for its visit. -/
theorem lastColumn_visit {e : BankEntry} (hk : e.req.kind = .visit) (ch b : Nat) (s : State) :
    Timed (setArrivedVisits ch (arrivedVisits s ch ++ [e.req]) s) (lastColumn ch b e s) := by
  unfold lastColumn
  simp only [hk]
  exact (classCount_timed _ _ _ _ _ _).trans (autoPrecharge_timed _ _ _)

/-- The page words of a line under erase are written, and its lock is released. -/
theorem lastColumn_erase {e : BankEntry} (hk : e.req.kind = .erase) (ch b : Nat) (s : State) :
    Timed (unlockVisit e.req (eraseWords e.req.region (reqLine s ch e.req) s)) (lastColumn ch b e s) := by
  unfold lastColumn
  simp only [hk]
  exact ((classCount_timed _ _ _ _ _ _).trans (classCount_timed _ _ _ _ _ _)).trans (autoPrecharge_timed _ _ _)

/-- The burst of a request that reads is on its way with the word as it stands. -/
theorem lastColumn_reads {e : BankEntry} (hvisit : e.req.kind ≠ .visit) (hwrite : e.req.kind ≠ .fullWrite) (hzero : e.req.kind ≠ .zero)
    (herase : e.req.kind ≠ .erase) (ch b : Nat) (s : State) :
    Timed (setInFlight ch (inFlight s ch ++ [readBurst ch e.req (!e.metaIssued) s]) s) (lastColumn ch b e s) := by
  unfold lastColumn
  dsimp only
  split
  · contradiction
  · contradiction
  · contradiction
  · contradiction
  · exact (classCount_timed _ _ _ _ _ _).trans (autoPrecharge_timed _ _ _)
  · split
    · exact (classCount_timed _ _ _ _ _ _).trans (setBank_timed _ _ _ _)
    · exact (classCount_timed _ _ _ _ _ _).trans (autoPrecharge_timed _ _ _)

theorem lastColumn_columns (ch b : Nat) (e : BankEntry) (s : State) : ColumnsStand s (lastColumn ch b e s) := by
  have hvisit (l : List LineReq) : ColumnsStand s (setArrivedVisits ch l s) := .of_eq rfl rfl rfl
  have hflight (l : List Burst) : ColumnsStand s (setInFlight ch l s) := .of_eq rfl rfl rfl
  have hunlock (u : State) : ColumnsStand u (unlockVisit e.req u) := .of_eq rfl rfl rfl
  have hclose (u : State) : ColumnsStand u (autoPrecharge ch b u) := (autoPrecharge_timing ch b u).toColumnsStand
  have hcount (c : Option Nat) (i flag n : Nat) (u : State) : ColumnsStand u (autoPrecharge ch b (classCount ch c i flag n u)) :=
    (classCount_columns _ _ _ _ _ u).trans (hclose _)
  unfold lastColumn
  dsimp only
  split
  · exact (hvisit _).trans (hcount _ _ _ _ _)
  · exact (finishWrite_columns _ _ s).trans (hclose _)
  · exact ((initLine_columns _ s).trans (classCount_columns _ _ _ _ _ _)).trans (hcount _ _ _ _ _)
  · exact (((eraseWords_columns _ _ s).trans (hunlock _)).trans (classCount_columns _ _ _ _ _ _)).trans (hcount _ _ _ _ _)
  · exact (hflight _).trans (hcount _ _ _ _ _)
  · split
    · exact ((hflight _).trans (classCount_columns _ _ _ _ _ _)).trans (setBank_timing _ _ _ _).toColumnsStand
    · exact (hflight _).trans (hcount _ _ _ _ _)

/-- An entry has left its bank queue with its column command, whose timing is noted. -/
def entryTaken (ch b i : Nat) (e : BankEntry) (s : State) : State :=
  noteColumn ch b (writesNext e) (setBankQ ch b ((bankQ s ch b).eraseIdx i) s)

/-- The second command of an entry is to follow (R171). -/
def secondFollows (ch b : Nat) (e : BankEntry) (s : State) : State :=
  setChan ch { getChan s ch with second := some { bank := b, entry := e, left := 1 } } s

/-- An entry takes a second column command: a write of a line, or a read with its metadata line (R171). -/
def takesSecond (e : BankEntry) : Prop := (writesNext e = true ∧ e.req.kind ≠ .erase) ∨ e.metaIssued = false

theorem firstColumn_looks {e : BankEntry} (h : e.req.kind = .fullWrite ∧ e.metaIssued = false) (ch b i : Nat) (s : State) :
    firstColumn ch b i e s =
      noteColumn ch b false (setBankQ ch b ((bankQ s ch b).set i { e with metaIssued := true }) (decodeMeta ch e.req [] s).2) := by
  unfold firstColumn
  rw [if_pos (by simp [h])]

theorem firstColumn_holds {e : BankEntry} (h : ¬(e.req.kind = .fullWrite ∧ e.metaIssued = false)) (h2 : takesSecond e) (ch b i : Nat)
    (s : State) : firstColumn ch b i e s = secondFollows ch b e (entryTaken ch b i e s) := by
  unfold firstColumn
  rw [if_neg (by simpa using h), if_pos (by simpa [takesSecond] using h2)]
  rfl

theorem firstColumn_ends {e : BankEntry} (h : ¬(e.req.kind = .fullWrite ∧ e.metaIssued = false)) (h2 : ¬takesSecond e) (ch b i : Nat)
    (s : State) : firstColumn ch b i e s = lastColumn ch b e (entryTaken ch b i e s) := by
  unfold firstColumn
  rw [if_neg (by simpa using h), if_neg (by simpa [takesSecond] using h2)]
  rfl

theorem setBankQ_columns (ch b : Nat) (l : List BankEntry) (s : State) : ColumnsStand s (setBankQ ch b l s) := .of_eq rfl rfl rfl

theorem entryTaken_columns (ch b i : Nat) (e : BankEntry) (s : State) : ColumnsStand s (entryTaken ch b i e s) :=
  (setBankQ_columns _ _ _ s).trans (noteColumn_timing _ _ _ _).toColumnsStand

theorem firstColumn_clocks (ch b i : Nat) (e : BankEntry) (s : State) : ClocksStand s (firstColumn ch b i e s) := by
  by_cases h : e.req.kind = .fullWrite ∧ e.metaIssued = false
  · rw [firstColumn_looks h]
    exact (((decodeMeta_columns _ _ _ s).trans (setBankQ_columns _ _ _ _)).trans (noteColumn_timing _ _ _ _).toColumnsStand).toClocksStand
  · have htaken := entryTaken_columns ch b i e s
    by_cases h2 : takesSecond e
    · rw [firstColumn_holds h h2]
      exact htaken.toClocksStand.trans (setChan_clocks rfl)
    · rw [firstColumn_ends h h2]
      exact (htaken.trans (lastColumn_columns _ _ _ _)).toClocksStand

/-! Which column command an opportunity has (R167, R195). -/

section
variable {ch : Nat} {s : State}

theorem columnCommand_busy {n : Nat} (h : (getChan s ch).colBusy = n + 1) :
    columnCommand ch s = (true, setChan ch { getChan s ch with colBusy := n } s) := by
  unfold columnCommand
  rw [if_pos (by omega), h]
  rfl

theorem columnCommand_second {x : SecondCol} (hb : (getChan s ch).colBusy = 0) (h : (getChan s ch).second = some x) :
    columnCommand ch s = (true, lastColumn ch x.bank x.entry
      (noteColumn ch x.bank (isStore x.entry.req.kind) (setChan ch { getChan s ch with second := none } s))) := by
  unfold columnCommand
  rw [if_neg (by omega), h]

theorem columnCommand_chosen {b i : Nat} {e : BankEntry} {u : State} (hb : (getChan s ch).colBusy = 0) (h : (getChan s ch).second = none)
    (hp : choosePick s ch (columnEligible s ch) = (some (b, i, e), u)) : columnCommand ch s = (true, firstColumn ch b i e u) := by
  unfold columnCommand
  rw [if_neg (by omega), h, hp]

theorem columnCommand_none (hb : (getChan s ch).colBusy = 0) (h : (getChan s ch).second = none)
    (hp : (choosePick s ch (columnEligible s ch)).1 = none) : columnCommand ch s = (false, s) := by
  unfold columnCommand
  rw [if_neg (by omega), h, choosePick_none hp]

end

/-- A second column command that waited is issued (R171). -/
theorem columnCommand_takesSecond {ch : Nat} {s : State} (hb : (getChan s ch).colBusy = 0) (h : (getChan s ch).second ≠ none) :
    ClocksStand s (columnCommand ch s).2 ∧ (getChan (columnCommand ch s).2 ch).second = none := by
  obtain ⟨x, hx⟩ := Option.ne_none_iff_exists'.mp h
  rw [columnCommand_second hb hx]
  have hset : ClocksStand s (setChan ch { getChan s ch with second := none } s) := setChan_clocks rfl
  have hcol := (noteColumn_timing ch x.bank (isStore x.entry.req.kind) (setChan ch { getChan s ch with second := none } s)).toColumnsStand.trans
    (lastColumn_columns ch x.bank x.entry _)
  exact ⟨hset.trans hcol.toClocksStand, by rw [hcol.second, getChan_set_same]⟩

theorem columnCommand_clocks (ch : Nat) (s : State) : ClocksStand s (columnCommand ch s).2 := by
  cases hb : (getChan s ch).colBusy with
  | succ n =>
    rw [columnCommand_busy hb]
    exact setChan_clocks rfl
  | zero =>
    by_cases h : (getChan s ch).second = none
    · match hp : choosePick s ch (columnEligible s ch) with
      | (none, u) =>
        rw [columnCommand_none hb h (by rw [hp])]
        exact (ColumnsStand.refl s).toClocksStand
      | (some (b, i, e), u) =>
        have hu := choosePick_timing s ch (columnEligible s ch)
        rw [hp] at hu
        rw [columnCommand_chosen hb h hp]
        exact hu.toClocksStand.trans (firstColumn_clocks _ _ _ _ _)
    · exact (columnCommand_takesSecond hb h).1

/-! ### What an opportunity leaves (R167) -/

/-- The row command that follows a column command, and the end of the opportunity, which is counted where it had no column command. -/
def opportunityOver (ch : Nat) (r : Bool × State) : State :=
  nextOpportunity ch (if r.1 then rowCommand ch r.2 else classCount ch none 1 1 1 (rowCommand ch r.2))

theorem burstOpportunity_eq {ch : Fin 64} {s : State} (h : engineRuns s ch.val = true) : exec (.burstOpportunity ch) s =
    .next (opportunityOver ch.val (columnCommand ch.val (if turnDue s ch.val then runTurn ch.val s else s))) := by
  show execBurstOpportunity ch s = _
  unfold execBurstOpportunity
  simp only [h, Bool.not_true, Bool.false_eq_true, if_false]
  rfl

theorem nextOpportunity_reports (ch : Nat) (s : State) :
    Reports (setChan ch { getChan s ch with opp := (getChan s ch).opp + 1, turned := false } s) (nextOpportunity ch s) := by
  unfold nextOpportunity
  dsimp only
  split
  · exact classCount_reports _ _ _ _ _ _
  · exact .refl _

/-- Nothing that an opportunity with no column command counts moves a bank or a channel. -/
theorem opportunityOver_reports (ch : Nat) (r : Bool × State) : ∃ u, Reports (rowCommand ch r.2) u ∧
    Reports (setChan ch { getChan u ch with opp := (getChan u ch).opp + 1, turned := false } u) (opportunityOver ch r) := by
  refine ⟨_, ?_, nextOpportunity_reports ch _⟩
  split
  · exact .refl _
  · exact classCount_reports _ _ _ _ _ _

theorem Reports.kept {s t : State} : Reports s t → t.path = s.path ∧ t.dram = s.dram ∧ t.banks = s.banks := by
  rintro ⟨_, _, _, _, _, rfl⟩
  exact ⟨rfl, rfl, rfl⟩

/-- What follows the column command of an opportunity: the memory path and the array stand, and the channel's count moves on by one. -/
structure MovesOn (ch : Nat) (s t : State) : Prop where
  path : t.path = s.path
  dram : t.dram = s.dram
  keys : t.keys = s.keys
  flash : t.flash = s.flash
  own : (getChan t ch).opp = (getChan s ch).opp + 1
  others : ∀ c, c ≠ ch → (getChan t c).opp = (getChan s c).opp
  colBusy : (getChan t ch).colBusy = (getChan s ch).colBusy
  second : (getChan t ch).second = (getChan s ch).second

theorem opportunityOver_movesOn (ch : Nat) (r : Bool × State) : MovesOn ch r.2 (opportunityOver ch r) := by
  obtain ⟨u, hu, ht⟩ := opportunityOver_reports ch r
  have hrow := rowCommand_timing ch r.2
  obtain ⟨hdram, hpath, -⟩ := hrow.timed.kept
  obtain ⟨hupath, hudram, -⟩ := hu.kept
  obtain ⟨htpath, htdram, -⟩ := ht.kept
  have hcol := hrow.toColumnsStand.trans hu.columns
  have hend := ht.columns
  refine ⟨htpath.trans (hupath.trans hpath), htdram.trans (hudram.trans hdram), hend.keys.trans hcol.keys, hend.flash.trans hcol.flash,
    ?_, fun c hc => ?_, ?_, ?_⟩
  · rw [hend.opp, getChan_set_same, hcol.opp]
  · rw [hend.opp, getChan_set_other _ hc, hcol.opp]
  · rw [hend.colBusy, getChan_set_same, hcol.colBusy]
  · rw [hend.second, getChan_set_same, hcol.second]

theorem opportunityOver_bank (ch : Nat) (r : Bool × State) (b : Nat) : getBank (opportunityOver ch r) ch b = getBank (rowCommand ch r.2) ch b := by
  obtain ⟨u, hu, ht⟩ := opportunityOver_reports ch r
  obtain ⟨-, -, hub⟩ := hu.kept
  obtain ⟨-, -, htb⟩ := ht.kept
  unfold getBank
  rw [htb, ← hub]
  rfl

/-! ### What the column command of a chosen entry brings (R168, R171) -/

/-- Other records of channels and banks, and another memory path: what neither a burst nor the erase of page words reads. -/
def withEngines (c : Table Chan) (k : Table DBank) (p : Path) (s : State) : State := { s with chans := c, banks := k, path := p }

theorem readBurst_withEngines (c : Table Chan) (k : Table DBank) (p : Path) (ch : Nat) (r : LineReq) (m : Bool) (s : State) :
    readBurst ch r m (withEngines c k p s) = readBurst ch r m s := rfl

theorem writePageWord_withEngines (c : Table Chan) (k : Table DBank) (p : Path) (page : Nat) (w : BitVec 32) (s : State) :
    writePageWord page w (withEngines c k p s) = withEngines c k p (writePageWord page w s) := by
  have hsettle (line : Nat) : settleMisread line (withEngines c k p s) = withEngines c k p (settleMisread line s) := by
    have hmis : misreadOf (withEngines c k p s) line = misreadOf s line := rfl
    unfold settleMisread
    rw [hmis]
    split
    · rfl
    · rfl
  have hhome : pageWordHome (withEngines c k p s) page = pageWordHome s page := rfl
  unfold writePageWord
  dsimp only
  rw [hhome, hsettle]
  rfl

theorem eraseWords_withEngines (c : Table Chan) (k : Table DBank) (p : Path) (i line : Nat) (s : State) :
    eraseWords i line (withEngines c k p s) = withEngines c k p (eraseWords i line s) := by
  have hregion (u : State) : getRegion (withEngines c k p u) i = getRegion u i := rfl
  have hlist : (unerased (withEngines c k p s) i).filter (fun q => (pageWordHome (withEngines c k p s) q).1 = line) =
      (unerased s i).filter (fun q => (pageWordHome s q).1 = line) := rfl
  have hloop (l : List Nat) : forEach l (fun q u => writePageWord q erasedWord u) (withEngines c k p s) =
      withEngines c k p (forEach l (fun q u => writePageWord q erasedWord u) s) :=
    List.foldl_hom (withEngines c k p) fun u q => writePageWord_withEngines c k p q erasedWord u
  unfold eraseWords
  simp only [hregion, hlist, hloop]
  split
  · rfl
  · rfl

theorem eraseWords_path (i line : Nat) (s : State) : (eraseWords i line s).path = s.path := by
  unfold eraseWords
  split
  · rfl
  · obtain ⟨hpath, -⟩ := (forEach_relates .refl .trans (fun q u => writePageWord_rewrites q erasedWord u) _ s).kept
    exact hpath

theorem entryTaken_path (ch b i : Nat) (e : BankEntry) (s : State) :
    (entryTaken ch b i e s).path = (setBankQ ch b ((bankQ s ch b).eraseIdx i) s).path := by
  obtain ⟨-, hpath, -⟩ := (noteColumn_timing ch b (writesNext e) (setBankQ ch b ((bankQ s ch b).eraseIdx i) s)).timed.kept
  exact hpath

theorem entryTaken_bankQ (ch b i : Nat) (e : BankEntry) (s : State) : bankQ (entryTaken ch b i e s) ch b = (bankQ s ch b).eraseIdx i :=
  ((noteColumn_timing _ _ _ _).bankQ ch b).trans (bankQ_set_same _ _ _ _)

theorem entryTaken_engines {s u : State} (h : Timing s u) (ch b i : Nat) (e : BankEntry) :
    ∃ c k p, entryTaken ch b i e u = withEngines c k p s := by
  obtain ⟨_, _, hu⟩ := h.only
  obtain ⟨c, k, ht⟩ := (noteColumn_timing ch b (writesNext e) (setBankQ ch b ((bankQ u ch b).eraseIdx i) u)).only
  refine ⟨c, k, (setBankQ ch b ((bankQ u ch b).eraseIdx i) u).path, ?_⟩
  unfold entryTaken
  rw [ht, hu]
  rfl

/-- An entry that takes no second command is no write of a line, and needs no metadata line. -/
theorem issued_of_not_takesSecond {e : BankEntry} (h : ¬takesSecond e) :
    e.metaIssued = true ∧ e.req.kind ≠ .fullWrite ∧ e.req.kind ≠ .zero := by
  unfold takesSecond at h
  obtain ⟨hw, hm⟩ := not_or.mp h
  have hissued : e.metaIssued = true := by simpa using hm
  refine ⟨hissued, fun hk => hw ?_, fun hk => hw ?_⟩
  · simp [writesNext, isStore, hk, hissued]
  · simp [writesNext, isStore, hk, hissued]

/-- The last column command of such an entry leaves the bank queues. -/
theorem lastColumn_bankQ {e : BankEntry} (h : ¬takesSecond e) (ch b c k : Nat) (s : State) :
    bankQ (lastColumn ch b e s) c k = bankQ s c k := by
  obtain ⟨-, hwrite, hzero⟩ := issued_of_not_takesSecond h
  have hqueue {v t : State} (ht : Timed v t) (hv : v.path.bankQ = s.path.bankQ) : bankQ t c k = bankQ s c k := by
    obtain ⟨-, hpath, -⟩ := ht.kept
    unfold bankQ
    rw [hpath, hv]
  by_cases hvisit : e.req.kind = .visit
  · exact hqueue (lastColumn_visit hvisit ch b s) rfl
  · by_cases herase : e.req.kind = .erase
    · have hpath := eraseWords_path e.req.region (reqLine s ch e.req) s
      refine hqueue (lastColumn_erase herase ch b s) ?_
      show (eraseWords e.req.region (reqLine s ch e.req) s).path.bankQ = _
      rw [hpath]
    · exact hqueue (lastColumn_reads hvisit hwrite hzero herase ch b s) rfl

section
variable {ch b i : Nat} {e : BankEntry} {s u t : State} (hu : Timing s u) (ht : MovesOn ch (firstColumn ch b i e u) t)
include hu ht

/-- A write whose minor counter is not known keeps its place, with its metadata line read (R145). -/
theorem chosen_looks (h : e.req.kind = .fullWrite ∧ e.metaIssued = false) :
    bankQ t ch b = (bankQ s ch b).set i { e with metaIssued := true } := by
  have hfirst : bankQ (firstColumn ch b i e u) ch b = (bankQ u ch b).set i { e with metaIssued := true } := by
    rw [firstColumn_looks h, (noteColumn_timing _ _ _ _).bankQ, bankQ_set_same]
  rw [← hu.bankQ, ← hfirst]
  unfold bankQ
  rw [ht.path]

/-- Another entry leaves its bank queue. -/
theorem chosen_leaves (h : ¬(e.req.kind = .fullWrite ∧ e.metaIssued = false)) : bankQ t ch b = (bankQ s ch b).eraseIdx i := by
  have hfirst : bankQ (firstColumn ch b i e u) ch b = (bankQ u ch b).eraseIdx i := by
    by_cases h2 : takesSecond e
    · rw [firstColumn_holds h h2]
      exact entryTaken_bankQ ch b i e u
    · rw [firstColumn_ends h h2, lastColumn_bankQ h2, entryTaken_bankQ]
  rw [← hu.bankQ, ← hfirst]
  unfold bankQ
  rw [ht.path]

omit hu in
theorem chosen_holds (h : ¬(e.req.kind = .fullWrite ∧ e.metaIssued = false)) (h2 : takesSecond e) :
    (getChan t ch).second = some { bank := b, entry := e, left := 1 } := by
  rw [ht.second, firstColumn_holds h h2]
  unfold secondFollows
  rw [getChan_set_same]

variable (h : ¬(e.req.kind = .fullWrite ∧ e.metaIssued = false)) (h2 : ¬takesSecond e)
include h h2

theorem chosen_visits (hk : e.req.kind = .visit) : arrivedVisits t ch = arrivedVisits s ch ++ [e.req] := by
  obtain ⟨-, hsame, -⟩ := hu.timed.kept
  obtain ⟨-, hlast, -⟩ := (lastColumn_visit hk ch b (entryTaken ch b i e u)).kept
  have htaken : arrivedVisits (entryTaken ch b i e u) ch = arrivedVisits s ch := by
    unfold arrivedVisits
    rw [entryTaken_path, ← hsame]
    rfl
  rw [← htaken, ← arrivedVisits_set_same ch (_ ++ [e.req]) (s := entryTaken ch b i e u)]
  unfold arrivedVisits at hlast ⊢
  rw [ht.path, firstColumn_ends h h2, hlast]

theorem chosen_erases (hk : e.req.kind = .erase) : t.dram = (eraseWords e.req.region (reqLine s ch e.req) s).dram := by
  obtain ⟨c, k, p, htaken⟩ := entryTaken_engines hu ch b i e
  obtain ⟨hlast, -⟩ := (lastColumn_erase hk ch b (entryTaken ch b i e u)).kept
  have hline : reqLine (withEngines c k p s) ch e.req = reqLine s ch e.req := rfl
  rw [ht.dram, firstColumn_ends h h2, hlast, htaken, hline]
  show (eraseWords e.req.region (reqLine s ch e.req) (withEngines c k p s)).dram = _
  rw [eraseWords_withEngines]
  rfl

theorem chosen_reads (hvisit : e.req.kind ≠ .visit) (herase : e.req.kind ≠ .erase) :
    inFlight t ch = inFlight s ch ++ [readBurst ch e.req false s] := by
  obtain ⟨hissued, hwrite, hzero⟩ := issued_of_not_takesSecond h2
  obtain ⟨-, hsame, -⟩ := hu.timed.kept
  obtain ⟨-, hlast, -⟩ := (lastColumn_reads hvisit hwrite hzero herase ch b (entryTaken ch b i e u)).kept
  have hflight : inFlight (entryTaken ch b i e u) ch = inFlight s ch := by
    unfold inFlight
    rw [entryTaken_path, ← hsame]
    rfl
  have hburst : readBurst ch e.req (!e.metaIssued) (entryTaken ch b i e u) = readBurst ch e.req false s := by
    obtain ⟨c, k, p, htaken⟩ := entryTaken_engines hu ch b i e
    rw [htaken, readBurst_withEngines, hissued]
    rfl
  have hset : inFlight t ch = inFlight (setInFlight ch (inFlight (entryTaken ch b i e u) ch ++
      [readBurst ch e.req (!e.metaIssued) (entryTaken ch b i e u)]) (entryTaken ch b i e u)) ch := by
    unfold inFlight at hlast ⊢
    rw [ht.path, firstColumn_ends h h2, hlast]
  rw [hset, inFlight_set_same, hflight, hburst]

end

/-! ### Refresh, neighbours, express rows and the sampler (R170, R174, R175, R177, R179) -/

/-- What is reported beside the write of a bank leaves the bank as written. -/
theorem Messages.ownBank {ch b : Nat} {v : DBank} {s t : State} (h : Messages (setBank ch b v s) t) :
    getBank t ch b = v ∧ Messages (setBank ch b (getBank t ch b) s) t := by
  have hbank : getBank t ch b = v := by
    obtain ⟨_, _, _, _, rfl⟩ := h
    exact getBank_set_same _ ch b v
  exact ⟨hbank, hbank.symm ▸ h⟩

section
variable {ch : Fin 64} {s : State} (hr : engineRuns s ch.val = true) (b : Fin 32)
include hr

theorem refreshInterval_owes : ∃ t, exec (.refreshInterval ch b) s = .next t ∧ Messages (setBank ch.val b.val (getBank t ch.val b.val) s) t ∧
    (getBank t ch.val b.val).owed = (getBank s ch.val b.val).owed + 1 ∧
    (getBank t ch.val b.val).forcedRefresh = (if 8 ≤ (getBank s ch.val b.val).owed + 1
      then satAdd max32 (getBank s ch.val b.val).forcedRefresh 1 else (getBank s ch.val b.val).forcedRefresh) := by
  show ∃ t, execRefreshInterval ch b s = .next t ∧ _
  unfold execRefreshInterval
  rw [hr, if_neg (by decide)]
  dsimp only
  split
  · obtain ⟨hbank, hmsg⟩ := (raiseLimited_messages ch.val 0x08 (engineAddr ch.val b.val) (setBank ch.val b.val { getBank s ch.val b.val with
      owed := (getBank s ch.val b.val).owed + 1, forcedRefresh := satAdd max32 (getBank s ch.val b.val).forcedRefresh 1 } s)).ownBank
    exact ⟨_, rfl, hmsg, by rw [hbank], by rw [hbank]⟩
  · obtain ⟨hbank, hmsg⟩ := (Messages.refl (setBank ch.val b.val { getBank s ch.val b.val with
      owed := (getBank s ch.val b.val).owed + 1 } s)).ownBank
    exact ⟨_, rfl, hmsg, by rw [hbank], by rw [hbank]⟩

theorem neighbourRefreshDeadline_forces (h : ∃ n ∈ (getBank s ch.val b.val).neighbours, n.forced = false) :
    ∃ t, exec (.neighbourRefreshDeadline ch b) s = .next t ∧ Messages (setBank ch.val b.val (getBank t ch.val b.val) s) t ∧
      (getBank t ch.val b.val).neighbours = forceFirst (getBank s ch.val b.val).neighbours ∧
      (getBank t ch.val b.val).forcedNeighbour = satAdd max32 (getBank s ch.val b.val).forcedNeighbour 1 := by
  have hsome : (getBank s ch.val b.val).neighbours.all (fun n => n.forced) = false := by
    obtain ⟨n, hn, hf⟩ := h
    exact List.all_eq_false.mpr ⟨n, hn, by simp [hf]⟩
  show ∃ t, execNeighbourRefreshDeadline ch b s = .next t ∧ _
  unfold execNeighbourRefreshDeadline
  dsimp only
  rw [hr, hsome, if_neg (by decide)]
  obtain ⟨hbank, hmsg⟩ := (raiseLimited_messages ch.val 0x07 (engineAddr ch.val b.val) (setBank ch.val b.val { getBank s ch.val b.val with
    neighbours := forceFirst (getBank s ch.val b.val).neighbours,
    forcedNeighbour := satAdd max32 (getBank s ch.val b.val).forcedNeighbour 1 } s)).ownBank
  exact ⟨_, rfl, hmsg, by rw [hbank], by rw [hbank]⟩

theorem expressRowTimeout_closes (h : staleRow s ch.val b.val = true) :
    ∃ t, exec (.expressRowTimeout ch b) s = .next t ∧ t = setBank ch.val b.val (getBank t ch.val b.val) s ∧
      (getBank t ch.val b.val).openRow = none ∧ cycleOf s ch.val + 42 ≤ (getBank t ch.val b.val).actOk := by
  have hbank : getBank (precharge ch.val b.val s) ch.val b.val = closeRow (cycleOf s ch.val) (getBank s ch.val b.val) :=
    getBank_set_same _ _ _ _
  refine ⟨precharge ch.val b.val s, ?_, by rw [hbank]; rfl, by rw [hbank]; rfl, ?_⟩
  · show execExpressRowTimeout ch b s = _
    unfold execExpressRowTimeout
    rw [hr, h]
    rfl
  · rw [hbank]
    unfold closeRow
    dsimp only
    omega

end

theorem generate_requests (n : Nat) (s : State) :
    (generate n s).2.drbg.requests = if 1024 ≤ s.drbg.requests then 1 else s.drbg.requests + 1 := by
  simp only [generate]
  split
  · simp only [reseed, drawn]
  · rfl

theorem seedSampler_eq {s u : State} {seed : BitVec 64} (h : generate 64 s = (seed, u)) (ch : Nat) :
    seedSampler ch s = setChan ch { getChan u ch with sampleSeed := seed, sampleDraws := 0 } u := by
  unfold seedSampler
  rw [h]

theorem rowDisturbReseed_seeds {ch : Fin 64} {s : State} (h : s.drbg.instantiated = true) :
    ∃ t, exec (.rowDisturbReseed ch) s = .next t ∧ (getChan t ch.val).sampleDraws = 0 ∧ (getChan t ch.val).sampleSeed = (generate 64 s).1 ∧
      t.drbg.requests = (if 1024 ≤ s.drbg.requests then 1 else s.drbg.requests + 1) ∧ t.banks = s.banks ∧ t.dram = s.dram := by
  have hreq := generate_requests 64 s
  obtain ⟨hdram, hbanks⟩ : (generate 64 s).2.dram = s.dram ∧ (generate 64 s).2.banks = s.banks := by
    obtain ⟨_, _, hgen⟩ := generate_frame 64 s
    rw [hgen]
    exact ⟨rfl, rfl⟩
  have hexec : exec (.rowDisturbReseed ch) s = .next (seedSampler ch.val s) := by
    show execRowDisturbReseed ch s = _
    unfold execRowDisturbReseed
    rw [h]
    rfl
  obtain ⟨seed, u, hg⟩ : ∃ seed u, generate 64 s = (seed, u) := ⟨_, _, rfl⟩
  rw [hg] at hreq hdram hbanks ⊢
  refine ⟨_, hexec, ?_⟩
  rw [seedSampler_eq hg, getChan_set_same]
  exact ⟨rfl, rfl, hreq, hbanks, hdram⟩

/-! ### BURST_OPPORTUNITY (R166 to R171, R195) -/

section
variable {ch : Fin 64} {s : State} (hr : engineRuns s ch.val = true)
include hr

theorem burstOpportunity_passes : ∃ t, exec (.burstOpportunity ch) s = .next t ∧ (getChan t ch.val).opp = (getChan s ch.val).opp + 1 ∧
    (∀ c, c ≠ ch.val → (getChan t c).opp = (getChan s c).opp) ∧ t.keys = s.keys ∧ t.flash = s.flash ∧
    (∀ n, (getChan s ch.val).colBusy = n + 1 → (getChan t ch.val).colBusy = n) ∧
    ((getChan s ch.val).colBusy = 0 → (getChan s ch.val).second ≠ none → (getChan t ch.val).second = none) := by
  refine ⟨_, burstOpportunity_eq hr, ?_⟩
  have hturn : ColumnsStand s (if turnDue s ch.val then runTurn ch.val s else s) := by
    split
    · exact runTurn_columns _ s
    · exact .refl s
  generalize (if turnDue s ch.val then runTurn ch.val s else s) = v at hturn
  have hmove := opportunityOver_movesOn ch.val (columnCommand ch.val v)
  have hclock := hturn.toClocksStand.trans (columnCommand_clocks ch.val v)
  refine ⟨by rw [hmove.own, hclock.opp], fun c hc => (hmove.others c hc).trans (hclock.opp c), hmove.keys.trans hclock.keys,
    hmove.flash.trans hclock.flash, fun n hn => ?_, fun hb hs => ?_⟩
  · rw [hmove.colBusy, columnCommand_busy ((hturn.colBusy _).trans hn), getChan_set_same]
  · rw [hmove.second]
    exact (columnCommand_takesSecond ((hturn.colBusy _).trans hb) (by rwa [hturn.second])).2

variable (hd : turnDue s ch.val = false)
include hd

/-- Where no turn of the calendar is due, an opportunity begins with its column command. -/
theorem burstOpportunity_issues : exec (.burstOpportunity ch) s = .next (opportunityOver ch.val (columnCommand ch.val s)) := by
  rw [burstOpportunity_eq hr, hd]
  rfl

theorem burstOpportunity_activates {b i : Nat} {e : BankEntry} {u v : State} (hu : u = (columnCommand ch.val s).2)
    (hf : ∀ d < 32, (forcedCommand u ch.val d).isNone = true) (hp : choosePick u ch.val (rowEligible u ch.val) = (some (b, i, e), v))
    (ho : (getBank v ch.val b).openRow = none) :
    ∃ t, exec (.burstOpportunity ch) s = .next t ∧ (getBank t ch.val b).openRow = some (rowOf v ch.val e.req) ∧
      (getBank t ch.val b).colOk = cycleOf v ch.val + 42 := by
  obtain ⟨hrow, hcol⟩ := getBank_sampleRow ch.val b (rowOf v ch.val e.req) (activate ch.val b (rowOf v ch.val e.req) v)
  obtain ⟨harow, hacol⟩ := getBank_activate ch.val b (rowOf v ch.val e.req) v
  subst hu
  refine ⟨_, burstOpportunity_issues hr hd, ?_⟩
  rw [opportunityOver_bank, rowCommand_activates hf hp ho]
  exact ⟨hrow.trans harow, hcol.trans hacol⟩

variable (hb : (getChan s ch.val).colBusy = 0) (hs : (getChan s ch.val).second = none)
include hb hs

theorem burstOpportunity_idle (hp : (choosePick s ch.val (columnEligible s ch.val)).1 = none) :
    ∃ t, exec (.burstOpportunity ch) s = .next t ∧ t.path = s.path ∧ t.dram = s.dram := by
  have hmove := opportunityOver_movesOn ch.val (columnCommand ch.val s)
  refine ⟨_, burstOpportunity_issues hr hd, ?_⟩
  rw [columnCommand_none hb hs hp] at hmove ⊢
  exact ⟨hmove.path, hmove.dram⟩

/-- The column command of an opportunity is that of the entry chosen. -/
theorem burstOpportunity_chosen {b i : Nat} {e : BankEntry} {u : State}
    (hp : choosePick s ch.val (columnEligible s ch.val) = (some (b, i, e), u)) :
    ∃ t, exec (.burstOpportunity ch) s = .next t ∧ MovesOn ch.val (firstColumn ch.val b i e u) t := by
  have hmove := opportunityOver_movesOn ch.val (columnCommand ch.val s)
  refine ⟨_, burstOpportunity_issues hr hd, ?_⟩
  rw [columnCommand_chosen hb hs hp] at hmove ⊢
  exact hmove

end

/-- Settles O49: an opportunity is its column command, followed by a row command and counts, which leave the queues and the array; each
other command writes one bank's or one channel's record. -/
theorem enginesKeepTheirRows : Obligations.EnginesKeepTheirRows := by
  unfold Obligations.EnginesKeepTheirRows
  refine fun ch s => ⟨fun hr => ⟨burstOpportunity_passes hr, fun b i e u hd hb hs hp => ?_,
    fun hd hb hs hp => burstOpportunity_idle hr hd hb hs hp,
    fun b i e u v hd hu hf hp ho => burstOpportunity_activates hr hd hu hf hp ho,
    fun b => ⟨refreshInterval_owes hr b, neighbourRefreshDeadline_forces hr b, expressRowTimeout_closes hr b⟩⟩, rowDisturbReseed_seeds⟩
  have hu := choosePick_timing s ch.val (columnEligible s ch.val)
  rw [hp] at hu
  obtain ⟨t, hexec, ht⟩ := burstOpportunity_chosen hr hd hb hs hp
  refine ⟨t, hexec, choosePick_some hp, ?_⟩
  split
  · next h => exact chosen_looks hu ht h
  · next h =>
    refine ⟨chosen_leaves hu ht h, ?_⟩
    split
    · next h2 => exact chosen_holds ht h h2
    · next h2 =>
      split
      · next hk => exact chosen_visits hu ht h h2 hk
      · next hvisit =>
        split
        · next hk => exact chosen_erases hu ht h h2 hk
        · next herase => exact chosen_reads hu ht h h2 hvisit herase

end Sys2Proof.Safety

namespace Sys2Proof.Safety
open Sys2Proof.Machine

/-! ## Calendars turn and latency is measured (R198, R199, R202 to R205, R241, R242)

### What stands beside the record of a channel's Parlour -/

/-- Nothing but the journal, the classes on the channels and what `Reports` names differs: what a turn does beside the Parlour's record. -/
def CalendarWork (u t : State) : Prop := ∃ (j : Journal) (k : Table ClsCh), Reports { u with journal := j, clsCh := k } t

theorem Reports.calendarWork {s t : State} (h : Reports s t) : CalendarWork s t := ⟨s.journal, s.clsCh, h⟩

theorem Events.calendarWork {s t : State} : Events s t → CalendarWork s t := by
  rintro ⟨j, h⟩
  exact ⟨j, s.clsCh, h.reports⟩

theorem setCls_calendarWork (ch c : Nat) (v : ClsCh) (s : State) : CalendarWork s (setCls ch c v s) := ⟨_, _, .refl _⟩

theorem CalendarWork.refl (s : State) : CalendarWork s s := (Reports.refl s).calendarWork

theorem CalendarWork.trans {a b c : State} : CalendarWork a b → CalendarWork b c → CalendarWork a c := by
  rintro ⟨_, _, _, _, _, _, _, rfl⟩ ⟨j, k, w, x, l, n, r, rfl⟩
  exact ⟨j, k, w, x, l, n, r, rfl⟩

theorem CalendarWork.kept {s t : State} :
    CalendarWork s t → t.chans = s.chans ∧ t.parlour = s.parlour ∧ t.dram = s.dram ∧ t.thermal = s.thermal := by
  rintro ⟨_, _, _, _, _, _, _, rfl⟩
  exact ⟨rfl, rfl, rfl, rfl⟩

theorem CalendarWork.getChan {s t : State} (h : CalendarWork s t) (ch : Nat) : getChan t ch = getChan s ch := by
  unfold Machine.getChan
  rw [h.kept.1]

theorem CalendarWork.getParlour {s t : State} (h : CalendarWork s t) (ch : Nat) : getParlour t ch = getParlour s ch := by
  unfold Machine.getParlour
  rw [h.kept.2.1]

theorem forEach_calendarWork {α : Type} {f : α → State → State} (hf : ∀ x s, CalendarWork s (f x s)) (l : List α) (s : State) :
    CalendarWork s (forEach l f s) := forEach_relates .refl .trans hf l s

theorem journalCut_calendarWork (ch action band : Nat) (cut : Nat × Nat × Nat) (s : State) :
    CalendarWork s (journalCut ch action band cut s) := (journalEvent_events _ _ _ _ s).calendarWork

theorem applyCut_calendarWork (ch band : Nat) (prior : List Nat) (cut : Nat × Nat × Nat) (s : State) :
    CalendarWork s (applyCut ch band prior cut s) := by
  have hcut := journalCut_calendarWork ch 0 band cut s
  unfold applyCut
  dsimp only
  split
  · exact hcut
  · exact hcut.trans (raise_messages _ _ _ _).reports.calendarWork

theorem ageLatency_calendarWork (ch c : Nat) (s : State) : CalendarWork s (ageLatency ch c s) := by
  unfold ageLatency
  split
  · split
    · exact setCls_calendarWork _ _ _ s
    · exact .refl s
  · exact .refl s

theorem countLevel_calendarWork (ch c : Nat) (s : State) : CalendarWork s (countLevel ch c s) := by
  unfold countLevel
  dsimp only
  split
  · exact (classCount_reports _ _ _ _ _ s).calendarWork
  · exact .refl s

/-! ### What a turn leaves in the Parlour's record (R202 to R205) -/

/-- A Parlour's record turned to a plan's calendar: for the layer's band, without a cut while the plan allows for that band, throttled by the
channel's step. -/
structure TurnedTo (p : Plan) (ch : Nat) (s : State) (y : Parlour) : Prop where
  planCal : y.planCal = planCalendar p ch
  band : y.band = layerBand s ch
  step : y.step = channelStep s ch
  uncut : layerBand s ch ≤ p.band → y.cuts = [] ∧ y.cal = throttle y.step (planCalendar p ch)

theorem turnCalendar_turned (ch : Nat) (p : Plan) (s : State) :
    ∃ u y, CalendarWork s u ∧ turnCalendar ch p s = setParlour ch y u ∧ TurnedTo p ch s y := by
  unfold turnCalendar
  extract_lets y plan fresh band lifted had s0 pos need s1 s2 cut
  have hlift (l : List (Nat × Nat × Nat)) (t : State) : CalendarWork t (lifted l t) :=
    forEach_calendarWork (journalCut_calendarWork ch 1 band) l.reverse t
  have h0 : CalendarWork s s0 := by
    dsimp only [s0]
    split
    · exact hlift _ s
    · exact .refl s
  have h2 : CalendarWork s s2 :=
    (h0.trans (hlift _ s0)).trans (forEach_calendarWork (applyCut_calendarWork ch band y.prior) _ s1)
  refine ⟨s2, _, h2, rfl, rfl, rfl, rfl, fun hband => ?_⟩
  have hpos : pos = [] := if_neg (Nat.not_lt.mpr hband)
  have hneed : need = [] := by rw [show need = pos.map _ from rfl, hpos, List.map_nil]
  have hcut : cut = planCalendar p ch := by rw [show cut = cutWith p plan pos from rfl, hpos]; rfl
  exact ⟨hneed, by rw [hcut]⟩

/-- The state in which a channel's turn is marked as taken in. -/
def turnTaken (ch : Nat) (s : State) : State := setChan ch { getChan s ch with turned := true } s

theorem runTurn_calendarWork {ch : Nat} {s : State} {p : Plan} (hl : calendarsLoaded s = true) (hp : s.plans.plan = some p) :
    CalendarWork (turnCalendar ch p (turnTaken ch s)) (runTurn ch s) := by
  unfold runTurn
  simp only [hl, if_true, hp]
  exact forEach_calendarWork (fun c t => (ageLatency_calendarWork ch c t).trans (countLevel_calendarWork ch c _)) _ _

theorem runTurn_turned {ch : Nat} {s : State} {p : Plan} (hl : calendarsLoaded s = true) (hp : s.plans.plan = some p) :
    turnDue (runTurn ch s) ch = false ∧ TurnedTo p ch s (getParlour (runTurn ch s) ch) ∧ (runTurn ch s).dram = s.dram ∧
      (runTurn ch s).thermal = s.thermal := by
  have hrest := runTurn_calendarWork (ch := ch) hl hp
  obtain ⟨u, y, hu, heq, hy⟩ := turnCalendar_turned ch p (turnTaken ch s)
  rw [heq] at hrest
  obtain ⟨-, -, hdram, hthermal⟩ := hrest.kept
  obtain ⟨-, -, hudram, huthermal⟩ := hu.kept
  have hchan : getChan (runTurn ch s) ch = { getChan s ch with turned := true } :=
    calc getChan (runTurn ch s) ch = getChan u ch := hrest.getChan ch
      _ = getChan (turnTaken ch s) ch := hu.getChan ch
      _ = { getChan s ch with turned := true } := getChan_set_same _ _ _
  have hparlour : getParlour (runTurn ch s) ch = y := (hrest.getParlour ch).trans (getParlour_set_same u ch y)
  refine ⟨?_, ?_, hdram.trans hudram, hthermal.trans huthermal⟩
  · simp [turnDue, hchan]
  · rw [hparlour]
    exact ⟨hy.planCal, hy.band, hy.step, hy.uncut⟩

theorem calendarTurn_elsewhere {ch : Fin 64} {s : State} (hd : turnDue s ch.val = false) : exec (.calendarTurn ch) s = .next s := by
  show execCalendarTurn ch s = _
  simp [execCalendarTurn, hd]

theorem calendarTurn_runs {ch : Fin 64} {s : State} (hr : engineRuns s ch.val = true) (hd : turnDue s ch.val = true) :
    exec (.calendarTurn ch) s = .next (runTurn ch.val s) := by
  show execCalendarTurn ch s = _
  simp [execCalendarTurn, hr, hd]

/-! ### An update of the measured latency (R198, R199) -/

/-- The measured latency after an update with the mean m: an eighth of the distance further, rounded towards zero. -/
def latencyMoved (e m : Nat) : Nat := ((e : Int) + ((m : Int) - e).tdiv 8).toNat

/-- The state after an update with the mean m: its 64 samples are taken out of the window, and the latency moves. -/
def latencyUpdated (ch c m : Nat) (s : State) : State :=
  setLatency ch c (latencyMoved (getCls s ch c).e m) (setCls ch c { getCls s ch c with window := (getCls s ch c).window.drop 64 } s)

theorem meanNs_take {l : List Nat} (h : 64 ≤ l.length) : meanNs (l.take 64) = (l.take 64).sum / 192 := by
  rw [meanNs, List.length_take_of_le h]

theorem latencyUpdate_eq {ch : Fin 64} {cls : Fin 16} {s : State} (h : 64 ≤ (getCls s ch.val cls.val).window.length) :
    exec (.latencyUpdate ch cls) s =
      .next (latencyUpdated ch.val cls.val (((getCls s ch.val cls.val).window.take 64).sum / 192) s) := by
  show execLatencyUpdate ch cls s = _
  unfold execLatencyUpdate
  simp only [Nat.not_lt.mpr h, if_false, meanNs_take h]
  rfl

theorem latencyUpdated_cls (ch c m : Nat) (s : State) : getCls (latencyUpdated ch c m s) ch c =
    { getCls s ch c with
      window := (getCls s ch c).window.drop 64
      e := latencyMoved (getCls s ch c).e m
      level := levelOf s c (latencyMoved (getCls s ch c).e m) } := by
  unfold latencyUpdated setLatency
  rw [getCls_set_same, getCls_set_same]
  rfl

theorem latencyUpdated_frame (ch c m : Nat) (s : State) : { latencyUpdated ch c m s with clsCh := s.clsCh } = s := rfl

theorem latencyUpdated_other {ch c key : Nat} (h : key ≠ ch * 16 + c) (m : Nat) (s : State) :
    Map.get ClsCh.zero key (latencyUpdated ch c m s).clsCh = Map.get ClsCh.zero key s.clsCh :=
  (Map.get_set_other _ _ h _ _).trans (Map.get_set_other _ _ h _ _)

/-- Settles O55: a turn marks itself as taken, writes the Parlour's record and beside it only what `CalendarWork` names; an update writes
one class on one channel. -/
theorem calendarsTurn : Obligations.CalendarsTurn := by
  unfold Obligations.CalendarsTurn
  refine fun ch s => ⟨calendarTurn_elsewhere, fun p hr hd hl hp => ?_, ?_⟩
  · obtain ⟨hdue, hturned, hdram, hthermal⟩ := runTurn_turned (ch := ch.val) hl hp
    exact ⟨_, calendarTurn_runs hr hd, hdue, hturned.planCal, hturned.band, hturned.step, hturned.uncut, hdram, hthermal⟩
  · rintro cls m hw rfl
    refine ⟨_, latencyUpdate_eq hw, latencyUpdated_frame _ _ _ s, fun key hkey => latencyUpdated_other hkey _ s, ?_⟩
    rw [latencyUpdated_cls]
    exact ⟨rfl, (Int.toNat_eq_max _).trans (max_comm _ _), rfl⟩

end Sys2Proof.Safety

namespace Sys2Proof.Safety
open Sys2Proof.Machine

/-! ## Page retirement (R227 to R233)

### Entries of the remap directory (R230, R231) -/

theorem Tended.remap {s t : State} : Tended s t → t.remap = s.remap := by
  rintro ⟨_, _, _, _, _, _, _, _, _, _, rfl⟩
  rfl

theorem Tended.retirements {s t : State} : Tended s t → t.retirements = s.retirements := by
  rintro ⟨_, _, _, _, _, _, _, _, _, _, rfl⟩
  rfl

theorem Commanded.remap {u t : State} : Commanded u t → t.remap = u.remap := by
  rintro ⟨_, _, _, _, _, _, _, _, _, _, _, _, _, rfl⟩
  rfl

theorem Commanded.retirements {u t : State} : Commanded u t → t.retirements = u.retirements := by
  rintro ⟨_, _, _, _, _, _, _, _, _, _, _, _, _, rfl⟩
  rfl

theorem getRemap_congr {s t : State} (h : t.remap = s.remap) (ch i : Nat) : getRemap t ch i = getRemap s ch i := by
  unfold getRemap
  rw [h]

/-- The system row takes the entries as the directory has them: the directory itself is only what was set (R231). -/
theorem setRemap_remap (ch i : Nat) (e : Remap) (s : State) :
    (setRemap ch i e s).remap = Map.set Remap.zero (ch * 2048 + i) e s.remap := (writeSystem_tended _ _ _ _).remap

theorem getRemap_setRemap_same (ch i : Nat) (e : Remap) (s : State) : getRemap (setRemap ch i e s) ch i = e := by
  unfold getRemap
  rw [setRemap_remap, Map.get_set_same]

theorem getRemap_setRemap_other {ch i c j : Nat} (h : c * 2048 + j ≠ ch * 2048 + i) (e : Remap) (s : State) :
    getRemap (setRemap ch i e s) c j = getRemap s c j := by
  unfold getRemap
  rw [setRemap_remap, Map.get_set_other _ _ h]

theorem endRetirements_tended (s : State) :
    Tended { s with retirements := s.retirements.filter (fun r => r.units ≠ []) } (endRetirements s) :=
  forEach_tended (fun _ t => (journalEvent_events _ _ _ _ t).tended) _ _

/-! ### The spare pages that a retirement takes (R228, R229) -/

/-- The number of a unit's spare page in the remap directory. -/
def spareKey (x : Nat × Nat × Nat) : Nat := x.1 * 2048 + x.2.2

/-- Every unit has a spare page of its own, among the 2,048 of its channel. -/
structure SparesApart (l : List (Nat × Nat × Nat)) : Prop where
  bound : ∀ x ∈ l, x.2.2 < 2048
  apart : (l.map spareKey).Nodup

theorem lowestSpare_free {s : State} {ch i : Nat} {taken : List (Nat × Nat)} (h : lowestSpare s ch taken = some i) :
    i < 2048 ∧ (ch, i) ∉ taken := by
  unfold lowestSpare at h
  have hfree := List.find?_some h
  simp only [Bool.and_eq_true, Bool.not_eq_true', List.contains_eq_mem, decide_eq_false_iff_not] at hfree
  exact ⟨List.mem_range.mp (List.mem_of_find?_eq_some h), hfree.2⟩

theorem SparesApart.append {l : List (Nat × Nat × Nat)} (h : SparesApart l) {ch i : Nat} (u : Nat) (hi : i < 2048)
    (hnew : (ch, i) ∉ l.map (fun x => (x.1, x.2.2))) : SparesApart (l ++ [(ch, u, i)]) := by
  have hkey : spareKey (ch, u, i) ∉ l.map spareKey := by
    intro hmem
    obtain ⟨x, hx, hsame⟩ := List.mem_map.mp hmem
    have hbound := h.bound x hx
    unfold spareKey at hsame
    refine hnew (List.mem_map.mpr ⟨x, hx, Prod.ext ?_ ?_⟩) <;> dsimp only at hsame ⊢ <;> omega
  refine ⟨fun x hx => ?_, ?_⟩
  · rcases List.mem_append.mp hx with hx | hx
    · exact h.bound x hx
    · rw [List.mem_singleton.mp hx]
      exact hi
  · rw [List.map_append, List.map_singleton]
    exact List.nodup_append.mpr ⟨h.apart, List.nodup_singleton _, fun a ha b hb hab => hkey (by
      rw [← List.mem_singleton.mp hb, ← hab]
      exact ha)⟩

/-- The next unit takes the lowest spare page that no unit before it has. The recursor is reduced by name: unfolding the equation would
search the 2,048 spare pages of an unknown directory. -/
theorem assignSpares_cons (s : State) (x : Nat × Nat) (us : List (Nat × Nat)) (acc : List (Nat × Nat × Nat)) :
    assignSpares s (x :: us) acc =
      (lowestSpare s x.1 (acc.map (fun y => (y.1, y.2.2)))).bind (fun i => assignSpares s us (acc ++ [(x.1, x.2, i)])) := by
  delta assignSpares
  dsimp only [List.brecOn, List.brecOn.go, assignSpares._f]
  generalize lowestSpare s x.1 (acc.map (fun y => (y.1, y.2.2))) = free
  cases free <;> rfl

theorem assignSpares_apart {s : State} {us : List (Nat × Nat)} {acc units : List (Nat × Nat × Nat)} (hacc : SparesApart acc)
    (h : assignSpares s us acc = some units) : SparesApart units := by
  induction us generalizing acc with
  | nil =>
    cases h
    exact hacc
  | cons x us ih =>
    rw [assignSpares_cons] at h
    obtain ⟨i, hi, hrest⟩ := Option.bind_eq_some_iff.mp h
    obtain ⟨hlt, hnew⟩ := lowestSpare_free hi
    exact ih (hacc.append _ hlt hnew) hrest

theorem retirePageRule_apart {page : Nat} {s : State} {units : List (Nat × Nat × Nat)} {skipped : Nat}
    (h : retirePageRule page s = .inr (units, skipped)) : SparesApart units := by
  unfold retirePageRule at h
  dsimp only at h
  split at h
  · cases h
  · split at h
    · cases h
    · next l hl =>
      split at h
      · cases h
      · split at h
        · cases h
        · cases h
          exact assignSpares_apart ⟨fun _ hx => (List.not_mem_nil hx).elim, List.nodup_nil⟩ hl

/-- Which spare pages are free depends on the directory alone (R229). -/
theorem assignSpares_congr {s t : State} (h : t.remap = s.remap) (us : List (Nat × Nat)) (acc : List (Nat × Nat × Nat)) :
    assignSpares t us acc = assignSpares s us acc := by
  have hlowest (ch : Nat) (taken : List (Nat × Nat)) : lowestSpare t ch taken = lowestSpare s ch taken := by
    unfold lowestSpare
    simp only [getRemap_congr h]
  induction us generalizing acc with
  | nil => rfl
  | cons x us ih => simp only [assignSpares_cons, hlowest, ih]

/-- A command's receipt changes nothing that RETIRE_PAGE is decided by (R227). -/
theorem retirePageRule_commanded {s t : State} (h : Commanded s t) (page : Nat) : retirePageRule page t = retirePageRule page s := by
  have hassign := assignSpares_congr h.remap
  obtain ⟨hunits, hretired⟩ : pageUnits t page = pageUnits s page ∧ ∀ ch, isRetired t ch = isRetired s ch := by
    obtain ⟨_, _, _, _, _, _, _, _, _, _, _, _, _, rfl⟩ := h
    exact ⟨rfl, fun _ => rfl⟩
  unfold retirePageRule
  simp only [hassign, hunits, hretired, h.retirements]

/-! ### RETIRE_PAGE (R227) -/

/-- The entry of a spare page while a unit is copied to it (R230). -/
def takenEntry (page u : Nat) : Remap := { Remap.zero with valid := true, page := page, unit := u }

/-- Each unit's entry stands once all are written: no two have the same (R230). -/
theorem getRemap_taken {page : Nat} {units : List (Nat × Nat × Nat)} (h : (units.map spareKey).Nodup) {x : Nat × Nat × Nat}
    (hx : x ∈ units) (s : State) :
    getRemap (forEach units (fun y => setRemap y.1 y.2.2 (takenEntry page y.2.1)) s) x.1 x.2.2 = takenEntry page x.2.1 := by
  induction units generalizing s with
  | nil => cases hx
  | cons y units ih =>
    obtain ⟨hy, hrest⟩ := List.nodup_cons.mp h
    rcases List.mem_cons.mp hx with rfl | hx
    · have hkeep (z) (hz : z ∈ units) (t : State) :
          getRemap (setRemap z.1 z.2.2 (takenEntry page z.2.1) t) x.1 x.2.2 = getRemap t x.1 x.2.2 :=
        getRemap_setRemap_other (fun hsame => hy (List.mem_map.mpr ⟨z, hz, hsame.symm⟩)) _ t
      exact (forEach_relates_mem (R := fun a b => getRemap b x.1 x.2.2 = getRemap a x.1 x.2.2) (fun _ => rfl) (fun h h' => h'.trans h)
        hkeep _).trans (getRemap_setRemap_same _ _ _ _)
    · exact ih hrest hx _

/-- An accepted RETIRE_PAGE: the retirement stands with all its units, each with its entry (R227, R230). -/
theorem retireRule_accepts {f : ChainFrame} {s : State} {units : List (Nat × Nat × Nat)} {skipped : Nat}
    (h : retirePageRule (field f.payload 0 4) s = .inr (units, skipped)) (hne : units ≠ []) :
    (retireRule f s).status = 0x01 ∧ (retireRule f s).payload = [BitVec.ofNat 8 units.length, BitVec.ofNat 8 skipped, 0, 0] ∧
      (∃ r ∈ (retireRule f s).st.retirements, r.page = field f.payload 0 4 ∧ r.units = units ∧ r.placed = 0) ∧
      ∀ x ∈ units, getRemap (retireRule f s).st x.1 x.2.2 = takenEntry (field f.payload 0 4) x.2.1 := by
  obtain ⟨u, hu⟩ : ∃ u, u = forEach units (fun x t => abortForSpare x.1 x.2.2 t) s := ⟨_, rfl⟩
  have hrule : retireRule f s = accepted [BitVec.ofNat 8 units.length, BitVec.ofNat 8 skipped, 0, 0]
      (endRetirements (startPage (field f.payload 0 4) units skipped u)) := by
    unfold retireRule
    dsimp only
    rw [h, hu]
  have hend := endRetirements_tended (startPage (field f.payload 0 4) units skipped u)
  rw [hrule]
  refine ⟨rfl, rfl, ⟨{ page := field f.payload 0 4, all := units.map (fun x => (x.1, x.2.1)), units, placed := 0, skipped, mask := 0 },
    ?_, rfl, rfl, rfl⟩, fun x hx => ?_⟩
  · show _ ∈ (endRetirements _).retirements
    rw [hend.retirements]
    exact List.mem_filter.mpr ⟨List.mem_append_right _ (List.mem_singleton_self _), decide_eq_true hne⟩
  · exact (getRemap_congr hend.remap _ _).trans (getRemap_taken (retirePageRule_apart h).apart hx u)

/-! ### What the copy of a line leaves of the memory path -/

theorem Reports.path {s t : State} : Reports s t → t.path = s.path := by
  rintro ⟨_, _, _, _, _, rfl⟩
  rfl

theorem Tended.path {s t : State} : Tended s t → t.path = s.path := by
  rintro ⟨_, _, _, _, _, _, _, _, _, _, rfl⟩
  rfl

theorem addUpsets_rewrites (line : Nat) (es : Errors) (s : State) : Rewrites s (addUpsets line es s) :=
  forEach_relates .refl .trans (fun _ t => ⟨_, t.misread, rfl⟩) es s

theorem chanCount_path (ch n add : Nat) (s : State) : (chanCount ch n add s).path = s.path := (chanCount_reports ch n add s).path

theorem decodeLine_path (s : State) (line : Nat) (path : Errors) : (decodeLine s line path).2.path = s.path :=
  (decodeLine_tended s line path).path

theorem poisonFound_path (ch loc dma : Nat) (s : State) : (poisonFound ch loc dma s).path = s.path := by
  have hpoison : (countPoison (putPoisonData ch loc s)).path = s.path := by
    obtain ⟨_, h⟩ := putPoisonData_dram ch loc s
    rw [h]
    rfl
  unfold poisonFound countTenantAt
  split
  · rfl
  · split
    · exact (tenantCount_serves _ _ _ _).path.trans hpoison
    · exact hpoison

/-- A new poison is one found, or none (R225). -/
theorem poisonNew_path (ch loc dma : Nat) (s : State) : (poisonNew ch loc dma s).path = s.path := by
  have hfound := poisonFound_path ch loc dma s
  unfold poisonFound at hfound
  unfold poisonNew
  by_cases hr : isRetired s ch = true
  · rw [hr, Bool.true_or, if_pos rfl]
  · rw [if_neg hr] at hfound
    split
    · rfl
    · exact hfound

theorem rewriteLost_path (page idx region : Nat) (s : State) : (rewriteLost page idx region s).path = s.path := by
  have hdue : (noteDue page region s).path = s.path := by
    unfold noteDue
    split <;> rfl
  unfold rewriteLost
  dsimp only
  split
  · split
    · exact hdue
    · rfl
  · split
    · rfl
    · split
      · exact (tenantCount_serves _ _ _ _).path
      · exact hdue

theorem loseEntry_path (ch kind loc : Nat) (s : State) : (loseEntry ch kind loc s).path = s.path := by
  unfold loseEntry
  extract_lets dma s1
  have h1 : s1.path = s.path := ((raise_path _ _ _ _).trans (chanCount_path _ _ _ _)).trans (poisonNew_path _ _ _ s)
  split
  · exact (rewriteLost_path _ _ _ _).trans h1
  · exact h1

theorem loseMeta_path (ch line kind : Nat) (s : State) : (loseMeta ch line kind s).path = s.path :=
  forEach_keeps (P := fun t => t.path = s.path) (fun loc t h => (loseEntry_path ch kind loc t).trans h)
    ((raise_path _ _ _ _).trans (chanCount_path _ _ _ _))

theorem copyMeta_path (ch loc : Nat) (es : Errors) (s : State) : (copyMeta ch loc es s).2.path = s.path := by
  unfold copyMeta
  extract_lets line d
  obtain ⟨hupsets, _, _⟩ := (addUpsets_rewrites line es s).kept
  have hd : d.2.path = s.path := (decodeLine_path _ line []).trans hupsets
  split
  · exact hd
  · exact (noteCorrection_reports _ _ _ _ _ _ _ _).path.trans hd
  · exact (loseMeta_path _ _ _ _).trans hd

/-! ### The copy of a line (R230) -/

/-- The lines of the spare pages and those of their metadata entries are apart (R229). -/
theorem spareLine_ne_spareMeta (ch : Nat) {i j : Nat} (hi : i < 2048) (hj : j < 64) : spareLine ch i j ≠ (spareMeta ch i j).1 := by
  intro h
  obtain ⟨_, hline⟩ := systemIndex_systemLine ch (sl := 0x14000 + 64 * i + j) (by omega)
  obtain ⟨_, hmeta⟩ := systemIndex_systemLine ch (sl := 0x34000 + 8 * i + j / 8) (by omega)
  unfold spareLine spareMeta at h
  rw [h, hmeta] at hline
  omega

/-- The copy of a line as its decode left it: the data with its symbols corrected, or poison (R230). -/
def HoldsCopy (d : Decoded) (line : Nat) (t : State) : Prop :=
  match d with
  | .clean bs | .corrected bs _ _ _ => lineData t line = padTo 64 bs ∧ isPoisoned t line = false
  | .poisoned | .uncorrectable => isPoisoned t line = true

theorem HoldsCopy.kept {d : Decoded} {line : Nat} {s t : State} (h : HoldsCopy d line s) (hkept : LineKept line s t) : HoldsCopy d line t := by
  unfold HoldsCopy at h ⊢
  rw [hkept.data, hkept.poison]
  exact h

/-- Line j of a unit at its spare page, as its decode `d` found the original (R230). -/
def copyData (ch loc i j dma : Nat) (d : Decoded) (s : State) : State :=
  match d with
  | .clean bs => writeLine (spareLine ch i j) bs s
  | .corrected bs lanes nb er => writeLine (spareLine ch i j) bs (noteCorrection ch dma 3 true lanes nb er s)
  | .poisoned => putPoison (spareLine ch i j) s
  | .uncorrectable => putPoison (spareLine ch i j) (raise ch 0x04 dma (chanCount ch 3 1 (poisonFound ch loc dma s)))

/-- The first n lines of the unit that goes to spare page i count as copied, in the directory alone (R230). -/
def countCopied (ch i n : Nat) (s : State) : State :=
  { s with remap := Map.set Remap.zero (ch * 2048 + i) { getRemap s ch i with copied := n } s.remap }

/-- The metadata entry of line j goes to the spare page, and the line counts as copied (R230). -/
def copyEntry (ch i j : Nat) (m : Nat × BitVec 56) (s : State) : State :=
  systemBursts ch 2 (writeBytes (spareMeta ch i j).1 (spareMeta ch i j).2 (metaBytes m.1 m.2) (countCopied ch i (j + 1) s))

theorem copyUnitLine_eq {ch loc i : Nat} {path es : Errors} {s v : State} {m : Nat × BitVec 56} {d : Decoded}
    (hm : (m, v) = copyMeta ch loc es s) (hd : d = (decodeLine v (dataHome v ch loc) path).1) :
    copyUnitLine ch (loc / 64) i (loc % 64) path es s = copyEntry ch i (loc % 64) m
      (copyData ch loc i (loc % 64) (unsteer (planOf v) ch loc) d (decodeLine v (dataHome v ch loc) path).2) := by
  obtain ⟨rfl, rfl⟩ := Prod.ext_iff.mp hm
  subst hd
  unfold copyUnitLine
  rw [Nat.div_add_mod]
  dsimp only
  generalize decodeLine _ _ path = x
  obtain ⟨d, t⟩ := x
  cases d <;> rfl

theorem copyData_holds (ch loc i j dma : Nat) (d : Decoded) (s : State) : HoldsCopy d (spareLine ch i j) (copyData ch loc i j dma d s) := by
  cases d with
  | clean bs | corrected bs => exact ⟨lineData_writeLine _ bs _, isPoisoned_writeBytes _ _ _ _⟩
  | poisoned | uncorrectable => exact NSet.has_add _ _

theorem writeLine_path (line : Nat) (bs : List Byte) (s : State) : (writeLine line bs s).path = s.path := rfl

theorem putPoison_path (line : Nat) (s : State) : (putPoison line s).path = s.path := rfl

theorem copyData_path (ch loc i j dma : Nat) (d : Decoded) (s : State) : (copyData ch loc i j dma d s).path = s.path := by
  cases d with
  | clean => exact writeLine_path _ _ s
  | corrected => exact (writeLine_path _ _ _).trans (noteCorrection_reports _ _ _ _ _ _ _ s).path
  | poisoned => exact putPoison_path _ s
  | uncorrectable =>
    exact (putPoison_path _ _).trans (((raise_path _ _ _ _).trans (chanCount_path _ _ _ _)).trans (poisonFound_path _ _ _ s))

theorem getRemap_countCopied (ch i n : Nat) (s : State) : getRemap (countCopied ch i n s) ch i = { getRemap s ch i with copied := n } :=
  Map.get_set_same _ _ _ _

theorem spareMeta_fits (ch i j : Nat) : (spareMeta ch i j).2 + 8 ≤ 64 := by
  unfold spareMeta
  dsimp only
  omega

/-- What copying the entry of a line leaves: the entry reads back, the line itself is as before, and one line more counts as copied
(R230). -/
theorem copyEntry_reads {ch i j : Nat} (hi : i < 2048) (hj : j < 64) (m : Nat × BitVec 56) (s : State) :
    (copyEntry ch i j m s).path = s.path ∧ (getRemap (copyEntry ch i j m s) ch i).copied = j + 1 ∧
      lineBytes (copyEntry ch i j m s) (spareMeta ch i j).1 (spareMeta ch i j).2 8 = metaBytes m.1 m.2 ∧
      LineKept (spareLine ch i j) s (copyEntry ch i j m s) := by
  have hlen : (metaBytes m.1 m.2).length = 8 := by simp [metaBytes, beBytes]
  have hread := lineBytes_writeBytes (spareMeta ch i j).1 (spareMeta ch i j).2 (metaBytes m.1 m.2) (countCopied ch i (j + 1) s)
  rw [hlen] at hread
  have hfit : (spareMeta ch i j).2 + (metaBytes m.1 m.2).length ≤ 64 := by
    rw [hlen]
    exact spareMeta_fits ch i j
  have hline := writeBytes_lineKept (spareLine_ne_spareMeta ch hi hj) hfit (countCopied ch i (j + 1) s)
  obtain ⟨_, _, _, _, _, h⟩ := systemBursts_reports ch 2
    (writeBytes (spareMeta ch i j).1 (spareMeta ch i j).2 (metaBytes m.1 m.2) (countCopied ch i (j + 1) s))
  unfold copyEntry
  rw [h]
  exact ⟨rfl, congrArg Remap.copied (getRemap_countCopied ch i (j + 1) s), hread, hline.bytes, hline.poison⟩

/-- A decode takes its burst from those that have arrived. -/
theorem inFlight_arrived (r : LineReq) (line : Nat) (es : Errors) (ch : Nat) (l : List Burst) (s : State) :
    inFlight (unlockVisit r (addUpsets line es (setInFlight ch l s))) ch = l := by
  obtain ⟨_, _, h⟩ := addUpsets_rewrites line es (setInFlight ch l s)
  rw [h]
  exact Map.get_set_same _ _ _ _

/-- LINE_DECODE of a burst that a copy asked for, the next of its unit, is the copy of that line (R230). -/
theorem lineDecode_copies {s : State} {ch : Fin 64} {ups path mu : Errors} {b : Burst} {rest : List Burst} {loc i : Nat} {e : Remap}
    (hfly : inFlight s ch.val = b :: rest) (hrun : stalls s ch.val = false) (hkind : b.req.kind = .copy)
    (hloc : loc = (homeOf s b.req.dma).2) (hspare : copyingSpare s ch.val (loc / 64) = some (i, e)) (hnext : e.copied = loc % 64) :
    exec (.lineDecode ch ups path mu) s = .next (copyUnitLine ch.val (loc / 64) i (loc % 64) path mu
      (unlockVisit b.req (addUpsets (dataHome s ch.val loc) ups (setInFlight ch.val rest s)))) := by
  obtain ⟨v, hv⟩ : ∃ v, v = addUpsets (dataHome s ch.val loc) ups (setInFlight ch.val rest s) := ⟨_, rfl⟩
  obtain ⟨hsteer, hsame⟩ : homeOf v b.req.dma = homeOf s b.req.dma ∧
      copyingSpare v ch.val (loc / 64) = copyingSpare s ch.val (loc / 64) := by
    obtain ⟨_, _, h⟩ := addUpsets_rewrites (dataHome s ch.val loc) ups (setInFlight ch.val rest s)
    rw [hv, h]
    exact ⟨rfl, rfl⟩
  show execLineDecode ch ups path mu s = _
  unfold execLineDecode
  rw [hfly]
  dsimp only
  rw [hrun, hkind, if_neg (by decide), if_pos rfl, ← hloc, ← hv]
  unfold copyLine
  dsimp only
  rw [hsteer, ← hloc, hsame, hspare]
  dsimp only
  rw [if_pos hnext]

theorem copyingSpare_lt {s : State} {ch u i : Nat} {e : Remap} (h : copyingSpare s ch u = some (i, e)) : i < 2048 := by
  unfold copyingSpare at h
  obtain ⟨x, _, hx⟩ := Option.map_eq_some_iff.mp h
  cases hx
  exact Nat.mod_lt _ (by decide)

/-! ### UNIT_COPY (R230 to R232) -/

/-- The first retirement with a unit, and that unit's spare page (R229, R230). -/
theorem findSome_unit {l : List Retirement} {r : Retirement} {p : Nat × Nat × Nat → Bool} {x : Nat × Nat × Nat}
    (hr : l.find? (fun r => r.units.any p) = some r) (hx : r.units.find? p = some x) :
    l.findSome? (fun r => (r.units.find? p).map (fun x => (r, x.2.2))) = some (r, x.2.2) := by
  induction l with
  | nil => cases hr
  | cons y l ih =>
    rw [List.find?_cons] at hr
    rw [List.findSome?_cons]
    split at hr
    · cases hr
      rw [hx]
      rfl
    · next hnone =>
      rw [List.find?_eq_none.mpr (by simpa using hnone)]
      exact ih hr

/-- The entry of a spare page that serves a unit (R230). -/
def committedEntry (page u : Nat) : Remap := { valid := true, committed := true, bad := false, page := page, unit := u, copied := 0 }

theorem endCopy_remap (ch u i : Nat) (r : Retirement) (s : State) : (endCopy ch u i r s).remap = (commitUnit ch u i r.page s).remap :=
  (endRetirements_tended _).remap

theorem commitUnit_commits (ch u i page : Nat) (s : State) : getRemap (commitUnit ch u i page s) ch i = committedEntry page u :=
  getRemap_setRemap_same ch i (committedEntry page u) _

/-- A spare page that held the unit before becomes Bad (R232). -/
theorem commitUnit_replaces {ch u i o : Nat} {s : State} (h : committedSpare s ch u = some o) (hne : o ≠ i) (page : Nat) :
    getRemap (commitUnit ch u i page s) ch o = { Remap.zero with bad := true, page := (getRemap s ch o).page, unit := u } := by
  unfold commitUnit
  rw [h]
  exact (getRemap_setRemap_other (by omega) _ _).trans (getRemap_setRemap_same _ _ _ _)

section
variable {s : State} {ch : Fin 64} {u i : Nat} {r : Retirement} (hu : u < unitCount)
  (hr : s.retirements.find? (fun r => r.units.any (fun x => x.1 = ch.val && x.2.1 = u)) = some r)
  (hx : r.units.find? (fun x => x.1 = ch.val && x.2.1 = u) = some (ch.val, u, i))
include hu hr hx

/-- A unit under retirement is committed once its channel is open and its 64 lines are copied (R230). -/
theorem unitCopy_eq : exec (.unitCopy ch u) s =
    if ownOpen s ch.val && decide (64 ≤ (getRemap s ch.val i).copied) then .next (endCopy ch.val u i r s) else .next s := by
  show execUnitCopy ch u s = _
  unfold execUnitCopy
  rw [if_neg (Nat.not_le.mpr hu), findSome_unit hr hx]

end

/-- Settles O7: each of the four steps is its equation, and the entries and lines that it writes read back. -/
theorem retirementTakesSpares : Obligations.RetirementTakesSpares := by
  unfold Obligations.RetirementTakesSpares
  refine ⟨?retire, ?line, ?commit, ?absent⟩
  case retire =>
    intro p f s units skipped hruns hrule hne
    have haccepts (s1 : State) (h1 : Commanded s s1) :=
      retireRule_accepts ((retirePageRule_commanded h1 _).trans hrule) hne
    obtain ⟨t, s1, ht, h1, hc, hans⟩ := runCommand_acts hruns (.inr rfl) fun s1 h1 => by
      obtain ⟨hstatus, hpayload, _, _⟩ := haccepts s1 h1
      exact ⟨hstatus, hpayload⟩
    obtain ⟨_, _, hrecorded, hentries⟩ := haccepts s1 h1
    refine ⟨t, congrArg _ ht, hans, ?_, fun x hx => (getRemap_congr hc.remap _ _).trans (hentries x hx)⟩
    rw [hc.retirements]
    exact hrecorded
  case line =>
    rintro s u ch ups path mu b rest loc i j e m d hfly hrun hkind hloc rfl hspare hnext hm hd
    obtain ⟨hpath, hcopied, hmeta, hkept⟩ := copyEntry_reads (ch := ch.val) (copyingSpare_lt hspare) (Nat.mod_lt loc (by decide)) m
      (copyData ch.val loc i (loc % 64) (unsteer (planOf u) ch.val loc) d (decodeLine u (dataHome u ch.val loc) path).2)
    have hholds := (copyData_holds ch.val loc i (loc % 64) (unsteer (planOf u) ch.val loc) d _).kept hkept
    have hexec := (lineDecode_copies (ups := ups) (path := path) (mu := mu) hfly hrun hkind hloc hspare hnext).trans
      (congrArg _ (copyUnitLine_eq hm hd))
    refine ⟨_, hexec, ?_, hcopied, hmeta, ?_, ?_, ?_⟩
    · have hmetaPath := copyMeta_path ch.val loc mu (unlockVisit b.req (addUpsets (dataHome s ch.val loc) ups (setInFlight ch.val rest s)))
      rw [← hm] at hmetaPath
      unfold inFlight
      rw [hpath, copyData_path, decodeLine_path, hmetaPath]
      exact inFlight_arrived _ _ _ _ _ _
    · rintro bs rfl
      exact hholds
    · rintro bs lanes n er rfl
      exact hholds
    · rintro (rfl | rfl) <;> exact hholds
  case commit =>
    intro s ch u i r hu hr hx
    rw [unitCopy_eq hu hr hx]
    refine ⟨fun hopen hall => ⟨_, if_pos (by rw [hopen, decide_eq_true hall]; rfl), ?_, fun o ho hne => ?_⟩, fun h => ?_⟩
    · exact (getRemap_congr (endCopy_remap _ _ _ _ _) _ _).trans (commitUnit_commits _ _ _ _ _)
    · rw [getRemap_congr (endCopy_remap _ _ _ _ _), commitUnit_replaces ho hne]
      exact ⟨rfl, rfl⟩
    · rw [if_neg]
      simp only [Bool.and_eq_true, decide_eq_true_eq, not_and, not_le]
      exact fun hopen => h.resolve_left (by rw [hopen]; decide)
  case absent =>
    intro s ch u h
    show execUnitCopy ch u s = _
    unfold execUnitCopy
    rw [if_pos h]

end Sys2Proof.Safety
